-- ==== Sys2Proof/Word.lean ====
section
/-! DEFINITION. The byte of the serial link and the plainest units of time (00_scope.md, Units). -/

namespace Sys2Proof

/-- One byte of the serial link (R188). -/
abbrev Byte := BitVec 8

/-- Milliseconds in a duration given in seconds (00_scope.md, Time). -/
def seconds (n : Nat) : Nat := n * 1000

/-- Milliseconds in a duration given in hours. -/
def hours (n : Nat) : Nat := n * 3600000

end Sys2Proof
end

