-- ==== Sys2Proof/Syntax.lean ====
section
/-! DEFINITION. The commands of the VH8: one constructor of `Instr` for each row of spec/opcode_table.json.

A request carries the tag byte of its frame (R190) and its payload fields as they stand on the link (R200, R201), so that a
number or a code outside its range can be written and is refused by the request's own checks. A command of the room or of a
timer carries the number of the record it concerns and what the line shows. -/

namespace Sys2Proof

/-- What a PROBE line presents to its comparator (R115): a resistance, in milliohms (log entry 23), or a line that is open, whose
resistance is without limit. -/
inductive LineResistance where
  | milliohms (n : Nat)
  | unlimited
  deriving DecidableEq, Repr

/-- The levels the conditioned lines show at one millisecond: EQZ (R51), SERVICE (R192), and FLOW0 to FLOW7, bit i for
FLOWi (R71). `true` is active, or flow. -/
structure Lines where
  eqz : Bool
  service : Bool
  flow : BitVec 8
  deriving DecidableEq, Repr

/-- Every level the part reads at the end of a power-on reset: the SAFE straps, bit i set where SAFEi selects run (R178),
the conditioned lines, and the resistances of the PROBE lines, which the comparator first classifies then (R115). -/
structure ResetLines where
  safe : BitVec 8
  lines : Lines
  probes : Vector LineResistance 8
  deriving DecidableEq, Repr

/-- The configuration fields of SET CHANNEL, in the order of R1's table. -/
structure ChannelFields where
  enabled : Byte
  zone : Byte
  profile : Byte
  window : Byte
  gain : BitVec 16
  shift : Byte
  trackLimit : Byte
  cnu : BitVec 16
  cnd : BitVec 16
  cku : BitVec 16
  ckd : BitVec 16
  zeroBand : BitVec 16
  warmup : BitVec 16
  /-- signed -/
  initialBaseline : BitVec 24
  bumpLevel : BitVec 16
  bumpTime : BitVec 16
  deriving DecidableEq, Repr

/-- The configuration fields of SET ZONE, in the order of R42's table. -/
structure ZoneFields where
  vote : Byte
  order : List Byte
  needIdle : Byte
  needBase : Byte
  needBoost : Byte
  needPurge : Byte
  baseFloor : Byte
  t1 : BitVec 16
  t2 : BitVec 16
  t3 : BitVec 16
  hysteresis : Byte
  hold : BitVec 16
  coupled : Byte
  linger : BitVec 16
  deriving DecidableEq, Repr

/-- The configuration fields of SET FAN, in the order of R67's table. -/
structure FanFields where
  present : Byte
  rating : Byte
  proving : Byte
  lossTolerance : Byte
  minRun : BitVec 16
  coast : BitVec 16
  retries : Byte
  exInterval : BitVec 16
  exDuration : BitVec 16
  deriving DecidableEq, Repr

/-- The configuration fields of SET PROBE, in the order of R116's table. -/
structure ProbeFields where
  present : Byte
  zone : Byte
  wetDebounce : Byte
  dryDebounce : BitVec 16
  deriving DecidableEq, Repr

/-- The settings of SET ARBITER, in the order of R101. -/
structure ArbiterFields where
  k : Byte
  w : BitVec 16
  g : Byte
  deriving DecidableEq, Repr

/-- The fields of SCHEDULE, in the order of R173. The target, the duration and the tag are fields an action may not need, so
each is preceded by its presence byte (R201; log entry 10). -/
structure ScheduleFields where
  fire : BitVec 48
  action : Byte
  targetPresent : Byte
  target : Byte
  durationPresent : Byte
  duration : BitVec 24
  tagPresent : Byte
  mark : Byte
  interval : BitVec 24
  deriving DecidableEq, Repr

/-- The commands. -/
inductive Instr where
  -- reports
  | status (tag : Byte)
  | readChannel (tag channel : Byte)
  | readZone (tag zone : Byte)
  | readFan (tag fan : Byte)
  | readArbiter (tag : Byte)
  | readAlarms (tag first : Byte)
  | readNotices (tag : Byte)
  | readProbe (tag probe : Byte)
  | readTime (tag : Byte)
  | readSchedule (tag : Byte)
  -- alarm and trace requests
  | acknowledge (tag key : Byte)
  | clearFlags (tag channel : Byte) (flags : List Byte)
  | mask (tag : Byte) (classes : List Byte)
  | lampTest (tag : Byte)
  | trace (tag channel : Byte)
  -- fan and zone requests
  | fanStart (tag fan : Byte) (duration : BitVec 24)
  | fanStop (tag fan : Byte)
  | fanLock (tag fan : Byte)
  | fanRelease (tag fan : Byte)
  | rotate (tag zone : Byte)
  -- test requests
  | channelHold (tag channel : Byte)
  | channelResume (tag channel : Byte)
  | zero (tag channel : Byte)
  | span (tag channel : Byte) (known : BitVec 16)
  | bump (tag channel : Byte)
  -- time and schedule requests
  | setTime (tag : Byte) (time : BitVec 48)
  | setTrim (tag : Byte) (rate : BitVec 16) (sense : Byte)
  | schedule (tag : Byte) (fields : ScheduleFields)
  | cancel (tag slot : Byte)
  -- configuration requests
  | setChannel (tag channel : Byte) (fields : ChannelFields)
  | setProfile (tag profile : Byte) (coefficients : Vector (BitVec 16) 10)
  | setZone (tag zone : Byte) (fields : ZoneFields)
  | setFan (tag fan : Byte) (fields : FanFields)
  | setProbe (tag probe : Byte) (fields : ProbeFields)
  | setArbiter (tag : Byte) (fields : ArbiterFields)
  | arm (tag : Byte)
  | disarm (tag : Byte)
  | unknownKind (tag kind : Byte)
  -- reset
  | powerOnReset (lines : ResetLines)
  -- channel events
  | sampleEvent (channel : Fin 16) (code : BitVec 12)
  | warmupExpiry (channel : Fin 16)
  | holdLimitExpiry (channel : Fin 16)
  | recoverLimitExpiry (channel : Fin 16)
  | bumpTimerExpiry (channel : Fin 16)
  -- zone events
  | zoneHoldExpiry (zone : Fin 6)
  | lingerExpiry (zone : Fin 6)
  | eqzDebounce
  -- fan events
  | flowDebounce (fan : Fin 8)
  | provingExpiry (fan : Fin 8)
  | minRunExpiry (fan : Fin 8)
  | coastExpiry (fan : Fin 8)
  | retryExpiry (fan : Fin 8)
  | flowLossExpiry (fan : Fin 8)
  | manualTimerExpiry (fan : Fin 8)
  | exerciseRunExpiry (fan : Fin 8)
  | exerciseDue (fan : Fin 8)
  | flowNoteExpiry (fan : Fin 8)
  | flowClearExpiry (fan : Fin 8)
  -- arbiter events
  | historyAgeOut
  | spacingExpiry
  -- probe events
  | probeLineChange (probe : Fin 8) (resistance : LineResistance)
  | wetDebounceExpiry (probe : Fin 8)
  | dryDebounceExpiry (probe : Fin 8)
  | supervisionExpiry (probe : Fin 8)
  | recoveryExpiry (probe : Fin 8)
  -- other events
  | lampTestExpiry
  | failsafeTimerExpiry
  | slotFire (slot : Fin 8)
  | serviceDebounce
  -- link events
  | frameReceived
  | crcMismatch
  | badLengthByte
  | interbyteGap
  | framingFault
  | breakLine
  | frameSent
  | traceFrameSend
  -- time
  | millisecond (lines : Lines)
  | receivedByte (byte : Byte)
  deriving DecidableEq, Repr

/-- The kinds of R191's request table. -/
def requestKinds : List Byte :=
  [0x01, 0x02, 0x03, 0x04, 0x05, 0x06, 0x07, 0x08, 0x09, 0x0A, 0x10, 0x11, 0x12, 0x13, 0x14,
   0x20, 0x21, 0x22, 0x23, 0x24, 0x30, 0x31, 0x32, 0x33, 0x34, 0x40, 0x41, 0x42, 0x43,
   0x50, 0x51, 0x52, 0x53, 0x54, 0x55, 0x5E, 0x5F]

end Sys2Proof
end

