-- ==== Sys2Proof/Decode.lean ====
section
/-! DEFINITION. The opcode table gives no row any bits ("fields": [] throughout): the part takes commands, not words, and the
bytes of the serial link are read by Machine/Frames.lean. So no word spells a command. -/

namespace Sys2Proof

/-- The command a word spells by the opcode table's bits: the table gives none, so none. -/
def decodeTableWord (_nbits _w : Nat) : Option Instr := none

end Sys2Proof
end

