-- ==== Sys2Proof/Config.lean ====
section
/-! DEFINITION. What the spec leaves open: constants with no body, so that nothing can be proved of their values. -/

namespace Sys2Proof

/-- FREE VALUE (log entry 5). The order in which the takers of one event are taken, where the spec says that any
may come first (R45, R109, R165, R174). The argument counts the orders drawn so far; the list's entries are read as
places in `Machine.permute`, which turns any list of numbers into an order. -/
opaque Config.order : Nat → List Nat

/-- FREE VALUE (log entry 7). The fire time a STALE slot holds: R172 gives the fire time as that of a PENDING slot,
and R173 sets none for a STALE one. Arguments: the anchor and the repeat interval in seconds. -/
opaque Config.staleFireTime : Nat → Nat → BitVec 48

/-- FREE VALUE (log entry 8). The interval clock one millisecond after its limit of 2^48 - 1, which R167 says it does
not reach within the life of the part. -/
opaque Config.clockPastLimit : BitVec 48

/-- FREE VALUE (log entry 16). The 4 bytes that report a remaining time or an age of 2^32 seconds or more: R201 gives such a
field 4 bytes and does not say what they carry past their range. The argument is the number of seconds. -/
opaque Config.secondsPastRange : Nat → BitVec 32

end Sys2Proof
end

