-- ==== Sys2Proof/Machine/Arith.lean ====
section
/-! DEFINITION. Rounding, clamping and the byte codes of numbers (00_scope.md, Arithmetic and Rounding; R200, R201). -/

namespace Sys2Proof.Machine

/-- `a / d` to the nearest integer, ties away from zero: the default rounding of 00_scope.md. `d` is positive. -/
def roundAway (a : Int) (d : Nat) : Int :=
  if 0 ≤ a then (2 * a + d) / (2 * d) else -((2 * (-a) + d) / (2 * d))

/-- `a / d` to the nearest integer, ties toward zero: the rounding of the baseline step (R38). `d` is positive. -/
def roundToward (a : Int) (d : Nat) : Int :=
  if 0 ≤ a then (2 * a + d - 1) / (2 * d) else -((2 * (-a) + d - 1) / (2 * d))

/-- `x` held between `lo` and `hi`. -/
def clampInt (lo hi x : Int) : Int := if x < lo then lo else if hi < x then hi else x

/-- Whole seconds of the milliseconds from `now` to `expiry`, rounded up (R17). -/
def secondsLeft (now expiry : Nat) : Nat := (expiry - now + 999) / 1000

/-- Whole seconds of the milliseconds from `since` to `now`, rounded down (R97, R112). -/
def secondsSince (now since : Nat) : Nat := (now - since) / 1000

/-- The `n` low bytes of `v`, high byte first (R200). -/
def bytesBE : Nat → Nat → List Byte
  | 0, _ => []
  | n + 1, v => BitVec.ofNat 8 (v / 256 ^ n) :: bytesBE n v

/-- The `n` low bytes of `v` in two's complement, high byte first (R200). -/
def signedBE (n : Nat) (v : Int) : List Byte := bytesBE n (v % (256 ^ n : Nat)).toNat

/-- The number of a list of bytes, high byte first (R200). -/
def ofBytes : List Byte → Nat
  | [] => 0
  | b :: bs => b.toNat * 256 ^ bs.length + ofBytes bs

/-- The byte of a yes-or-no field (R201). -/
def yesNo (b : Bool) : List Byte := [if b then 1 else 0]

/-- A field of `n` bytes that may be absent, preceded by its presence byte (R201). -/
def optionalBE (n : Nat) : Option Nat → List Byte
  | some v => 1 :: bytesBE n v
  | none => 0 :: List.replicate n 0

/-- A signed field of `n` bytes that may be absent, preceded by its presence byte (R201). -/
def optionalSigned (n : Nat) : Option Int → List Byte
  | some v => 1 :: signedBE n v
  | none => 0 :: List.replicate n 0

/-- A remaining time or an age in seconds: 4 bytes (R201), a free value past their range (log entry 16). -/
def secondsBE (n : Nat) : List Byte :=
  if n < 2 ^ 32 then bytesBE 4 n else bytesBE 4 (Config.secondsPastRange n).toNat

/-- A remaining time or an age that may be absent, preceded by its presence byte (R201). -/
def optionalSeconds : Option Nat → List Byte
  | some n => 1 :: secondsBE n
  | none => 0 :: List.replicate 4 0

/-- The remaining time of a timer that may be stopped (R201). -/
def timerLeft (now : Nat) (t : Option Nat) : List Byte := optionalSeconds (t.map (secondsLeft now))

/-- A list of varying length: its count byte and its entries (R201). -/
def listBE (entries : List (List Byte)) : List Byte := BitVec.ofNat 8 entries.length :: entries.flatten

/-- One byte of the CRC-16 of R188: combine the byte into the upper eight bits, then shift left eight times. -/
def crcByte (crc : BitVec 16) (b : Byte) : BitVec 16 :=
  let shift := fun (c : BitVec 16) => if c.msb then (c <<< 1) ^^^ 0x1021#16 else c <<< 1
  shift (shift (shift (shift (shift (shift (shift (shift (crc ^^^ (b.setWidth 16 <<< 8)))))))))

/-- The CRC-16 of R188 over a list of bytes. -/
def crc16 (bytes : List Byte) : BitVec 16 := bytes.foldl crcByte 0xFFFF#16

/-- Insert into a list sorted by `before`. -/
def insertSorted {α : Type} (before : α → α → Bool) (x : α) : List α → List α
  | [] => [x]
  | y :: ys => if before x y then x :: y :: ys else y :: insertSorted before x ys

/-- Sort by `before`, a strict order that tells any two entries apart (R109, R137). -/
def sortBy {α : Type} (before : α → α → Bool) : List α → List α
  | [] => []
  | x :: xs => insertSorted before x (sortBy before xs)

/-- Put `x` at a place of `ys` counted modulo the places there are. -/
def insertPlace {α : Type} (place : Nat) (x : α) (ys : List α) : List α :=
  let at_ := place % (ys.length + 1)
  ys.take at_ ++ x :: ys.drop at_

/-- The order that a list of places gives: every list of numbers gives some order of `xs`, and every order of `xs` is given
by some list (log entry 5). -/
def permute {α : Type} : List Nat → List α → List α
  | _, [] => []
  | places, x :: xs => insertPlace (places.headD 0) x (permute places.tail xs)

end Sys2Proof.Machine
end

