-- ==== Sys2Proof/Machine/State.lean ====
section
/-! DEFINITION. The state of the VH8: every piece of state the spec gives the part, as plain data, and `State.reset`.

A timer is held as the instant of the interval clock at which it expires, `none` while it is stopped (R167); its remaining
time is the difference to the clock. A number the spec bounds is a `Nat` or an `Int`; the operations that write it keep the
bound. -/

namespace Sys2Proof.Machine

/-- A line conditioned by a debounce (R51, R71, R192): the line as last read, the debounced value, and the instant at which
the line will have shown the other level for the whole debounce time. -/
structure Conditioner where
  line : Bool
  debounced : Bool
  timer : Option Nat
  deriving DecidableEq, Repr

/-! ## Channels (Chapters 1, 2 and 8) -/

/-- The causes of a channel's FAULT, in the order of R2. -/
inductive FaultCause where
  | loopOpen | loopOver | drift | bumpFail | noRecovery
  deriving DecidableEq, Repr

/-- The channel states, in the order of R2; the cause is present in FAULT and in no other state. -/
inductive ChannelState where
  | off | warmup | tracking | hold | bump | recover
  | fault (cause : FaultCause)
  deriving DecidableEq, Repr

/-- The out-of-range direction (R2). -/
inductive LoopDir where
  | low | high
  deriving DecidableEq, Repr

/-- The marks of one channel flag (R14). -/
structure FlagMark where
  set : Bool
  seen : Bool
  deriving DecidableEq, Repr

/-- The five channel flags, in the order of R13 and R201. -/
inductive ChannelFlag where
  | sectionA | sectionB | negative | over | loopHold
  deriving DecidableEq, Repr

/-- The configuration fields of a channel (R1). -/
structure ChannelCfg where
  enabled : Bool
  zone : Option (Fin 6)
  profile : Fin 4
  window : Nat
  gain : Nat
  shift : Nat
  trackLimit : Nat
  cnu : Nat
  cnd : Nat
  cku : Nat
  ckd : Nat
  zeroBand : Nat
  warmup : Nat
  initialBaseline : Int
  bumpLevel : Nat
  bumpTime : Nat
  deriving DecidableEq, Repr

/-- The history of one filter section: two inputs and two outputs (R24). -/
structure Section where
  x1 : Int
  x2 : Int
  y1 : Int
  y2 : Int
  deriving DecidableEq, Repr

/-- A channel: its configuration (R1), its running state (R2), its pipeline record (R24) and its test context (R152). -/
structure Channel where
  cfg : ChannelCfg
  state : ChannelState
  lastCode : Option Nat
  lastValid : Option Int
  oorCount : Nat
  oorDir : LoopDir
  validRun : Nat
  preload : Bool
  timer : Option Nat
  flags : Vector FlagMark 5
  reading : Option Nat
  windowCompleted : Bool
  warmupWindow : Bool
  /-- the MODEL's own: the last instant at which this channel was sampled (R3; log entry 6) -/
  sampledAt : Option Nat
  secA : Section
  secB : Section
  windowSum : Int
  windowCount : Nat
  baseline : Int
  lastMean : Option Int
  excess : Option Int
  cRaw : Option Int
  bumpTimer : Option Nat
  bumpPeak : Option Nat
  armedSpan : Option Nat
  deriving DecidableEq, Repr

/-- The five coefficients of one section (R20). -/
structure Coefficients where
  b0 : Int
  b1 : Int
  b2 : Int
  a1 : Int
  a2 : Int
  deriving DecidableEq, Repr

/-- A filter profile (R20). -/
structure Profile where
  a : Coefficients
  b : Coefficients
  deriving DecidableEq, Repr

/-! ## Zones (Chapter 3) -/

inductive Vote where
  | max | second
  deriving DecidableEq, Repr

/-- A zone's view through its sensors (R46), in the order of R44. -/
inductive Sight where
  | seeing | degraded | paused | blind
  deriving DecidableEq, Repr

/-- The demand levels, lowest first (R54). -/
inductive Demand where
  | idle | base | boost | purge
  deriving DecidableEq, Repr

/-- The base floor of a zone (R42). -/
inductive BaseFloor where
  | idle | base
  deriving DecidableEq, Repr

/-- The configuration fields of a zone (R42). -/
structure ZoneCfg where
  vote : Vote
  order : List (Fin 8)
  needIdle : Nat
  needBase : Nat
  needBoost : Nat
  needPurge : Nat
  baseFloor : BaseFloor
  t1 : Nat
  t2 : Nat
  t3 : Nat
  hysteresis : Nat
  hold : Nat
  coupled : Bool
  linger : Nat
  deriving DecidableEq, Repr

/-- A zone: its configuration and its running fields (R44). -/
structure Zone where
  cfg : ZoneCfg
  active : Bool
  sight : Option Sight
  voted : Option Nat
  gas : Fin 4
  holdTimer : Option Nat
  coupling : Bool
  lingerTimer : Option Nat
  spill : Bool
  demand : Option Demand
  claims : List (Fin 8)
  shortfall : Bool
  deriving DecidableEq, Repr

/-! ## Fans and the start arbiter (Chapters 4 and 5) -/

inductive Rating where
  | sparkSafe | ordinary
  deriving DecidableEq, Repr

inductive LockCause where
  | manual | retries
  deriving DecidableEq, Repr

/-- The fan states, in the order of R68; the lockout cause is present in LOCKOUT and in no other state. -/
inductive FanState where
  | unmanaged | idle | waiting | proving | running | coasting | fault
  | lockout (cause : LockCause)
  deriving DecidableEq, Repr

/-- The last fault detail of a fan (R68). -/
inductive FanFault where
  | noProof | flowLost
  deriving DecidableEq, Repr

/-- The sources of claims, in the order of R68. -/
inductive Source where
  | zone (z : Fin 6)
  | manual
  | exercise
  deriving DecidableEq, Repr

/-- A claim set: at most one claim from each of eight sources (R72). -/
structure Claims where
  zones : Vector Bool 6
  manual : Bool
  exercise : Bool
  deriving DecidableEq, Repr

/-- The configuration fields of a fan (R67). -/
structure FanCfg where
  present : Bool
  rating : Rating
  proving : Nat
  lossTolerance : Nat
  minRun : Nat
  coast : Nat
  retries : Nat
  exInterval : Nat
  exDuration : Nat
  deriving DecidableEq, Repr

/-- A fan: its configuration, its run output (R70), its running fields (R68) and its FLOW line (R71). -/
structure Fan where
  cfg : FanCfg
  state : FanState
  output : Bool
  claims : Claims
  manualDuration : Option Nat
  manualTimer : Option Nat
  stopPending : Bool
  retriesLeft : Nat
  provingTimer : Option Nat
  minRunTimer : Option Nat
  coastTimer : Option Nat
  retryTimer : Option Nat
  flowLossTimer : Option Nat
  exerciseTimer : Option Nat
  minRunElapsed : Bool
  offTime : Option Nat
  exerciseDue : Option Nat
  exerciseOwed : Bool
  startCount : Nat
  lastFault : Option FanFault
  flow : Conditioner
  noteTimer : Option Nat
  clearTimer : Option Nat
  flowNote : Bool
  deriving DecidableEq, Repr

/-- The start arbiter (R101, R102). `waiting` holds each waiting fan's request time. -/
structure Arbiter where
  k : Nat
  w : Nat
  g : Nat
  history : List Nat
  spacing : Option Nat
  lastGrant : Option (Fin 8 × Nat)
  waiting : Vector (Option Nat) 8
  deriving DecidableEq, Repr

/-! ## Spill probes (Chapter 6) -/

/-- The condition of a PROBE line, in the order of R115's table. -/
inductive LineCond where
  | shorted | wet | dry | opened
  deriving DecidableEq, Repr

/-- The states of an evaluated probe, in the order of R117. -/
inductive ProbeState where
  | dry | wetPending | wet | drying | fault
  deriving DecidableEq, Repr

/-- The fault detail of a probe, in the order of R117. -/
inductive ProbeDetail where
  | opened | shorted
  deriving DecidableEq, Repr

/-- The configuration fields of a probe (R116). -/
structure ProbeCfg where
  present : Bool
  zone : Option (Fin 6)
  wetDebounce : Nat
  dryDebounce : Nat
  deriving DecidableEq, Repr

/-- A probe: its configuration, its line condition (R115) and its running fields (R117). -/
structure Probe where
  cfg : ProbeCfg
  line : LineCond
  state : Option ProbeState
  wetSince : Option Nat
  heldSpill : Bool
  detail : Option ProbeDetail
  debounceTimer : Option Nat
  supervisionTimer : Option Nat
  contribution : Bool
  deriving DecidableEq, Repr

/-! ## Alarm unit (Chapter 7) -/

/-- The alarm classes, in key order (R126). -/
inductive AlarmClass where
  | gas | blind | shortfall | channelFault | channelNote | spill | probeFault | fanFail | flowNote
  deriving DecidableEq, Repr

/-- A severity: 1 ADVISORY, 2 ALARM, 3 CRITICAL; 0 stands for a cleared record (R126). -/
abbrev Severity := Fin 4

/-- A condition image (R127). A value is held as the number R131 and R204 report: a reading, a count, a code, or a room
time. -/
structure Image where
  active : Bool
  severity : Severity
  value : Option Nat
  deriving DecidableEq, Repr

/-- The states of an alarm record (R128). -/
inductive RecordState where
  | activeUnack | activeAck | clearedUnack
  deriving DecidableEq, Repr

/-- An alarm record (R128); its key is its place in the table. -/
structure Record where
  state : RecordState
  severity : Severity
  peak : Severity
  raised : Nat
  cleared : Option Nat
  value : Option Nat
  repeats : Nat
  deriving DecidableEq, Repr

/-- The room's overall state, lowest first (R140). -/
inductive Regime where
  | normal | chargeVent | spill | gasAlarm | critical
  deriving DecidableEq, Repr

/-- The charger permit, least restrictive first (R142). -/
inductive Permit where
  | normal | holdFloat | reduce | disconnect
  deriving DecidableEq, Repr

/-- The alarm unit. `records` holds at most one record for each key (R128). -/
structure Alarm where
  images : Vector Image 82
  paused : Vector Bool 6
  eqz : Bool
  records : Vector (Option Record) 82
  maskChannelNote : Bool
  maskFlowNote : Bool
  version : BitVec 16
  regime : Regime
  permit : Permit
  lampTimer : Option Nat
  deriving DecidableEq, Repr

/-! ## Timebase and schedule table (Chapter 9) -/

inductive Sense where
  | fast | slow
  deriving DecidableEq, Repr

/-- The action of a slot with its target, duration or tag (R172). -/
inductive Action where
  | rotate (zone : Fin 6)
  | start (fan : Fin 8) (duration : Nat)
  | exercise (fan : Fin 8)
  | mark (tag : Byte)
  deriving DecidableEq, Repr

/-- A slot that is PENDING, or STALE where `stale` holds (R172). -/
structure Slot where
  stale : Bool
  anchor : Nat
  fire : Nat
  action : Action
  interval : Nat
  deriving DecidableEq, Repr

/-- The timebase (R167, R168) and the schedule table (R172), where `none` is a FREE slot. -/
structure Timebase where
  clock : Nat
  room : Nat
  acc : Nat
  rate : Nat
  sense : Sense
  slots : Vector (Option Slot) 8
  deriving DecidableEq, Repr

/-! ## Configuration unit (Chapter 10) -/

/-- The configuration unit (R178). In `straps`, `true` selects run. -/
structure Setup where
  armed : Bool
  straps : Vector Bool 8
  failsafeList : List (Fin 8)
  failsafeTimer : Option Nat
  failsafeMade : Vector Bool 8
  deriving DecidableEq, Repr

/-! ## Link controller (Chapter 11) -/

/-- Why a test was aborted, in the order of R203. -/
inductive AbortReason where
  | resume | loop | service
  deriving DecidableEq, Repr

/-- A test result with its figure (R166). -/
inductive TestResult where
  | spanPass (gain : Nat)
  | spanFail (excess : Int)
  | spanAborted (known : Nat)
  | bumpPass (reading : Nat)
  | bumpFail (peak : Option Nat)
  | testAborted (reason : AbortReason) (spanArmed : Bool)
  deriving DecidableEq, Repr

/-- Whether a slot's action was performed (R175). -/
inductive SlotOutcome where
  | performed | unarmed | notPresent | wrongState
  deriving DecidableEq, Repr

/-- What a notice reports: its kind, its source index and its value (R193, R203). -/
inductive NoticeBody where
  /-- the record's state and severity after the event, `none` for REMOVED (R139) -/
  | alarmChange (key : Fin 82) (after : Option (RecordState × Severity))
  | regimeChange (regime : Regime)
  | permitChange (permit : Permit)
  | zoneChange (zone : Fin 6) (sight : Option Sight) (gas : Fin 4) (demand : Option Demand) (shortfall : Bool)
  /-- the last fault detail is reported in FAULT alone (R96) -/
  | fanChange (fan : Fin 8) (state : FanState) (detail : Option FanFault)
  | channelChange (channel : Fin 16) (state : ChannelState)
  | testResult (channel : Fin 16) (result : TestResult)
  | scheduleFired (slot : Fin 8) (action : Action) (outcome : SlotOutcome) (jump : Bool)
  deriving DecidableEq, Repr

/-- A queued notice (R193). -/
structure Notice where
  time : Nat
  body : NoticeBody
  overflow : Bool
  deriving DecidableEq, Repr

/-- A trace record (R198). -/
structure TraceRecord where
  room : Nat
  channel : Fin 16
  mean : Int
  baseline : Int
  excess : Int
  cRaw : Int
  reading : Nat
  state : ChannelState
  flags : Vector Bool 5
  index : Fin 10
  coefficient : Int
  gap : Bool
  deriving DecidableEq, Repr

/-- A reply: its kind, its tag, and its payload from the status byte on (R190, R191). -/
structure Reply where
  kind : Byte
  tag : Byte
  payload : List Byte
  deriving DecidableEq, Repr

/-- A frame being received: the bytes after the sync byte in the order received, the instant of the latest byte, and
whether a request was outstanding when the sync byte arrived (R189, R190). -/
structure FrameIn where
  bytes : List Byte
  lastAt : Nat
  busyAtSync : Bool
  deriving DecidableEq, Repr

/-- The receiver (R189): hunting where `frame` is `none`; `ended` is a frame whose last CRC byte has been received and
which has not been checked yet. -/
structure Receiver where
  frame : Option FrameIn
  ended : Option FrameIn
  deriving DecidableEq, Repr

/-- The transmitter (R190, R199): free, sending the outstanding reply, or sending a trace frame. -/
inductive Transmitter where
  | free
  | reply
  | trace (record : TraceRecord)
  deriving DecidableEq, Repr

/-- The link controller. -/
structure Link where
  receiver : Receiver
  outstanding : Option Reply
  transmitter : Transmitter
  service : Conditioner
  notices : List Notice
  traceChannel : Option (Fin 16)
  traceIndex : Fin 10
  traceBuffer : Option TraceRecord
  deriving DecidableEq, Repr

/-! ## The whole part -/

/-- The state of the part, the queue of commands that wait for it, and the model's count of open orders drawn. -/
structure State where
  chans : Vector Channel 16
  profiles : Vector Profile 4
  zones : Vector Zone 6
  eqz : Conditioner
  fans : Vector Fan 8
  arb : Arbiter
  probes : Vector Probe 8
  alarm : Alarm
  time : Timebase
  setup : Setup
  link : Link
  /-- the commands that wait, oldest first -/
  pending : List Instr
  /-- the MODEL's own: how many open orders have been drawn (log entry 5) -/
  choices : Nat
  deriving DecidableEq, Repr

/-- No command of the part ends in a fault: every rule gives its event an effect or leaves the part as it was. So this type
has no constructor, and none of the outcomes below is a fault. -/
inductive Fault where
  deriving DecidableEq, Repr

/-- Why a command is refused. -/
inductive Refusal where
  /-- raised by `exec`'s arm of a command that has no meaning yet (none, at present); safe: nothing follows from it -/
  | notModelled (mnemonic : String)
  deriving DecidableEq, Repr

/-! ## Values after power-on reset -/

/-- A conditioned line that shows its inactive level and has been debounced inactive (R51, R71, R192; log entry 3). -/
def Conditioner.reset : Conditioner := { line := false, debounced := false, timer := none }

/-- The Reset column of R1. -/
def ChannelCfg.reset : ChannelCfg where
  enabled := false
  zone := none
  profile := 0
  window := 10
  gain := 1
  shift := 0
  trackLimit := 0
  cnu := 0
  cnd := 0
  cku := 0
  ckd := 0
  zeroBand := 0
  warmup := 0
  initialBaseline := 0
  bumpLevel := 50
  bumpTime := 10

/-- A section whose history is 0 throughout (R24). -/
def Section.reset : Section := { x1 := 0, x2 := 0, y1 := 0, y2 := 0 }

/-- A flag that is clear and unseen (R2). -/
def FlagMark.reset : FlagMark := { set := false, seen := false }

/-- The Reset columns of R2, R24 and R152. -/
def Channel.reset : Channel where
  cfg := .reset
  state := .off
  lastCode := none
  lastValid := none
  oorCount := 0
  oorDir := .low
  validRun := 0
  preload := false
  timer := none
  flags := .replicate 5 .reset
  reading := none
  windowCompleted := false
  warmupWindow := false
  sampledAt := none
  secA := .reset
  secB := .reset
  windowSum := 0
  windowCount := 0
  baseline := 0
  lastMean := none
  excess := none
  cRaw := none
  bumpTimer := none
  bumpPeak := none
  armedSpan := none

/-- The pass-through coefficients of R20. -/
def Coefficients.reset : Coefficients := { b0 := 4096, b1 := 0, b2 := 0, a1 := 0, a2 := 0 }

/-- The pass-through profile of R20. -/
def Profile.reset : Profile := { a := .reset, b := .reset }

/-- The Reset column of R42. -/
def ZoneCfg.reset : ZoneCfg where
  vote := .max
  order := []
  needIdle := 0
  needBase := 0
  needBoost := 0
  needPurge := 0
  baseFloor := .idle
  t1 := 100
  t2 := 250
  t3 := 400
  hysteresis := 20
  hold := 60
  coupled := false
  linger := 0

/-- A zone of the given configuration with its running fields at the Reset column of R44. -/
def Zone.inactive (cfg : ZoneCfg) : Zone where
  cfg := cfg
  active := false
  sight := none
  voted := none
  gas := 0
  holdTimer := none
  coupling := false
  lingerTimer := none
  spill := false
  demand := none
  claims := []
  shortfall := false

/-- The empty claim set (R72). -/
def Claims.empty : Claims := { zones := .replicate 6 false, manual := false, exercise := false }

/-- The Reset column of R67. -/
def FanCfg.reset : FanCfg where
  present := false
  rating := .ordinary
  proving := 30
  lossTolerance := 5
  minRun := 60
  coast := 30
  retries := 1
  exInterval := 0
  exDuration := 120

/-- The Reset column of R68, with the output off (R179). -/
def Fan.reset : Fan where
  cfg := .reset
  state := .unmanaged
  output := false
  claims := .empty
  manualDuration := none
  manualTimer := none
  stopPending := false
  retriesLeft := 0
  provingTimer := none
  minRunTimer := none
  coastTimer := none
  retryTimer := none
  flowLossTimer := none
  exerciseTimer := none
  minRunElapsed := false
  offTime := none
  exerciseDue := none
  exerciseOwed := false
  startCount := 0
  lastFault := none
  flow := .reset
  noteTimer := none
  clearTimer := none
  flowNote := false

/-- The settings of R101 and the Reset column of R102. -/
def Arbiter.reset : Arbiter where
  k := 2
  w := 30
  g := 3
  history := []
  spacing := none
  lastGrant := none
  waiting := .replicate 8 none

/-- The Reset column of R116. -/
def ProbeCfg.reset : ProbeCfg := { present := false, zone := none, wetDebounce := 5, dryDebounce := 60 }

/-- A probe that is not evaluated, with the given configuration and line condition: the Reset column of R117. -/
def Probe.absent (cfg : ProbeCfg) (line : LineCond) : Probe where
  cfg := cfg
  line := line
  state := none
  wetSince := none
  heldSpill := false
  detail := none
  debounceTimer := none
  supervisionTimer := none
  contribution := false

/-- An inactive image: severity 0 and value absent, as R127 says for power-on reset and DISARM. Of a clear R127 says only that the
condition becomes inactive; that its image is this one then too is the model's choice, log entry 26. -/
def Image.inactive : Image := { active := false, severity := 0, value := none }

/-- The alarm unit after power-on reset (R149). -/
def Alarm.reset : Alarm where
  images := .replicate 82 .inactive
  paused := .replicate 6 false
  eqz := false
  records := .replicate 82 none
  maskChannelNote := false
  maskFlowNote := false
  version := 0
  regime := .normal
  permit := .holdFloat
  lampTimer := none

/-- The clocks at 0 and every slot FREE (R167, R168, R172). -/
def Timebase.reset : Timebase where
  clock := 0
  room := 0
  acc := 0
  rate := 0
  sense := .fast
  slots := .replicate 8 none

/-- UNARMED with every strap selecting off and so an empty failsafe list (R178; log entry 3). -/
def Setup.reset : Setup where
  armed := false
  straps := .replicate 8 false
  failsafeList := []
  failsafeTimer := none
  failsafeMade := .replicate 8 false

/-- The link controller's reset values (Chapter 11's opening table, R189 to R199). -/
def Link.reset : Link where
  receiver := { frame := none, ended := none }
  outstanding := none
  transmitter := .free
  service := .reset
  notices := []
  traceChannel := none
  traceIndex := 0
  traceBuffer := none

/-- The part right after a power-on reset with every line at its inactive level, every PROBE line DRY and every strap
selecting off (R179; log entry 3), and no command waiting. -/
def State.reset : State where
  chans := .replicate 16 .reset
  profiles := .replicate 4 .reset
  zones := .replicate 6 (.inactive .reset)
  eqz := .reset
  fans := .replicate 8 .reset
  arb := .reset
  probes := .replicate 8 (.absent .reset .dry)
  alarm := .reset
  time := .reset
  setup := .reset
  link := .reset
  pending := []
  choices := 0

/-! ## Work in the middle of a step -/

/-- A hand-over from one block to another (R127, R141): an event of the block that takes it. -/
inductive Handover where
  /-- a condition of a channel, zone, fan or probe, to the alarm unit: the image it now has (R127) -/
  | condition (key : Fin 82) (image : Image)
  /-- a zone's paused image, to the alarm unit (R61, R127) -/
  | paused (zone : Fin 6) (yes : Bool)
  /-- the debounced EQZ, to the alarm unit (R51) -/
  | eqz (active : Bool)
  /-- a member's window completion or change of state, to its zone (R11, R45) -/
  | member (zone : Fin 6)
  /-- a change of the debounced EQZ, to a zone (R52) -/
  | coupling (zone : Fin 6) (active : Bool)
  /-- a change of a probe's spill contribution, to its zone (R53) -/
  | spill (zone : Fin 6)
  /-- the regime's entry to or exit from CRITICAL, to a zone (R141) -/
  | critical (zone : Fin 6)
  /-- a change of a fan's availability, to a zone (R84) -/
  | availability (zone : Fin 6)
  /-- a change of the regime, to the start arbiter (R141) -/
  | toArbiter
  /-- a change of the regime, to the fan controller; `fell` where it fell from GAS-ALARM or CRITICAL to below (R141) -/
  | toFans (fell : Bool)
  /-- a window completion, to the link controller (R32, R198) -/
  | completion (channel : Fin 16)
  deriving DecidableEq, Repr

/-- The part in the middle of a step: its state, and the hand-overs that have been made and not taken, oldest first. -/
structure Work where
  st : State
  out : List Handover
  deriving DecidableEq, Repr

end Sys2Proof.Machine
end

