-- ==== Sys2Proof/Machine/Ops.lean ====
section
/-! DEFINITION. The named operations every block uses: reading and writing a record, the notice queue, timers, the order of
several takers, hand-overs, and the reply to a request. -/

namespace Sys2Proof.Machine

/-! ## Tables -/

/-- The entry of a table at an index. -/
def vget {α : Type} {n : Nat} (v : Vector α n) (i : Fin n) : α := v[i.val]

/-- The table with one entry replaced. -/
def vset {α : Type} {n : Nat} (v : Vector α n) (i : Fin n) (x : α) : Vector α n := v.set i.val x i.isLt

def State.chan (s : State) (i : Fin 16) : Channel := vget s.chans i
def State.zone (s : State) (z : Fin 6) : Zone := vget s.zones z
def State.fan (s : State) (f : Fin 8) : Fan := vget s.fans f
def State.probe (s : State) (p : Fin 8) : Probe := vget s.probes p
def State.profile (s : State) (p : Fin 4) : Profile := vget s.profiles p
def State.slot (s : State) (k : Fin 8) : Option Slot := vget s.time.slots k

def State.setChan (s : State) (i : Fin 16) (c : Channel) : State := { s with chans := vset s.chans i c }
def State.setZone (s : State) (z : Fin 6) (r : Zone) : State := { s with zones := vset s.zones z r }
def State.setFan (s : State) (f : Fin 8) (r : Fan) : State := { s with fans := vset s.fans f r }
def State.setProbe (s : State) (p : Fin 8) (r : Probe) : State := { s with probes := vset s.probes p r }
def State.setProfile (s : State) (p : Fin 4) (r : Profile) : State := { s with profiles := vset s.profiles p r }
def State.setArb (s : State) (a : Arbiter) : State := { s with arb := a }
def State.setAlarm (s : State) (a : Alarm) : State := { s with alarm := a }
def State.setTime (s : State) (t : Timebase) : State := { s with time := t }
def State.setSetup (s : State) (c : Setup) : State := { s with setup := c }
def State.setLink (s : State) (l : Link) : State := { s with link := l }
def State.setSlot (s : State) (k : Fin 8) (r : Option Slot) : State :=
  s.setTime { s.time with slots := vset s.time.slots k r }

/-- The interval clock (R167). -/
def State.clock (s : State) : Nat := s.time.clock

/-- Room time (R168). -/
def State.room (s : State) : Nat := s.time.room

/-! ## Timers -/

/-- A timer started now with a duration in milliseconds. One started with 0 expires at its start, so it does not run
(R10, R75). -/
def startTimer (now duration : Nat) : Option Nat := if duration = 0 then none else some (now + duration)

/-- Whether a timer runs and its expiry is due: the clock has reached the instant it was started for (R167; log entry 1). -/
def due (now : Nat) : Option Nat → Bool
  | some t => t ≤ now
  | none => false

/-! ## The notice queue (R193) -/

/-- The newest notice takes the overflow mark. -/
def markNewest : List Notice → List Notice
  | [] => []
  | [n] => [{ n with overflow := true }]
  | n :: m :: rest => n :: markNewest (m :: rest)

/-- A notice is appended, or discarded with the overflow mark set on the newest when the queue holds 32 (R193). -/
def enqueue (queue : List Notice) (n : Notice) : List Notice :=
  if queue.length < 32 then queue ++ [n] else markNewest queue

/-- Queue a notice, stamped with room time (R193). -/
def State.notice (s : State) (b : NoticeBody) : State :=
  s.setLink { s.link with notices := enqueue s.link.notices { time := s.room, body := b, overflow := false } }

/-! ## Work in the middle of a step -/

/-- A step begins with no hand-over made. -/
def State.begin (s : State) : Work := { st := s, out := [] }

/-- Change the state. -/
def Work.map (w : Work) (f : State → State) : Work := { w with st := f w.st }

/-- Queue a notice in the middle of a step. -/
def Work.notice (w : Work) (b : NoticeBody) : Work := w.map fun s => s.notice b

/-- Queue several notices in order. -/
def Work.noticeAll (w : Work) (bs : List NoticeBody) : Work := bs.foldl Work.notice w

/-- Make a hand-over: it is taken after those already made (log entry 4). -/
def Work.post (w : Work) (h : Handover) : Work := { w with out := w.out ++ [h] }

/-- Make several hand-overs in order. -/
def Work.postAll (w : Work) (hs : List Handover) : Work := { w with out := w.out ++ hs }

/-- The takers of one event in the order they take it. Where there are several, the spec leaves the order open, and it is
drawn from the free value `Config.order` (log entry 5). -/
def inOpenOrder {α : Type} (draws : Nat) : List α → List α
  | [] => []
  | [x] => [x]
  | x :: y :: rest => permute (Config.order draws) (x :: y :: rest)

/-- How many orders an event with these takers draws. -/
def drawsFor {α : Type} : List α → Nat
  | [] => 0
  | [_] => 0
  | _ :: _ :: _ => 1

/-- Let each taker of one event take it, one after another, in an open order (log entry 5). -/
def Work.forEachOpen {α : Type} (w : Work) (takers : List α) (take : Work → α → Work) : Work :=
  (inOpenOrder w.st.choices takers).foldl take (w.map fun s => { s with choices := s.choices + drawsFor takers })

/-- The zones that are active (R43). -/
def State.activeZones (s : State) : List (Fin 6) := (List.finRange 6).filter fun z => (s.zone z).active

/-! ## Outputs that are views of the state -/

/-- ATTN is pulled low while the notice queue holds a notice (R195). -/
def State.attn (s : State) : Bool := !s.link.notices.isEmpty

/-- PERMIT1 is high in REDUCE and DISCONNECT (R143). -/
def State.permit1 (s : State) : Bool :=
  match s.alarm.permit with
  | .normal => false | .holdFloat => false | .reduce => true | .disconnect => true

/-- PERMIT0 is high in HOLD-FLOAT and DISCONNECT (R143). -/
def State.permit0 (s : State) : Bool :=
  match s.alarm.permit with
  | .normal => false | .holdFloat => true | .reduce => false | .disconnect => true

/-! ## Replies (R190, R191) -/

/-- The reply statuses, in the order of R191's table. -/
inductive Status where
  | ok | unknownKind | badLength | outOfRange | needsService | wrongState | inUse | invalidConfig | notPresent | tableFull
  | notPermitted
  deriving DecidableEq, Repr

/-- The status byte (R191). -/
def Status.code : Status → Byte
  | .ok => 0 | .unknownKind => 1 | .badLength => 2 | .outOfRange => 3 | .needsService => 4 | .wrongState => 5
  | .inUse => 6 | .invalidConfig => 7 | .notPresent => 8 | .tableFull => 9 | .notPermitted => 10

/-- The marks of a reply (R191). -/
structure Marks where
  clamped : Bool := false
  stillClaimed : Bool := false
  noClaim : Bool := false
  deriving DecidableEq, Repr

/-- The marks byte: CLAMPED in bit 0, STILL CLAIMED in bit 1, NO CLAIM in bit 2 (R191). -/
def Marks.code (m : Marks) : Byte :=
  (if m.clamped then 1 else 0) + (if m.stillClaimed then 2 else 0) + (if m.noClaim then 4 else 0)

/-- What a taken request leaves: the state, and the status, marks and fields of its reply (R191). -/
structure Answer where
  st : State
  status : Status
  marks : Marks := {}
  body : List Byte := []
  deriving DecidableEq, Repr

/-- A refused request changes nothing; its reply carries the fields its rule names for that refusal (R191). -/
def refuse (s : State) (status : Status) (body : List Byte := []) : Answer := { st := s, status := status, body := body }

/-- An accepted request. -/
def accept (s : State) (body : List Byte := []) : Answer := { st := s, status := .ok, body := body }

/-- The reply to a request of this kind and tag: kind plus 0x80, the same tag, the status byte, the marks byte, the
fields (R190, R191). -/
def Answer.reply (a : Answer) (kind tag : Byte) : Reply :=
  { kind := kind + 0x80, tag := tag, payload := a.status.code :: a.marks.code :: a.body }

/-- The reply is outstanding; it is sent as soon as the transmitter is free (R190). -/
def State.sendReply (s : State) (r : Reply) : State :=
  s.setLink { s.link with
    outstanding := some r
    transmitter := match s.link.transmitter with
      | .free => .reply
      | .reply => .reply
      | .trace t => .trace t }

/-- Take a request: it acts, and one reply is built from the state it leaves. While a request is outstanding no other is
taken (R190). -/
def takeRequest (kind tag : Byte) (act : State → Answer) (s : State) : State :=
  match s.link.outstanding with
  | some _ => s
  | none => (act s).st.sendReply ((act s).reply kind tag)

/-- A service request's first check: the debounced SERVICE is active when the request is taken (R192). -/
def State.serviceActive (s : State) : Bool := s.link.service.debounced

/-- A command's outcome: the part goes on. -/
def goOn (s : State) : Host.Outcome State Fault Refusal := .next s

end Sys2Proof.Machine
end

