-- ==== Sys2Proof/Machine/AlarmOps.lean ====
section
/-! DEFINITION. The alarm unit's shared operations: keys, the record rules, the regime, the permit, and the work it does at one
event (07_alarm_table_regime_and_room_outputs.md). -/

namespace Sys2Proof.Machine

/-! ## Keys (R126) -/

def keyGas (z : Fin 6) : Fin 82 := ⟨z.val, by omega⟩
def keyBlind (z : Fin 6) : Fin 82 := ⟨6 + z.val, by omega⟩
def keyShortfall (z : Fin 6) : Fin 82 := ⟨12 + z.val, by omega⟩
def keyChannelFault (i : Fin 16) : Fin 82 := ⟨18 + i.val, by omega⟩
def keyChannelNote (i : Fin 16) : Fin 82 := ⟨34 + i.val, by omega⟩
def keySpill (p : Fin 8) : Fin 82 := ⟨50 + p.val, by omega⟩
def keyProbeFault (p : Fin 8) : Fin 82 := ⟨58 + p.val, by omega⟩
def keyFanFail (f : Fin 8) : Fin 82 := ⟨66 + f.val, by omega⟩
def keyFlowNote (f : Fin 8) : Fin 82 := ⟨74 + f.val, by omega⟩

/-- The class of a key number (R126). -/
def classOf (k : Fin 82) : AlarmClass :=
  if k.val < 6 then .gas
  else if k.val < 12 then .blind
  else if k.val < 18 then .shortfall
  else if k.val < 34 then .channelFault
  else if k.val < 50 then .channelNote
  else if k.val < 58 then .spill
  else if k.val < 66 then .probeFault
  else if k.val < 74 then .fanFail
  else .flowNote

/-- CHANNEL NOTE and FLOW NOTE do not latch; every other class does (R126). -/
def AlarmClass.latching : AlarmClass → Bool
  | .gas => true | .blind => true | .shortfall => true | .channelFault => true | .channelNote => false
  | .spill => true | .probeFault => true | .fanFail => true | .flowNote => false

/-- Whether the mask set holds a class (R135). -/
def Alarm.masks (a : Alarm) : AlarmClass → Bool
  | .channelNote => a.maskChannelNote
  | .flowNote => a.maskFlowNote
  | .gas => false | .blind => false | .shortfall => false | .channelFault => false
  | .spill => false | .probeFault => false | .fanFail => false

def Alarm.image (a : Alarm) (k : Fin 82) : Image := vget a.images k
def Alarm.record (a : Alarm) (k : Fin 82) : Option Record := vget a.records k

/-- An active condition (R127). -/
def Image.raised (severity : Severity) (value : Option Nat) : Image :=
  { active := true, severity := severity, value := value }

/-! ## Records (R128 to R132) -/

/-- The greater of two readings of which either may be absent (R131). -/
def maxReading : Option Nat → Option Nat → Option Nat
  | none, v => v
  | some a, none => some a
  | some a, some b => some (max a b)

/-- The value of a record at a rise, from the value it had and the value handed over (R131). -/
def valueAtRise (c : AlarmClass) (old new : Option Nat) : Option Nat :=
  match c with
  | .gas => maxReading old new
  | .shortfall => new | .channelFault => new | .spill => new | .probeFault => new | .fanFail => new
  | .blind => none | .channelNote => none | .flowNote => none

/-- The value of a record at a value change of its active condition (R131). -/
def valueAtChange (c : AlarmClass) (old new : Option Nat) : Option Nat :=
  match c with
  | .gas => maxReading old new
  | .shortfall => new | .channelFault => new | .fanFail => new
  | .spill => old | .probeFault => old
  | .blind => none | .channelNote => none | .flowNote => none

/-- A record created by a rise (R129). -/
def Record.created (c : AlarmClass) (room : Nat) (image : Image) : Record where
  state := .activeUnack
  severity := image.severity
  peak := image.severity
  raised := room
  cleared := none
  value := valueAtRise c none image.value
  repeats := 0

/-- A rise of an unmasked key (R129). -/
def recordAtRise (c : AlarmClass) (room : Nat) (image : Image) : Option Record → Option Record
  | none => some (Record.created c room image)
  | some r =>
    match r.state with
    | .clearedUnack => some { r with
        state := .activeUnack
        severity := image.severity
        peak := max r.peak image.severity
        cleared := none
        value := valueAtRise c r.value image.value
        repeats := min 255 (r.repeats + 1) }
    | .activeUnack => some r
    | .activeAck => some r

/-- A severity change, a value change, or both, of an unmasked active key (R130, R131). -/
def recordAtChange (c : AlarmClass) (image : Image) : Option Record → Option Record
  | none => none
  | some r =>
    let valued := { r with value := valueAtChange c r.value image.value }
    if image.severity = r.severity then some valued
    else if r.peak < image.severity then
      some { valued with severity := image.severity, peak := image.severity, state := .activeUnack }
    else some { valued with severity := image.severity }

/-- A clear of an unmasked key (R132). -/
def recordAtClear (c : AlarmClass) (room : Nat) : Option Record → Option Record
  | none => none
  | some r =>
    if c.latching then
      match r.state with
      | .activeUnack => some { r with state := .clearedUnack, severity := 0, cleared := some room }
      | .activeAck => none
      | .clearedUnack => some r
    else none

/-- The record after a hand-over that takes the image of its key from `before` to `after` (R129 to R132, R136). -/
def recordAfter (c : AlarmClass) (masked : Bool) (room : Nat) (before after : Image) (r : Option Record) :
    Option Record :=
  if masked then r
  else match before.active, after.active with
    | false, true => recordAtRise c room after r
    | true, true => recordAtChange c after r
    | true, false => recordAtClear c room r
    | false, false => r

/-- The ALARM CHANGE notice of a hand-over: queued where it creates, changes the state or severity of, or removes a
record (R139). -/
def alarmNotice (k : Fin 82) (before after : Option Record) : List NoticeBody :=
  match before, after with
  | none, none => []
  | some _, none => [.alarmChange k none]
  | none, some r => [.alarmChange k (some (r.state, r.severity))]
  | some b, some r =>
    if b.state = r.state ∧ b.severity = r.severity then [] else [.alarmChange k (some (r.state, r.severity))]

/-! ## Regime and permit (R140 to R143) -/

/-- The regime derived from the condition images and the debounced EQZ (R140). -/
def regimeOf (a : Alarm) : Regime :=
  if (List.finRange 6).any fun z => (a.image (keyGas z)).active && (a.image (keyGas z)).severity == 3 then .critical
  else if (List.finRange 6).any fun z =>
      (a.image (keyGas z)).active && (a.image (keyGas z)).severity == 2 || (a.image (keyBlind z)).active then .gasAlarm
  else if (List.finRange 8).any fun p => (a.image (keySpill p)).active then .spill
  else if a.eqz then .chargeVent
  else .normal

/-- Whether a record of one of these keys satisfies a test. -/
def Alarm.anyRecord {n : Nat} (a : Alarm) (key : Fin n → Fin 82) (test : Record → Bool) : Bool :=
  (List.finRange n).any fun i => (a.record (key i)).any test

/-- The most restrictive restriction that applies (R142). -/
def permitOf (a : Alarm) (armed : Bool) : Permit :=
  if a.anyRecord keyGas (fun r => r.peak == 3) then .disconnect
  else if a.anyRecord keyGas (fun r => r.peak == 2) || a.anyRecord keyBlind (fun _ => true) then .reduce
  else if a.anyRecord keyGas (fun r => r.peak == 1) || a.anyRecord keyShortfall (fun _ => true)
      || a.anyRecord keySpill (fun _ => true) || (List.finRange 6).any (fun z => vget a.paused z) || !armed then .holdFloat
  else .normal

/-- GAS-ALARM and CRITICAL withhold owed exercises and light ENTRY (R91, R146). -/
def Regime.alarming : Regime → Bool
  | .normal => false | .chargeVent => false | .spill => false | .gasAlarm => true | .critical => true

/-- The hand-overs of a change of the regime: to every active zone where CRITICAL is entered or left, to the start arbiter,
and to the fan controller (R141), in the order in which R141 and R148 list them (log entry 4). -/
def Work.handRegime (w : Work) (old new : Regime) : Work :=
  let crossed := decide (old = .critical) != decide (new = .critical)
  let zones := if crossed then w.st.activeZones else []
  ((w.forEachOpen zones fun w z => w.post (.critical z)).post .toArbiter).post
    (.toFans (old.alarming && !new.alarming))

/-- What follows at each event of the alarm unit, once the images and the records are set: the table version moves where a
record was created, changed or removed, the regime and then the permit are recomputed, the notices are queued in the order
ALARM CHANGE, REGIME CHANGE, PERMIT CHANGE, and the regime's hand-overs follow (R138, R148). HORN, BEACON and ENTRY are views
of what is set here. -/
def Work.alarmPass (w : Work) (changed : Bool) (notes : List NoticeBody) : Work :=
  let a := w.st.alarm
  let regime := regimeOf a
  let permit := permitOf a w.st.setup.armed
  let after := { a with
    regime := regime
    permit := permit
    version := if changed then a.version + 1 else a.version }
  let noted := (w.map fun s => s.setAlarm after).noticeAll
    (notes ++ (if regime = a.regime then [] else [.regimeChange regime])
      ++ (if permit = a.permit then [] else [.permitChange permit]))
  if regime = a.regime then noted else noted.handRegime a.regime regime

/-- The alarm unit takes a hand-over of a condition (R127, R148). -/
def Work.takeCondition (w : Work) (k : Fin 82) (image : Image) : Work :=
  let a := w.st.alarm
  let record := recordAfter (classOf k) (a.masks (classOf k)) w.st.room (a.image k) image (a.record k)
  (w.map fun s => s.setAlarm { a with images := vset a.images k image, records := vset a.records k record }).alarmPass
    (decide (record ≠ a.record k)) (alarmNotice k (a.record k) record)

/-- The alarm unit takes a zone's paused image (R127, R148). -/
def Work.takePaused (w : Work) (z : Fin 6) (yes : Bool) : Work :=
  (w.map fun s => s.setAlarm { s.alarm with paused := vset s.alarm.paused z yes }).alarmPass false []

/-- The alarm unit takes the debounced EQZ (R127, R140). -/
def Work.takeEqz (w : Work) (active : Bool) : Work :=
  (w.map fun s => s.setAlarm { s.alarm with eqz := active }).alarmPass false []

/-! ## Room outputs (R144 to R147) -/

/-- Whether any record of the table satisfies a test. -/
def Alarm.anyOf (a : Alarm) (test : Record → Bool) : Bool := a.anyRecord id test

/-- HORN's computed value (R144). -/
def Alarm.hornOn (a : Alarm) : Bool :=
  a.anyOf fun r => (r.state == .activeUnack || r.state == .clearedUnack) && 2 ≤ r.peak

/-- BEACON's computed value (R145). -/
def Alarm.beaconOn (a : Alarm) : Bool :=
  a.anyOf fun r => (r.state == .activeUnack || r.state == .activeAck) && 2 ≤ r.severity

/-- ENTRY's computed value (R146). -/
def State.entryOn (s : State) : Bool := s.alarm.regime.alarming || !s.setup.armed

/-- HORN, BEACON and ENTRY as driven: on while the lamp-test timer runs (R147). -/
def State.horn (s : State) : Bool := s.alarm.lampTimer.isSome || s.alarm.hornOn
def State.beacon (s : State) : Bool := s.alarm.lampTimer.isSome || s.alarm.beaconOn
def State.entry (s : State) : Bool := s.alarm.lampTimer.isSome || s.entryOn

/-! ## Report order (R137) -/

/-- The severity a record reports: its peak once cleared (R137). -/
def Record.reporting (r : Record) : Severity :=
  match r.state with
  | .clearedUnack => r.peak
  | .activeUnack => r.severity
  | .activeAck => r.severity

/-- Report order: reporting severity, highest first, then raised time, then key number (R137). -/
def reportsBefore (x y : Fin 82 × Record) : Bool :=
  if x.2.reporting = y.2.reporting then
    if x.2.raised = y.2.raised then x.1 < y.1 else x.2.raised < y.2.raised
  else y.2.reporting < x.2.reporting

/-- The records of the table with their keys, in key order. -/
def Alarm.table (a : Alarm) : List (Fin 82 × Record) :=
  (List.finRange 82).filterMap fun k => (a.record k).map fun r => (k, r)

/-- The records in report order (R137); its head is the lead alarm. -/
def Alarm.report (a : Alarm) : List (Fin 82 × Record) := sortBy reportsBefore a.table

end Sys2Proof.Machine
end

