-- ==== Sys2Proof/Machine/Flags.lean ====
section
/-! DEFINITION. The channel flags: occurrence, the seen marks, clearing, and the CHANNEL NOTE condition (R13 to R16). -/

namespace Sys2Proof.Machine

/-- A flag's position (R201). -/
def ChannelFlag.position : ChannelFlag → Fin 5
  | .sectionA => 0 | .sectionB => 1 | .negative => 2 | .over => 3 | .loopHold => 4

/-- Any flag is set: CHANNEL NOTE is active (R16). -/
def Channel.noted (c : Channel) : Bool := (List.finRange 5).any fun k => (vget c.flags k).set

/-- An occurrence sets the set mark and clears the seen mark (R14). -/
def Channel.occur (c : Channel) (flag : ChannelFlag) : Channel :=
  { c with flags := vset c.flags flag.position { set := true, seen := false } }

/-- READ CHANNEL sets the seen mark of every flag that is set (R14). -/
def FlagMark.read (m : FlagMark) : FlagMark := { m with seen := m.seen || m.set }

/-- CLEAR FLAGS clears a listed flag that is both set and seen (R15). -/
def FlagMark.clearSeen (m : FlagMark) : FlagMark := if m.set && m.seen then .reset else m

/-- A channel takes a new record; CHANNEL NOTE is handed to the alarm unit where it changes (R16). That it goes before the event's
other hand-overs, CHANNEL FAULT and the zone's re-evaluation, is the model's choice, log entry 4. -/
def Work.putChannel (w : Work) (i : Fin 16) (c : Channel) : Work :=
  let before := w.st.chan i
  let put := w.map fun s => s.setChan i c
  if before.noted = c.noted then put
  else put.post (.condition (keyChannelNote i) (if c.noted then .raised 1 none else .inactive))

/-- A flag occurs where a test holds (R13). -/
def Channel.occurIf (c : Channel) (test : Bool) (flag : ChannelFlag) : Channel := if test then c.occur flag else c

end Sys2Proof.Machine
end

