-- ==== Sys2Proof/Machine/Pipeline.lean ====
section
/-! DEFINITION. The arithmetic of the estimation pipeline (02_the_estimation_pipeline.md): the section step, the window, the
excess and concentration, and the baseline step. -/

namespace Sys2Proof.Machine

/-! ## The section step (R25 to R27) -/

/-- A section's accumulator, exact (R25). -/
def Section.accumulate (h : Section) (k : Coefficients) (x : Int) : Int :=
  k.b0 * x + k.b1 * h.x1 + k.b2 * h.x2 - k.a1 * h.y1 - k.a2 * h.y2

/-- The accumulator divided by 4096 and rounded, before saturation (R26). -/
def Section.quotient (h : Section) (k : Coefficients) (x : Int) : Int := roundAway (h.accumulate k x) 4096

/-- A section's output, held between -32768 and 32767 (R26). -/
def Section.output (h : Section) (k : Coefficients) (x : Int) : Int := clampInt (-32768) 32767 (h.quotient k x)

/-- The section saturates at this step (R26). -/
def Section.saturates (h : Section) (k : Coefficients) (x : Int) : Bool := decide (h.output k x ≠ h.quotient k x)

/-- The history after a step with input `x` and output `y` (R27). -/
def Section.shift (h : Section) (x y : Int) : Section := { x1 := x, x2 := h.x1, y1 := y, y2 := h.y1 }

/-- A history preloaded with a value in all four terms (R7). -/
def Section.preloaded (s : Int) : Section := { x1 := s, x2 := s, y1 := s, y2 := s }

/-- Preload: both sections' histories take the value, and preload pending becomes no (R7). -/
def Channel.preloadWith (c : Channel) (s : Int) : Channel :=
  { c with secA := .preloaded s, secB := .preloaded s, preload := false }

/-- Section A's output at a sample step (R25, R26). -/
def Channel.outputA (c : Channel) (p : Profile) (s : Int) : Int := c.secA.output p.a s

/-- The filter output f of a sample step: section B's output, with section A's as its input (R25 to R27). -/
def Channel.outputB (c : Channel) (p : Profile) (s : Int) : Int := c.secB.output p.b (c.outputA p s)

/-- A sample step: both sections step and shift, and f is added to the window (R25 to R28). -/
def Channel.stepFilter (c : Channel) (p : Profile) (s : Int) : Channel :=
  { c with
    secA := c.secA.shift s (c.outputA p s)
    secB := c.secB.shift (c.outputA p s) (c.outputB p s)
    windowSum := c.windowSum + c.outputB p s
    windowCount := c.windowCount + 1 }

/-! ## Window completion (R29, R31, R33 to R35) -/

/-- The mean of a complete window (R29). -/
def Channel.windowMean (c : Channel) : Int := roundAway c.windowSum c.cfg.window

/-- The baseline in whole filtered units (R33). -/
def wholeBaseline (b : Int) : Int := roundAway b 256

/-- The excess of a mean over the baseline (R33). -/
def Channel.excessOf (c : Channel) (m : Int) : Int := m - wholeBaseline c.baseline

/-- The raw concentration of an excess (R34). -/
def Channel.concentration (c : Channel) (e : Int) : Int := roundAway (e * c.cfg.gain) (2 ^ c.cfg.shift)

/-- The reading: c_raw clamped into 0 to 1000 (R35). -/
def readingOf (cRaw : Int) : Nat := (clampInt 0 1000 cRaw).toNat

/-- The results of a completion, and the empty window after it (R28, R31). -/
def Channel.completeWindow (c : Channel) : Channel :=
  let m := c.windowMean
  let e := c.excessOf m
  let raw := c.concentration e
  { c with
    lastMean := some m
    excess := some e
    cRaw := some raw
    reading := some (readingOf raw)
    windowCompleted := true
    warmupWindow := true
    windowSum := 0
    windowCount := 0 }

/-! ## Baseline tracking (R37 to R39) -/

/-- The coefficient of the baseline step (R37). -/
def ChannelCfg.trackCoefficient (k : ChannelCfg) (cRaw delta : Int) : Nat :=
  if (k.trackLimit : Int) ≤ cRaw then (if 0 < delta then k.cku else k.ckd)
  else (if 0 < delta then k.cnu else k.cnd)

/-- The step added to a baseline at a completion with mean `m` (R37, R38). -/
def ChannelCfg.baselineStep (k : ChannelCfg) (baseline m cRaw : Int) : Int :=
  let delta := 256 * m - baseline
  roundToward (k.trackCoefficient cRaw delta * delta) 65536

/-- The baseline lies outside the zero band (R39). -/
def Channel.drifted (c : Channel) : Bool := decide ((c.cfg.zeroBand * 256 : Int) < |c.baseline|)

/-- The baseline step of a completion in TRACKING (R37, R38). -/
def Channel.trackBaseline (c : Channel) (m cRaw : Int) : Channel :=
  { c with baseline := c.baseline + c.cfg.baselineStep c.baseline m cRaw }

/-! ## Span (R159) -/

/-- The candidate gain of a span of known concentration with excess `e`: it passes where e is greater than 0 and the
candidate lies in 1 to 65535 (R159). -/
def spanGain (known shift : Nat) (e : Int) : Option Nat :=
  if 0 < e then
    let candidate := (roundAway (known * 2 ^ shift : Nat) e.toNat).toNat
    if 1 ≤ candidate ∧ candidate ≤ 65535 then some candidate else none
  else none

end Sys2Proof.Machine
end

