-- ==== Sys2Proof/Machine/FanOps.lean ====
section
/-! DEFINITION. The fan controller's and the start arbiter's shared operations: availability, changes of state, claim sets,
the run output, and the grant (04_fan_control.md, 05_start_arbitration.md). -/

namespace Sys2Proof.Machine

/-! ## Claim sets (R72) -/

def Claims.has (c : Claims) : Source → Bool
  | .zone z => vget c.zones z
  | .manual => c.manual
  | .exercise => c.exercise

def Claims.add (c : Claims) : Source → Claims
  | .zone z => { c with zones := vset c.zones z true }
  | .manual => { c with manual := true }
  | .exercise => { c with exercise := true }

def Claims.remove (c : Claims) : Source → Claims
  | .zone z => { c with zones := vset c.zones z false }
  | .manual => { c with manual := false }
  | .exercise => { c with exercise := false }

/-- Whether any zone claims the fan. -/
def Claims.anyZone (c : Claims) : Bool := (List.finRange 6).any fun z => vget c.zones z

/-- The claim set is empty. -/
def Claims.none_ (c : Claims) : Bool := !c.anyZone && !c.manual && !c.exercise

/-! ## Availability and conditions -/

/-- Whether a fan is available to a zone while the regime is as given (R56). -/
def Fan.available (f : Fan) (regime : Regime) : Bool :=
  let restricted := decide (regime = .critical) && decide (f.cfg.rating = .ordinary)
  f.cfg.present && match f.state with
    | .proving => true
    | .running => true
    | .idle => !restricted
    | .waiting => !restricted
    | .coasting => !restricted
    | .unmanaged => false
    | .fault => false
    | .lockout _ => false

/-- FAN FAIL is active in FAULT and in LOCKOUT with cause RETRIES (R94). -/
def Fan.failed (f : Fan) : Bool :=
  match f.state with
  | .fault => true
  | .lockout .retries => true
  | .lockout .manual => false
  | .unmanaged => false | .idle => false | .waiting => false | .proving => false | .running => false | .coasting => false

/-- The code of a fault detail (R200). -/
def FanFault.code : FanFault → Nat
  | .noProof => 0 | .flowLost => 1

/-- FAN FAIL's image while active: severity ALARM, value the last fault detail (R94). -/
def Fan.failImage (f : Fan) : Image := .raised 2 (f.lastFault.map FanFault.code)

/-- The fan is managed: in any state but UNMANAGED. -/
def Fan.managed (f : Fan) : Bool := decide (f.state ≠ .unmanaged)

/-- The fan is in IDLE or LOCKOUT, where airflow is not expected (R95). -/
def Fan.still (f : Fan) : Bool :=
  match f.state with
  | .idle => true
  | .lockout _ => true
  | .unmanaged => false | .waiting => false | .proving => false | .running => false | .coasting => false | .fault => false

/-- The flow-note timer measures while the fan is in IDLE or LOCKOUT and its debounced flow is present (R95). -/
def Fan.measuresNote (f : Fan) : Bool := f.still && f.flow.debounced

/-- The flow-clear timer measures while FLOW NOTE is active and the debounced flow is absent, in a managed state (R95). -/
def Fan.measuresClear (f : Fan) : Bool := f.flowNote && !f.flow.debounced && f.managed

/-- A measuring timer over a change of the record: it starts where its condition begins to hold, runs on while it holds, and
stops with its time discarded where it ceases. -/
def measure (was is : Bool) (running : Option Nat) (start : Option Nat) : Option Nat :=
  if is then (if was then running else start) else none

/-- The FLOW NOTE measurements over a change of the fan's record (R95). -/
def Fan.remeasure (after before : Fan) (clock : Nat) : Fan :=
  { after with
    noteTimer := measure before.measuresNote after.measuresNote after.noteTimer (startTimer clock (seconds 10))
    clearTimer := measure before.measuresClear after.measuresClear after.clearTimer (startTimer clock (seconds 10)) }

/-! ## Writing a fan -/

/-- The last fault detail is reported in FAULT alone (R96). -/
def Fan.reportedDetail (f : Fan) : Option FanFault :=
  match f.state with
  | .fault => f.lastFault
  | .unmanaged => none | .idle => none | .waiting => none | .proving => none | .running => none | .coasting => none
  | .lockout _ => none

/-- The zones whose fan order holds a fan and that are active (R84). -/
def State.zonesUsing (s : State) (i : Fin 8) : List (Fin 6) := s.activeZones.filter fun z => (s.zone z).cfg.order.contains i

/-- A condition handed over where it changes: `now` is its image while active (R127). -/
def Work.handCondition (w : Work) (k : Fin 82) (was is : Bool) (now : Image) : Work :=
  if was = is then w else w.post (.condition k (if is then now else .inactive))

/-- A fan takes a new record. Where its state changes, one FAN CHANGE notice is queued (R96); FAN FAIL and FLOW NOTE are
handed to the alarm unit where they change (R94, R95), and a change of its availability to every active zone whose order
holds it (R84). R84 and R94 to R96 put both after the state change, and R148 gives them no order between each other: that FAN FAIL
goes first, then FLOW NOTE, then the availability, and that the FAN CHANGE notice is queued before the notices that they lead to, is
the model's choice, log entry 4; it decides the order of the ALARM CHANGE and ZONE CHANGE notices. -/
def Work.moveFan (w : Work) (i : Fin 8) (f : Fan) : Work :=
  let before := w.st.fan i
  let after := f.remeasure before w.st.clock
  let regime := w.st.alarm.regime
  let put := w.map fun s => s.setFan i after
  let noted := if after.state = before.state then put else put.notice (.fanChange i after.state after.reportedDetail)
  let handed := (noted.handCondition (keyFanFail i) before.failed after.failed after.failImage).handCondition
    (keyFlowNote i) before.flowNote after.flowNote (.raised 1 none)
  if before.available regime = after.available regime then handed
  else handed.forEachOpen (w.st.zonesUsing i) fun w z => w.post (.availability z)

/-! ## The run output (R70) -/

/-- The output turns off, and the time of output off is set where it was on (R70). -/
def Fan.turnOff (f : Fan) (clock : Nat) : Fan :=
  { f with output := false, offTime := if f.output then some clock else f.offTime }

/-- The start count, saturating at 65535 (R70). -/
def countStart (n : Nat) : Nat := min 65535 (n + 1)

/-- Every timer that a state runs for itself stops (R69); FLOW NOTE's measurements follow R95 (`Fan.remeasure`). -/
def Fan.stopTimers (f : Fan) : Fan :=
  { f with
    manualTimer := none
    provingTimer := none
    minRunTimer := none
    coastTimer := none
    retryTimer := none
    flowLossTimer := none
    exerciseTimer := none }

/-! ## Proving, running, coasting (R75 to R79) -/

/-- The exercise due time set at an instant: the interval later, or absent for an interval of 0 (R90). -/
def Fan.nextExercise (f : Fan) (clock : Nat) : Option Nat := startTimer clock (hours f.cfg.exInterval)

/-- The record of a fan that enters RUNNING (R76). -/
def Fan.running (f : Fan) (clock : Nat) : Fan :=
  { f with
    state := .running
    provingTimer := none
    retriesLeft := f.cfg.retries
    exerciseDue := f.nextExercise clock
    exerciseOwed := false
    manualTimer := if f.claims.manual then f.manualDuration.bind (fun d => startTimer clock (seconds d)) else none
    exerciseTimer := if f.claims.exercise then startTimer clock (seconds f.cfg.exDuration) else none }

/-- The record of a fan that enters PROVING (R75). The output is on, so any FLOW NOTE becomes inactive (R95). -/
def Fan.proving (f : Fan) (clock : Nat) : Fan :=
  { f with
    state := .proving
    output := true
    provingTimer := startTimer clock (seconds f.cfg.proving)
    minRunTimer := startTimer clock (seconds f.cfg.minRun)
    minRunElapsed := f.cfg.minRun == 0
    stopPending := false
    coastTimer := none
    retryTimer := none
    flowNote := false }

/-- The record of a fan that enters COASTING with the output turning off (R79). -/
def Fan.coasting (f : Fan) (clock : Nat) : Fan :=
  { (f.turnOff clock).stopTimers with
    state := .coasting
    coastTimer := startTimer clock (seconds f.cfg.coast)
    stopPending := false }

/-- The record of a fan that enters FAULT (R81). -/
def Fan.faulted (f : Fan) (clock : Nat) (detail : FanFault) : Fan :=
  { (f.turnOff clock).stopTimers with
    state := .fault
    lastFault := some detail
    claims := .empty
    manualDuration := none
    stopPending := false
    retryTimer := startTimer clock (seconds f.cfg.coast) }

/-- The record of a fan that enters LOCKOUT (R82, R88). -/
def Fan.locked (f : Fan) (clock : Nat) (cause : LockCause) : Fan :=
  { (f.turnOff clock).stopTimers with
    state := .lockout cause
    claims := .empty
    manualDuration := none
    stopPending := false }

/-- A fan enters RUNNING (R76). -/
def Work.enterRunning (w : Work) (i : Fin 8) : Work := w.moveFan i ((w.st.fan i).running w.st.clock)

/-- A fan enters PROVING, and RUNNING at once where its debounced flow is present (R75). -/
def Work.enterProving (w : Work) (i : Fin 8) : Work :=
  let proving := w.moveFan i ((w.st.fan i).proving w.st.clock)
  if (w.st.fan i).flow.debounced then proving.enterRunning i else proving

/-- A fan enters COASTING (R79). -/
def Work.enterCoasting (w : Work) (i : Fin 8) : Work := w.moveFan i ((w.st.fan i).coasting w.st.clock)

/-- The claim set of a proving or running fan is empty: stop-pending before min-run, COASTING after (R77). -/
def Work.stopOrCoast (w : Work) (i : Fin 8) : Work :=
  if (w.st.fan i).minRunElapsed then w.enterCoasting i
  else w.map fun s => s.setFan i { s.fan i with stopPending := true }

/-! ## The start arbiter (R101 to R111) -/

/-- The class of a waiting fan, by rank: 0 URGENT, 1 DEMAND, 2 MANUAL, 3 EXERCISE (R106). -/
def State.classRank (s : State) (i : Fin 8) : Fin 4 :=
  let c := (s.fan i).claims
  if s.alarm.regime = .critical then 0
  else if (List.finRange 6).any fun z => vget c.zones z && decide ((s.zone z).demand = some .purge) then 0
  else if c.anyZone then 1
  else if c.manual then 2
  else 3

/-- An ORDINARY fan is inhibited while the regime is CRITICAL (R107). -/
def State.inhibited (s : State) (i : Fin 8) : Bool :=
  decide (s.alarm.regime = .critical) && decide ((s.fan i).cfg.rating = .ordinary)

/-- The request time of a fan in the waiting set (R105). -/
def State.requestTime (s : State) (i : Fin 8) : Option Nat := vget s.arb.waiting i

/-- The fans in the waiting set. -/
def State.waitingFans (s : State) : List (Fin 8) := (List.finRange 8).filter fun i => (s.requestTime i).isSome

/-- Grant order: class, then request time, then fan number (R109). -/
def State.grantsBefore (s : State) (i j : Fin 8) : Bool :=
  if s.classRank i = s.classRank j then
    let ti := (s.requestTime i).getD 0
    let tj := (s.requestTime j).getD 0
    if ti = tj then i < j else ti < tj
  else s.classRank i < s.classRank j

/-- The waiting fans in grant order, inhibited ones among them (R112). -/
def State.grantOrder (s : State) : List (Fin 8) := sortBy s.grantsBefore s.waitingFans

/-- The fan a consideration grants: the budget is open, no spacing runs, and the first eligible fan in grant order is it
(R109). -/
def State.grantChoice (s : State) : Option (Fin 8) :=
  if s.arb.history.length < s.arb.k ∧ s.arb.spacing = none then
    s.grantOrder.find? fun i => !s.inhibited i
  else none

/-- The arbiter's part of a grant (R110): the fan leaves the waiting set, the history takes the grant time, the last grant is
set, and the spacing timer starts with G, or with 1 ms when G is 0 (R104). -/
def Arbiter.granted (a : Arbiter) (i : Fin 8) (clock : Nat) : Arbiter :=
  { a with
    waiting := vset a.waiting i none
    history := a.history ++ [clock]
    lastGrant := some (i, clock)
    spacing := some (clock + max 1 (seconds a.g)) }

/-- The arbiter grants a fan a start (R110): its start count increases (R70) and it enters PROVING (R75). -/
def Work.grant (w : Work) (i : Fin 8) : Work :=
  ((w.map fun s => s.setArb (s.arb.granted i s.clock)).map fun s =>
    s.setFan i { s.fan i with startCount := countStart (s.fan i).startCount }).enterProving i

/-- A grant is considered: at most one is made (R108, R109). -/
def Work.consider (w : Work) : Work :=
  match w.st.grantChoice with
  | some i => w.grant i
  | none => w

/-! ## Waiting and idle (R73, R74, R91) -/

/-- A fan enters WAITING: it takes its request time, joins the waiting set, and a grant is considered (R74, R105, R108). -/
def Work.enterWaiting (w : Work) (i : Fin 8) : Work :=
  ((w.moveFan i { w.st.fan i with state := .waiting, coastTimer := none }).map fun s =>
    s.setArb { s.arb with waiting := vset s.arb.waiting i (some s.clock) }).consider

/-- The fan leaves the waiting set (R105). -/
def State.leaveWaiting (s : State) (i : Fin 8) : State :=
  s.setArb { s.arb with waiting := vset s.arb.waiting i none }

/-- Whether an owed exercise is taken: the fan is in IDLE, the regime is below GAS-ALARM, and the claim set does not hold
EXERCISE (R91). -/
def State.takesExercise (s : State) (i : Fin 8) : Bool :=
  let f := s.fan i
  decide (f.state = .idle) && f.exerciseOwed && !s.alarm.regime.alarming && !f.claims.exercise

/-- An owed exercise is taken where it may be: the EXERCISE claim is added and the fan enters WAITING (R91). -/
def Work.testExercise (w : Work) (i : Fin 8) : Work :=
  if w.st.takesExercise i then
    (w.map fun s => s.setFan i { s.fan i with exerciseOwed := false, claims := (s.fan i).claims.add .exercise }).enterWaiting i
  else w

/-- A fan enters IDLE, and takes an owed exercise where it may (R91); before the zones take its availability, the model's choice,
log entry 4. -/
def Work.enterIdle (w : Work) (i : Fin 8) : Work :=
  (w.moveFan i { w.st.fan i with state := .idle, coastTimer := none, retryTimer := none }).testExercise i

/-! ## Changes of the claim set (R73) -/

/-- Whether a fan takes claims: in FAULT, LOCKOUT and UNMANAGED its claim set is empty (R72). -/
def Fan.takesClaims (f : Fan) : Bool :=
  match f.state with
  | .idle => true | .waiting => true | .proving => true | .running => true | .coasting => true
  | .unmanaged => false | .fault => false | .lockout _ => false

/-- A claim is added (R72, R73). A claim the set already carries leaves it as it is. -/
def Work.addClaim (w : Work) (i : Fin 8) (src : Source) : Work :=
  let f := w.st.fan i
  if f.claims.has src || !f.takesClaims then w
  else
    let added := w.map fun s => s.setFan i { s.fan i with claims := (s.fan i).claims.add src }
    match f.state with
    | .idle => added.enterWaiting i
    | .waiting => added.consider
    | .proving => added.map fun s => s.setFan i { s.fan i with stopPending := false }
    | .running => added.map fun s => s.setFan i { s.fan i with stopPending := false }
    | .coasting => added
    | .unmanaged => added
    | .fault => added
    | .lockout _ => added

/-- The record of a fan without one of its claims; without MANUAL, the manual duration is absent and the manual timer
stopped (R72). -/
def Fan.withoutClaim (f : Fan) (src : Source) : Fan :=
  match src with
  | .manual => { f with claims := f.claims.remove .manual, manualDuration := none, manualTimer := none }
  | .exercise => { f with claims := f.claims.remove .exercise, exerciseTimer := none }
  | .zone z => { f with claims := f.claims.remove (.zone z) }

/-- A claim is removed (R72, R73). A claim the set does not carry leaves it as it is. -/
def Work.removeClaim (w : Work) (i : Fin 8) (src : Source) : Work :=
  let f := w.st.fan i
  if !f.claims.has src then w
  else
    let removed := w.map fun s => s.setFan i ((s.fan i).withoutClaim src)
    if (f.claims.remove src).none_ then
      match f.state with
      | .waiting => (removed.map fun s => s.leaveWaiting i).enterIdle i
      | .proving => removed.stopOrCoast i
      | .running => removed.stopOrCoast i
      | .idle => removed
      | .coasting => removed
      | .unmanaged => removed
      | .fault => removed
      | .lockout _ => removed
    else
      match f.state with
      | .waiting => removed.consider
      | .idle => removed | .proving => removed | .running => removed | .coasting => removed
      | .unmanaged => removed | .fault => removed | .lockout _ => removed

/-- The MANUAL claim is added or kept with a duration in seconds, 0 for none (R85). In RUNNING the manual timer starts,
restarts or stops at once; otherwise it starts at the next entry to RUNNING. -/
def Work.startManual (w : Work) (i : Fin 8) (duration : Nat) : Work :=
  let claimed := (w.map fun s => s.setFan i { s.fan i with
    manualDuration := if duration = 0 then none else some duration }).addClaim i .manual
  if (claimed.st.fan i).state = .running then
    claimed.map fun s => s.setFan i { s.fan i with manualTimer := startTimer s.clock (seconds duration) }
  else claimed

/-- The interval clock reaches a fan's exercise due time, or a slot's EXERCISE sets it to now (R90): a running fan takes a
new due time; any other owes the exercise and takes it where it may. -/
def Work.exerciseFallsDue (w : Work) (i : Fin 8) : Work :=
  let f := w.st.fan i
  if f.state = .running then w.map fun s => s.setFan i { s.fan i with exerciseDue := f.nextExercise s.clock }
  else (w.map fun s => s.setFan i { s.fan i with exerciseDue := none, exerciseOwed := true }).testExercise i

end Sys2Proof.Machine
end

