-- ==== Sys2Proof/Machine/ZoneOps.lean ====
section
/-! DEFINITION. The zone unit's shared operations: the vote, the gas level, the demand, allocation, and what an evaluation
hands on (03_zones_and_ventilation_demand.md). -/

namespace Sys2Proof.Machine

/-! ## Members (R11, R43) -/

/-- The zone a channel is a member of: the one its zone field names while it is enabled (R43). -/
def Channel.memberOf (c : Channel) : Option (Fin 6) := if c.cfg.enabled then c.cfg.zone else none

/-- A channel is healthy while it is in TRACKING with its reading present (R11). -/
def Channel.healthy (c : Channel) : Bool := decide (c.state = .tracking) && c.reading.isSome

/-- A channel is failed while it is in FAULT (R46). -/
def Channel.failed (c : Channel) : Bool :=
  match c.state with
  | .fault _ => true
  | .off => false | .warmup => false | .tracking => false | .hold => false | .bump => false | .recover => false

/-- The members of a zone in ascending channel number (R43). -/
def State.members (s : State) (z : Fin 6) : List (Fin 16) :=
  (List.finRange 16).filter fun i => decide ((s.chan i).memberOf = some z)

/-- A zone with at least one member is used (R43). -/
def State.used (s : State) (z : Fin 6) : Bool := !(s.members z).isEmpty

/-- The readings of a zone's healthy members, in channel order (R47). -/
def State.healthyReadings (s : State) (z : Fin 6) : List Nat :=
  (s.members z).filterMap fun i => if (s.chan i).healthy then (s.chan i).reading else none

/-! ## Sight and vote (R46, R47) -/

/-- The sight of a zone from its vote, its healthy members' readings, and whether a member is failed (R46). -/
def sightOf (vote : Vote) (readings : List Nat) (anyFailed : Bool) : Sight :=
  match vote, readings with
  | .max, _ :: _ => .seeing
  | .second, _ :: _ :: _ => .seeing
  | .second, [_] => .degraded
  | _, [] => if anyFailed then .blind else .paused

/-- The highest of a list of readings. -/
def highest (readings : List Nat) : Nat := readings.foldl max 0

/-- The second highest of a list in which equal values count separately (R47). -/
def secondHighest (readings : List Nat) : Nat := highest (readings.erase (highest readings))

/-- The voted reading (R47). -/
def votedOf (vote : Vote) : List Nat → Option Nat
  | [] => none
  | [r] => some r
  | r :: q :: rest =>
    match vote with
    | .max => some (highest (r :: q :: rest))
    | .second => some (secondHighest (r :: q :: rest))

/-! ## Gas level (R48 to R50) -/

/-- The threshold of a level; level 0 has none (R48). -/
def ZoneCfg.threshold (c : ZoneCfg) (g : Fin 4) : Nat :=
  if g = 1 then c.t1 else if g = 2 then c.t2 else if g = 3 then c.t3 else 0

/-- The highest level whose threshold a reading meets (R48). -/
def ZoneCfg.levelMet (c : ZoneCfg) (reading : Nat) : Fin 4 :=
  if c.t3 ≤ reading then 3 else if c.t2 ≤ reading then 2 else if c.t1 ≤ reading then 1 else 0

/-- The reading lies below T_g - H (R49). -/
def ZoneCfg.below (c : ZoneCfg) (g : Fin 4) (reading : Nat) : Bool := reading + c.hysteresis < c.threshold g

/-- The gas level and its hold timer at an evaluation that starts at sight (R48 to R50). -/
def Zone.settleGas (z : Zone) (clock : Nat) : Zone :=
  match z.voted with
  | none => { z with holdTimer := none }
  | some v =>
    if z.gas < z.cfg.levelMet v then { z with gas := z.cfg.levelMet v, holdTimer := none }
    else if z.gas = 0 then { z with holdTimer := none }
    else if z.cfg.below z.gas v then
      { z with holdTimer := if z.holdTimer.isSome then z.holdTimer else startTimer clock (seconds z.cfg.hold) }
    else { z with holdTimer := none }

/-- The fall of the gas level by one at the expiry of the hold timer (R49). -/
def Zone.fallGas (z : Zone) (clock : Nat) : Zone :=
  let g : Fin 4 := if z.gas = 3 then 2 else if z.gas = 2 then 1 else 0
  let again := decide (g ≠ 0) && z.voted.any (fun v => z.cfg.below g v)
  { z with gas := g, holdTimer := if again then startTimer clock (seconds z.cfg.hold) else none }

/-! ## Demand (R54, R55) -/

/-- The demand of a zone under a regime (R54). -/
def Zone.demandUnder (z : Zone) (regime : Regime) : Demand :=
  if 2 ≤ z.gas ∨ z.sight = some .paused ∨ z.sight = some .blind ∨ regime = .critical then .purge
  else if 1 ≤ z.gas ∨ (z.cfg.coupled = true ∧ z.coupling = true) ∨ z.spill = true then .boost
  else match z.cfg.baseFloor with
    | .base => .base
    | .idle => .idle

/-- The count a zone's record gives for a demand (R55). -/
def ZoneCfg.need (c : ZoneCfg) : Demand → Nat
  | .idle => c.needIdle
  | .base => c.needBase
  | .boost => c.needBoost
  | .purge => c.needPurge

/-- Fans-needed for the present demand; an inactive zone has no demand and needs none (R55). -/
def Zone.needed (z : Zone) : Nat :=
  match z.demand with
  | some d => z.cfg.need d
  | none => 0

/-! ## Allocation (R57) -/

/-- The fans of a claim list that stay: those available, without the latest beyond `n` (R57, steps 1 and 2). -/
def keptClaims (claims : List (Fin 8)) (n : Nat) (available : Fin 8 → Bool) : List (Fin 8) :=
  (claims.filter available).take n

/-- The fans an allocation adds: the earliest available fans of the order not in the list, up to `n` in all (R57, step 3). -/
def addedClaims (order claims : List (Fin 8)) (n : Nat) (available : Fin 8 → Bool) : List (Fin 8) :=
  let kept := keptClaims claims n available
  (order.filter fun f => available f && !kept.contains f).take (n - kept.length)

/-- The claim list after an allocation, in fan-order order (R57). -/
def allocated (order claims : List (Fin 8)) (n : Nat) (available : Fin 8 → Bool) : List (Fin 8) :=
  let kept := keptClaims claims n available
  let added := addedClaims order claims n available
  order.filter fun f => kept.contains f || added.contains f

/-- The fans an allocation releases: the unavailable ones (step 1 of R57), then the surplus ones from the latest (step 2). R57 gives
the releases of step 1 no order among themselves; that they go in list order is the model's choice, log entry 5. -/
def releasedClaims (claims : List (Fin 8)) (n : Nat) (available : Fin 8 → Bool) : List (Fin 8) :=
  claims.filter (fun f => !available f) ++ ((claims.filter available).drop n).reverse

/-- Allocation of a zone (R57): its claim list and SHORTFALL are set, and each removal and each addition is handed to the
fan controller, which takes it at once (R58, R73). -/
def Work.allocate (w : Work) (z : Fin 6) : Work :=
  let r := w.st.zone z
  let n := r.needed
  let available := fun f => (w.st.fan f).available w.st.alarm.regime
  let claims := allocated r.cfg.order r.claims n available
  let set := w.map fun s => s.setZone z { r with claims := claims, shortfall := decide (claims.length < n) }
  let released := (releasedClaims r.claims n available).foldl (fun w f => w.removeClaim f (.zone z)) set
  (addedClaims r.cfg.order r.claims n available).foldl (fun w f => w.addClaim f (.zone z)) released

/-! ## What an evaluation hands on (R61, R62) -/

/-- GAS's image: active at g of 1 or more, with severity g and the voted reading (R61). -/
def Zone.gasImage (z : Zone) : Image := if z.gas = 0 then .inactive else .raised z.gas z.voted

/-- SHORTFALL's image: severity ALARM, value the number of fans missing (R61). -/
def Zone.shortfallImage (z : Zone) : Image :=
  if z.shortfall then .raised 2 (some (z.needed - z.claims.length)) else .inactive

/-- BLIND's image (R61). -/
def Zone.blindImage (z : Zone) : Image := if z.sight = some .blind then .raised 2 none else .inactive

/-- A condition handed over where its image changed (R61). -/
def changedImage (k : Fin 82) (before after : Image) : List Handover :=
  if before = after then [] else [.condition k after]

/-- The end of an evaluation that took a zone's record from `before`: its changed conditions are handed to the alarm unit
(R61), and one ZONE CHANGE notice is queued where the sight, the gas level, the demand or SHORTFALL changed (R62). R61 gives the
hand-overs of one evaluation no order, and R148 says that the order decides which regimes and permits are passed through; that GAS
goes first, then BLIND, SHORTFALL, PAUSED, and that the ZONE CHANGE notice is queued before the notices that they lead to, is the
model's choice, log entry 4. -/
def Work.endEvaluation (w : Work) (z : Fin 6) (before : Zone) : Work :=
  let after := w.st.zone z
  let handed := w.postAll
    (changedImage (keyGas z) before.gasImage after.gasImage
      ++ changedImage (keyBlind z) before.blindImage after.blindImage
      ++ changedImage (keyShortfall z) before.shortfallImage after.shortfallImage
      ++ (if decide (before.sight = some .paused) = decide (after.sight = some .paused) then []
          else [.paused z (decide (after.sight = some .paused))]))
  if before.sight = after.sight ∧ before.gas = after.gas ∧ before.demand = after.demand
      ∧ before.shortfall = after.shortfall then handed
  else handed.notice (.zoneChange z after.sight after.gas after.demand after.shortfall)

/-! ## Evaluations (R45) -/

/-- The demand is computed, and allocation run where it differs from the one before, or where `always` holds (R45, R55). -/
def Work.demandStep (w : Work) (z : Fin 6) (always : Bool) : Work :=
  let r := w.st.zone z
  let demand := r.demandUnder w.st.alarm.regime
  let set := w.map fun s => s.setZone z { r with demand := some demand }
  if always || decide (r.demand ≠ some demand) then set.allocate z else set

/-- The sight, the voted reading, the gas level and the hold timer (R46 to R50). -/
def State.sense (s : State) (z : Fin 6) : Zone :=
  let r := s.zone z
  let readings := s.healthyReadings z
  ({ r with
    sight := some (sightOf r.cfg.vote readings ((s.members z).any fun i => (s.chan i).failed))
    voted := votedOf r.cfg.vote readings }).settleGas s.clock

/-- An evaluation that starts at sight (R45). -/
def Work.evaluateSight (w : Work) (z : Fin 6) : Work :=
  ((w.map fun s => s.setZone z (s.sense z)).demandStep z false).endEvaluation z (w.st.zone z)

/-- An evaluation that starts at the demand, from a record that the event has changed to `r` (R45). -/
def Work.evaluateDemand (w : Work) (z : Fin 6) (r : Zone) (always : Bool) : Work :=
  ((w.map fun s => s.setZone z r).demandStep z always).endEvaluation z (w.st.zone z)

/-- An evaluation that starts at allocation, from a record that the event has changed to `r` (R45). -/
def Work.evaluateAllocation (w : Work) (z : Fin 6) (r : Zone) : Work :=
  ((w.map fun s => s.setZone z r).allocate z).endEvaluation z (w.st.zone z)

/-- A zone takes an event only while it is active (R43, R45). -/
def Work.ifActive (w : Work) (z : Fin 6) (take : Work → Work) : Work := if (w.st.zone z).active then take w else w

/-- Whether any present probe mapped to a zone contributes a spill (R53). -/
def State.spillIn (s : State) (z : Fin 6) : Bool :=
  (List.finRange 8).any fun p =>
    let r := s.probe p
    r.cfg.present && decide (r.cfg.zone = some z) && r.contribution

/-- A zone takes a change of the debounced EQZ (R52). -/
def Zone.couple (z : Zone) (active : Bool) (clock : Nat) : Zone :=
  if active then { z with coupling := true, lingerTimer := none }
  else match startTimer clock (seconds z.cfg.linger) with
    | none => { z with coupling := false, lingerTimer := none }
    | some t => { z with lingerTimer := some t }

/-- A zone's coupling takes a change of the debounced EQZ; a change of the coupling starts an evaluation at the demand
(R45, R52). -/
def Work.takeCoupling (w : Work) (z : Fin 6) (active : Bool) : Work :=
  let r := w.st.zone z
  let coupled := r.couple active w.st.clock
  if coupled.coupling = r.coupling then w.map fun s => s.setZone z coupled else w.evaluateDemand z coupled false

/-- A change of spill in zone starts an evaluation at the demand (R53). -/
def Work.takeSpill (w : Work) (z : Fin 6) : Work :=
  let r := w.st.zone z
  let spill := w.st.spillIn z
  if spill = r.spill then w else w.evaluateDemand z { r with spill := spill } false

/-- The fan order with its first fan moved to the end (R63). -/
def rotateOrder : List (Fin 8) → List (Fin 8)
  | [] => []
  | f :: rest => rest ++ [f]

/-- The rotation of an active zone: its order rotates, its claim list follows the new order, and allocation runs (R63). -/
def Work.rotateZone (w : Work) (z : Fin 6) : Work :=
  let r := w.st.zone z
  let order := rotateOrder r.cfg.order
  w.evaluateAllocation z { r with
    cfg := { r.cfg with order := order }
    claims := order.filter fun f => r.claims.contains f }

end Sys2Proof.Machine
end

