-- ==== Sys2Proof/Machine/ChannelOps.lean ====
section
/-! DEFINITION. Channel control and the test unit: changes of a channel's state, the sample event, and the work of a window
completion (01_sensor_channels.md, 08_calibration_and_bump_testing.md). -/

namespace Sys2Proof.Machine

/-- The code of a FAULT cause (R200). -/
def FaultCause.code : FaultCause → Nat
  | .loopOpen => 0 | .loopOver => 1 | .drift => 2 | .bumpFail => 3 | .noRecovery => 4

/-- The FAULT cause of a channel, absent outside FAULT (R2). -/
def ChannelState.cause : ChannelState → Option FaultCause
  | .fault cause => some cause
  | .off => none | .warmup => none | .tracking => none | .hold => none | .bump => none | .recover => none

/-- CHANNEL FAULT's image: active in FAULT with severity ALARM and the cause as value (R12). -/
def ChannelState.faultImage (s : ChannelState) : Image :=
  match s.cause with
  | some cause => .raised 2 (some cause.code)
  | none => .inactive

/-- FAULT with a loop cause (R6). -/
def ChannelState.loopFault : ChannelState → Bool
  | .fault .loopOpen => true
  | .fault .loopOver => true
  | .fault .drift => false | .fault .bumpFail => false | .fault .noRecovery => false
  | .off => false | .warmup => false | .tracking => false | .hold => false | .bump => false | .recover => false

/-- The duration in seconds of the state timer that entering a state starts; 0 for a state that runs none (R9). -/
def Channel.stateTime (c : Channel) : ChannelState → Nat
  | .warmup => c.cfg.warmup
  | .hold => 3600
  | .recover => 600
  | .off => 0 | .tracking => 0 | .bump => 0 | .fault _ => 0

/-- A channel enters another state: its state timer starts or stops (R9). -/
def Channel.enter (c : Channel) (new : ChannelState) (clock : Nat) : Channel :=
  { c with state := new, timer := startTimer clock (seconds (c.stateTime new)) }

/-- The entry to WARMUP (R7, R9, R10). -/
def Channel.enterWarmup (c : Channel) (clock : Nat) : Channel :=
  { c.enter .warmup clock with
    preload := true
    reading := none
    windowSum := 0
    windowCount := 0
    lastValid := none
    warmupWindow := false }

/-- The entry to BUMP (R161). -/
def Channel.enterBump (c : Channel) (clock : Nat) : Channel :=
  { c.enter .bump clock with bumpTimer := startTimer clock (seconds c.cfg.bumpTime), bumpPeak := none }

/-- A channel without a test in progress: bump timer stopped, bump peak and armed span absent (R152). -/
def Channel.endTest (c : Channel) : Channel := { c with bumpTimer := none, bumpPeak := none, armedSpan := none }

/-- A channel takes a new record. A change of its state, or of its cause within FAULT, queues one CHANNEL CHANGE notice and
is handed to the alarm unit where it changes CHANNEL FAULT (R12). R11, R12, R16, R127 and R148 give the notice and the hand-overs of
one channel event no order; that the CHANNEL CHANGE notice is queued before the notices that the hand-overs lead to, and that these
are taken in the order CHANNEL NOTE, CHANNEL FAULT, the zone's re-evaluation (`Work.tellZone`), is the model's choice, log entry 4;
it decides the order of the ALARM CHANGE and ZONE CHANGE notices. -/
def Work.moveChannel (w : Work) (i : Fin 16) (c : Channel) : Work :=
  let before := w.st.chan i
  let put := w.putChannel i c
  if before.state = c.state then put
  else
    let noted := put.notice (.channelChange i c.state)
    if before.state.faultImage = c.state.faultImage then noted
    else noted.post (.condition (keyChannelFault i) c.state.faultImage)

/-- The zone of a channel is to evaluate: the channel completed a window or changed its state (R11). That it takes the event after
the alarm unit has taken the channel's conditions is the model's choice, log entry 4. -/
def Work.tellZone (w : Work) (i : Fin 16) : Work :=
  match (w.st.chan i).memberOf with
  | some z => w.post (.member z)
  | none => w

/-- The notices of a test that leaving the state ends: an aborted bump, or a cancelled span (R5, R155, R160). -/
def abortNotices (i : Fin 16) (c : Channel) (reason : AbortReason) : List NoticeBody :=
  match c.state with
  | .bump => [.testResult i (.testAborted reason false)]
  | .hold =>
    match c.armedSpan with
    | some k => [.testResult i (.spanAborted k)]
    | none => []
  | .off => [] | .warmup => [] | .tracking => [] | .recover => [] | .fault _ => []

/-! ## Window completion (R31, R32) -/

/-- The flags of a completion (R13, R35). -/
def Channel.completionFlags (c : Channel) (cRaw : Int) : Channel :=
  (c.occurIf (decide (cRaw < -50)) .negative).occurIf (decide (1000 < cRaw)) .over

/-- The bump peak after a completion in BUMP (R162). -/
def Channel.raisePeak (c : Channel) (reading : Nat) : Channel :=
  { c with bumpPeak := maxReading c.bumpPeak (some reading) }

/-- The channel's own tests at a completion, by the state it holds (R32): the end of warm-up (R10), the drift test (R39), an
armed span (R159), the bump test (R162), the recovery test (R164). `m` and `raw` are this completion's. -/
def Work.completionTests (w : Work) (i : Fin 16) (m raw : Int) : Work :=
  let c := w.st.chan i
  let clock := w.st.clock
  match c.state with
  | .warmup => if c.timer.isNone then w.moveChannel i (c.enter .tracking clock) else w
  | .tracking =>
    let tracked := c.trackBaseline m raw
    w.moveChannel i (if tracked.drifted then tracked.enter (.fault .drift) clock else tracked)
  | .hold =>
    match c.armedSpan, c.excess with
    | some k, some e =>
      match spanGain k c.cfg.shift e with
      | some g => (w.notice (.testResult i (.spanPass g))).moveChannel i
          { c with cfg := { c.cfg with gain := g }, armedSpan := none }
      | none => (w.notice (.testResult i (.spanFail e))).moveChannel i { c with armedSpan := none }
    | _, _ => w
  | .bump =>
    let reading := readingOf raw
    if c.cfg.bumpLevel ≤ reading then
      (w.notice (.testResult i (.bumpPass reading))).moveChannel i (c.endTest.enter .recover clock)
    else w.moveChannel i (c.raisePeak reading)
  | .recover => if raw < c.cfg.trackLimit then w.moveChannel i (c.enter .tracking clock) else w
  | .fault _ => w
  | .off => w

/-- A window completion: the results and the flags (R31, R35), the channel's own tests, then the zone's re-evaluation and
the trace record (R32). -/
def Work.complete (w : Work) (i : Fin 16) : Work :=
  let c := w.st.chan i
  let m := c.windowMean
  let raw := c.concentration (c.excessOf m)
  let results := w.putChannel i (c.completeWindow.completionFlags raw)
  ((results.completionTests i m raw).tellZone i).post (.completion i)

/-! ## Feeding the pipeline (R7, R25 to R28) -/

/-- The record after a value is fed: preload where it is pending, then the sample step and its flags. -/
def Channel.fed (c : Channel) (p : Profile) (s : Int) : Channel :=
  let ready := if c.preload then c.preloadWith s else c
  ((ready.stepFilter p s).occurIf (ready.secA.saturates p.a s) .sectionA).occurIf
    (ready.secB.saturates p.b (ready.outputA p s)) .sectionB

/-- A value is fed to the pipeline: one sample step, and a window completion where the window is full (R28). -/
def Work.feed (w : Work) (i : Fin 16) (s : Int) : Work :=
  let c := w.st.chan i
  let fed := c.fed (w.st.profile c.cfg.profile) s
  let put := w.putChannel i fed
  if fed.cfg.window ≤ fed.windowCount then put.complete i else put

/-! ## The sample event (R3 to R6) -/

/-- The class of a code: valid at 400 to 4080, else out of range low or high (R4). -/
def rangeOf (code : Nat) : Option LoopDir :=
  if code < 400 then some .low else if 4080 < code then some .high else none

/-- The loop cause of a direction (R5). -/
def LoopDir.cause : LoopDir → FaultCause
  | .low => .loopOpen
  | .high => .loopOver

/-- A loop fault: the window is discarded, the valid run and the out-of-range count become 0, the state timer stops, and a
test in progress ends (R5). -/
def Channel.loopFaulted (c : Channel) (dir : LoopDir) (clock : Nat) : Channel :=
  { c.endTest.enter (.fault dir.cause) clock with windowSum := 0, windowCount := 0, validRun := 0, oorCount := 0 }

/-- A sample event where the loop is in FAULT with a loop cause, with a valid code (R6). -/
def Work.recoverLoop (w : Work) (i : Fin 16) (c : Channel) : Work :=
  if c.cfg.window ≤ c.validRun + 1 then
    (w.moveChannel i { c.enterWarmup w.st.clock with validRun := 0 }).tellZone i
  else w.putChannel i { c with validRun := c.validRun + 1 }

/-- A valid sample (R4): `c` is the record with the code taken. -/
def Work.validSample (w : Work) (i : Fin 16) (c : Channel) (code : Nat) : Work :=
  let s : Int := (code : Int) - 800
  let taken := { c with oorCount := 0, lastValid := some s }
  if c.state.loopFault then w.recoverLoop i taken
  else (w.putChannel i taken).feed i s

/-- An out-of-range sample in FAULT with a loop cause (R4, R6). -/
def Work.outOfRangeInLoopFault (w : Work) (i : Fin 16) (c : Channel) (dir : LoopDir) : Work :=
  let counted := { c with oorDir := dir, validRun := 0, oorCount := c.oorCount + 1 }
  if 3 ≤ counted.oorCount then w.moveChannel i { counted with oorCount := 0, state := .fault dir.cause }
  else w.putChannel i counted

/-- An out-of-range sample in any other sampling state (R4, R5). -/
def Work.outOfRangeSample (w : Work) (i : Fin 16) (c : Channel) (dir : LoopDir) : Work :=
  let counted := { c with oorDir := dir, oorCount := c.oorCount + 1 }.occur .loopHold
  if 3 ≤ counted.oorCount then
    let moved := (w.noticeAll (abortNotices i c .loop)).moveChannel i (counted.loopFaulted dir w.st.clock)
    if c.state.cause.isSome then moved else moved.tellZone i
  else
    let put := w.putChannel i counted
    match counted.preload, counted.lastValid with
    | false, some s => put.feed i s
    | false, none => put
    | true, _ => put

/-- A sample event of a channel that is not OFF (R3, R4). -/
def Work.sample (w : Work) (i : Fin 16) (code : Nat) : Work :=
  let c := { w.st.chan i with lastCode := some code, sampledAt := some w.st.clock }
  match rangeOf code with
  | none => w.validSample i c code
  | some dir =>
    if c.state.loopFault then w.outOfRangeInLoopFault i c dir else w.outOfRangeSample i c dir

/-! ## Trace (R198, R199) -/

/-- A coefficient of a profile by its index in the walk (R198). -/
def Profile.coefficient (p : Profile) (k : Fin 10) : Int :=
  match k with
  | 0 => p.a.b0 | 1 => p.a.b1 | 2 => p.a.b2 | 3 => p.a.a1 | 4 => p.a.a2
  | 5 => p.b.b0 | 6 => p.b.b1 | 7 => p.b.b2 | 8 => p.b.a1 | 9 => p.b.a2

/-- The trace record of a completion (R198); a record that replaces an unsent one carries the GAP mark (R199). -/
def State.traceRecord (s : State) (i : Fin 16) : TraceRecord :=
  let c := s.chan i
  { room := s.room
    channel := i
    mean := c.lastMean.getD 0
    baseline := c.baseline
    excess := c.excess.getD 0
    cRaw := c.cRaw.getD 0
    reading := c.reading.getD 0
    state := c.state
    flags := c.flags.map FlagMark.set
    index := s.link.traceIndex
    coefficient := (s.profile c.cfg.profile).coefficient s.link.traceIndex
    gap := s.link.traceBuffer.isSome }

/-- A completion of the traced channel builds a record, and the coefficient index advances, 9 followed by 0 (R198). -/
def State.buildTrace (s : State) (i : Fin 16) : State :=
  if s.link.traceChannel = some i then
    s.setLink { s.link with
      traceBuffer := some (s.traceRecord i)
      traceIndex := if s.link.traceIndex = 9 then 0 else s.link.traceIndex + 1 }
  else s

end Sys2Proof.Machine
end

