-- ==== Sys2Proof/Machine/Operands.lean ====
section
/-! DEFINITION. The fields of requests and replies: the checks a raw field passes (R1, R20, R42, R67, R101, R116, R173, R201),
and the codes and layouts of what a reply, a notice, an alarm record and a trace record carry (R200 to R205). -/

namespace Sys2Proof.Machine

/-! ## Raw fields of a request -/

/-- A number within a range; `none` is OUT OF RANGE (R181). -/
def inRange (lo hi n : Nat) : Option Nat := if lo ≤ n ∧ n ≤ hi then some n else none

/-- A signed number within a range. -/
def inRangeInt (lo hi n : Int) : Option Int := if lo ≤ n ∧ n ≤ hi then some n else none

/-- The number of a record, below the count of its table. -/
def readIndex (n : Nat) (b : Byte) : Option (Fin n) := if h : b.toNat < n then some ⟨b.toNat, h⟩ else none

/-- A yes-or-no byte or a presence byte: 0 or 1 (R201). -/
def readYesNo (b : Byte) : Option Bool := if b = 0 then some false else if b = 1 then some true else none

/-- A record number that may be none, carried as 0xFF (R201). -/
def readIndexOrNone (n : Nat) (b : Byte) : Option (Option (Fin n)) :=
  if b = 0xFF then some none else (readIndex n b).map some

/-- The entry of an enumeration at a code (R200). -/
def readCode {α : Type} (values : List α) (b : Byte) : Option α := values[b.toNat]?

/-- The ranges of R1. -/
def ChannelFields.read (f : ChannelFields) : Option ChannelCfg := do
  let enabled ← readYesNo f.enabled
  let zone ← readIndexOrNone 6 f.zone
  let profile ← readIndex 4 f.profile
  let window ← inRange 5 50 f.window.toNat
  let gain ← inRange 1 65535 f.gain.toNat
  let shift ← inRange 0 15 f.shift.toNat
  let trackLimit ← inRange 0 200 f.trackLimit.toNat
  let zeroBand ← inRange 0 800 f.zeroBand.toNat
  let warmup ← inRange 0 900 f.warmup.toNat
  let initialBaseline ← inRangeInt (-204800) 204800 f.initialBaseline.toInt
  let bumpLevel ← inRange 50 1000 f.bumpLevel.toNat
  let bumpTime ← inRange 10 300 f.bumpTime.toNat
  return {
    enabled := enabled, zone := zone, profile := profile, window := window, gain := gain, shift := shift
    trackLimit := trackLimit, cnu := f.cnu.toNat, cnd := f.cnd.toNat, cku := f.cku.toNat, ckd := f.ckd.toNat
    zeroBand := zeroBand, warmup := warmup, initialBaseline := initialBaseline
    bumpLevel := bumpLevel, bumpTime := bumpTime }

/-- A fan order: 0 to 4 distinct fan numbers (R42). -/
def readOrder (bytes : List Byte) : Option (List (Fin 8)) := do
  let fans ← bytes.mapM (readIndex 8)
  if fans.length ≤ 4 ∧ fans.Nodup then some fans else none

/-- The ranges and the record tests of R42. -/
def ZoneFields.read (f : ZoneFields) : Option ZoneCfg := do
  let vote ← readCode [.max, .second] f.vote
  let order ← readOrder f.order
  let needIdle ← inRange 0 4 f.needIdle.toNat
  let needBase ← inRange 0 4 f.needBase.toNat
  let needBoost ← inRange 0 4 f.needBoost.toNat
  let needPurge ← inRange 0 4 f.needPurge.toNat
  let baseFloor ← readCode [.idle, .base] f.baseFloor
  let t1 ← inRange 1 1000 f.t1.toNat
  let t2 ← inRange 1 1000 f.t2.toNat
  let t3 ← inRange 1 1000 f.t3.toNat
  let hysteresis ← inRange 0 100 f.hysteresis.toNat
  let hold ← inRange 10 900 f.hold.toNat
  let coupled ← readYesNo f.coupled
  let linger ← inRange 0 3600 f.linger.toNat
  if needIdle ≤ needBase ∧ needBase ≤ needBoost ∧ needBoost ≤ needPurge ∧ needPurge ≤ order.length ∧ hysteresis < t1 then
    some {
      vote := vote, order := order, needIdle := needIdle, needBase := needBase, needBoost := needBoost
      needPurge := needPurge, baseFloor := baseFloor, t1 := t1, t2 := t2, t3 := t3, hysteresis := hysteresis
      hold := hold, coupled := coupled, linger := linger }
  else none

/-- The ranges of R67. -/
def FanFields.read (f : FanFields) : Option FanCfg := do
  let present ← readYesNo f.present
  let rating ← readCode [.sparkSafe, .ordinary] f.rating
  let proving ← inRange 5 120 f.proving.toNat
  let lossTolerance ← inRange 2 30 f.lossTolerance.toNat
  let minRun ← inRange 0 1800 f.minRun.toNat
  let coast ← inRange 5 600 f.coast.toNat
  let retries ← inRange 0 3 f.retries.toNat
  let exInterval ← inRange 0 720 f.exInterval.toNat
  let exDuration ← inRange 30 600 f.exDuration.toNat
  return {
    present := present, rating := rating, proving := proving, lossTolerance := lossTolerance, minRun := minRun
    coast := coast, retries := retries, exInterval := exInterval, exDuration := exDuration }

/-- The ranges of R116. -/
def ProbeFields.read (f : ProbeFields) : Option ProbeCfg := do
  let present ← readYesNo f.present
  let zone ← readIndexOrNone 6 f.zone
  let wetDebounce ← inRange 1 60 f.wetDebounce.toNat
  let dryDebounce ← inRange 5 600 f.dryDebounce.toNat
  return { present := present, zone := zone, wetDebounce := wetDebounce, dryDebounce := dryDebounce }

/-- The ranges of R101: K, W and G. -/
def ArbiterFields.read (f : ArbiterFields) : Option (Nat × Nat × Nat) := do
  let k ← inRange 1 4 f.k.toNat
  let w ← inRange 5 300 f.w.toNat
  let g ← inRange 0 30 f.g.toNat
  return (k, w, g)

/-- Ten coefficients in the order of R20, each from -16383 to 16383 (R21). That they come as R20's text lists them, section A's five and
then section B's, and not by the rows of R20's table, as R201 carries a table, is the model's choice, log entry 24. -/
def readProfile (v : Vector (BitVec 16) 10) : Option Profile :=
  if v.toList.all fun n => -16383 ≤ n.toInt ∧ n.toInt ≤ 16383 then
    some {
      a := { b0 := v[0].toInt, b1 := v[1].toInt, b2 := v[2].toInt, a1 := v[3].toInt, a2 := v[4].toInt }
      b := { b0 := v[5].toInt, b1 := v[6].toInt, b2 := v[7].toInt, a1 := v[8].toInt, a2 := v[9].toInt } }
  else none

/-! ## Codes (R200) -/

/-- The code of a zone or channel field that may be none (R201). -/
def indexOrNone {n : Nat} : Option (Fin n) → Byte
  | some i => BitVec.ofNat 8 i.val
  | none => 0xFF

/-- The byte of a record number. -/
def indexByte {n : Nat} (i : Fin n) : Byte := BitVec.ofNat 8 i.val

def ChannelState.code : ChannelState → Byte
  | .off => 0 | .warmup => 1 | .tracking => 2 | .hold => 3 | .bump => 4 | .recover => 5 | .fault _ => 6

def LoopDir.code : LoopDir → Byte
  | .low => 0 | .high => 1

def Vote.code : Vote → Byte
  | .max => 0 | .second => 1

def Sight.code : Sight → Byte
  | .seeing => 0 | .degraded => 1 | .paused => 2 | .blind => 3

def Demand.code : Demand → Byte
  | .idle => 0 | .base => 1 | .boost => 2 | .purge => 3

def BaseFloor.code : BaseFloor → Byte
  | .idle => 0 | .base => 1

def Rating.code : Rating → Byte
  | .sparkSafe => 0 | .ordinary => 1

def LockCause.code : LockCause → Byte
  | .manual => 0 | .retries => 1

def FanState.code : FanState → Byte
  | .unmanaged => 0 | .idle => 1 | .waiting => 2 | .proving => 3 | .running => 4 | .coasting => 5 | .fault => 6
  | .lockout _ => 7

/-- The lockout cause, absent outside LOCKOUT (R68). -/
def FanState.lockCause : FanState → Option LockCause
  | .lockout c => some c
  | .unmanaged => none | .idle => none | .waiting => none | .proving => none | .running => none | .coasting => none
  | .fault => none

def LineCond.code : LineCond → Byte
  | .shorted => 0 | .wet => 1 | .dry => 2 | .opened => 3

def ProbeState.code : ProbeState → Byte
  | .dry => 0 | .wetPending => 1 | .wet => 2 | .drying => 3 | .fault => 4

/-- The code of a probe's fault detail (R200). -/
def ProbeDetail.code : ProbeDetail → Nat
  | .opened => 0 | .shorted => 1

def RecordState.code : RecordState → Byte
  | .activeUnack => 0 | .activeAck => 1 | .clearedUnack => 2

def Regime.code : Regime → Byte
  | .normal => 0 | .chargeVent => 1 | .spill => 2 | .gasAlarm => 3 | .critical => 4

def Permit.code : Permit → Byte
  | .normal => 0 | .holdFloat => 1 | .reduce => 2 | .disconnect => 3

def Sense.code : Sense → Byte
  | .fast => 0 | .slow => 1

/-- A slot's state: FREE, PENDING or STALE (R172). -/
def slotStateCode : Option Slot → Byte
  | none => 0
  | some s => if s.stale then 2 else 1

def Action.code : Action → Byte
  | .rotate _ => 0 | .start _ _ => 1 | .exercise _ => 2 | .mark _ => 3

/-- The zone or fan an action acts on, absent for MARK (R172). -/
def Action.target : Action → Option Nat
  | .rotate z => some z.val | .start f _ => some f.val | .exercise f => some f.val | .mark _ => none

/-- The duration of START, absent otherwise (R172). -/
def Action.duration : Action → Option Nat
  | .start _ d => some d | .rotate _ => none | .exercise _ => none | .mark _ => none

/-- The tag of MARK, absent otherwise (R172). -/
def Action.tag : Action → Option Nat
  | .mark t => some t.toNat | .rotate _ => none | .start _ _ => none | .exercise _ => none

/-- The strap's code: run 0, off 1 (R178, R200). -/
def strapCode (run : Bool) : Byte := if run then 0 else 1

/-- The flow's code: present 0, absent 1 (R68, R200). -/
def flowCode (present : Bool) : Byte := if present then 0 else 1

/-- The alarm class's position (R201). -/
def AlarmClass.code : AlarmClass → Byte
  | .gas => 0 | .blind => 1 | .shortfall => 2 | .channelFault => 3 | .channelNote => 4 | .spill => 5 | .probeFault => 6
  | .fanFail => 7 | .flowNote => 8

/-- A code that may be absent, with its presence byte (R201). -/
def optionalCode : Option Byte → List Byte
  | some b => [1, b]
  | none => [0, 0]

/-- The claims held, zones in ascending number, then MANUAL, then EXERCISE, each by its position in R68. -/
def Claims.codes (c : Claims) : List (List Byte) :=
  ((List.finRange 6).filter fun z => vget c.zones z).map (fun z => [indexByte z])
    ++ (if c.manual then [[6]] else []) ++ (if c.exercise then [[7]] else [])

/-! ## Configuration records, row by row (R201) -/

def ChannelCfg.bytes (c : ChannelCfg) : List Byte :=
  yesNo c.enabled ++ [indexOrNone c.zone, indexByte c.profile] ++ bytesBE 1 c.window ++ bytesBE 2 c.gain
    ++ bytesBE 1 c.shift ++ bytesBE 1 c.trackLimit ++ bytesBE 2 c.cnu ++ bytesBE 2 c.cnd ++ bytesBE 2 c.cku
    ++ bytesBE 2 c.ckd ++ bytesBE 2 c.zeroBand ++ bytesBE 2 c.warmup ++ signedBE 3 c.initialBaseline
    ++ bytesBE 2 c.bumpLevel ++ bytesBE 2 c.bumpTime

/-- A list of fans. -/
def fanList (fans : List (Fin 8)) : List Byte := listBE (fans.map fun f => [indexByte f])

def ZoneCfg.bytes (c : ZoneCfg) : List Byte :=
  [c.vote.code] ++ fanList c.order ++ bytesBE 1 c.needIdle ++ bytesBE 1 c.needBase ++ bytesBE 1 c.needBoost
    ++ bytesBE 1 c.needPurge ++ [c.baseFloor.code] ++ bytesBE 2 c.t1 ++ bytesBE 2 c.t2 ++ bytesBE 2 c.t3
    ++ bytesBE 1 c.hysteresis ++ bytesBE 2 c.hold ++ yesNo c.coupled ++ bytesBE 2 c.linger

def FanCfg.bytes (c : FanCfg) : List Byte :=
  yesNo c.present ++ [c.rating.code] ++ bytesBE 1 c.proving ++ bytesBE 1 c.lossTolerance ++ bytesBE 2 c.minRun
    ++ bytesBE 2 c.coast ++ bytesBE 1 c.retries ++ bytesBE 2 c.exInterval ++ bytesBE 2 c.exDuration

def ProbeCfg.bytes (c : ProbeCfg) : List Byte :=
  yesNo c.present ++ [indexOrNone c.zone] ++ bytesBE 1 c.wetDebounce ++ bytesBE 2 c.dryDebounce

/-- K, W and G (R101). -/
def Arbiter.settings (a : Arbiter) : List Byte := bytesBE 1 a.k ++ bytesBE 2 a.w ++ bytesBE 1 a.g

/-! ## The notice record, 14 bytes (R203) -/

/-- A figure that may be absent: 3 signed bytes, 0x800000 when absent (R203). -/
def figure : Option Int → List Byte
  | some v => signedBE 3 v
  | none => [0x80, 0, 0]

/-- A one-byte field that may be absent: 0xFF when absent (R200). -/
def orAbsent : Option Byte → Byte
  | some b => b
  | none => 0xFF

def TestResult.code : TestResult → Byte
  | .spanPass _ => 0 | .spanFail _ => 1 | .spanAborted _ => 2 | .bumpPass _ => 3 | .bumpFail _ => 4
  | .testAborted _ _ => 5

/-- The figure of a test result, as bytes 10 to 12 of its notice carry it (R166, R203). R166 lists TEST ABORTED's reason as its figure,
and R203 puts the reason into value b and "the figure of R166" into bytes 10 to 12; that the reason stands in value b alone, and
those bytes are absent, is the model's choice, log entry 12. -/
def TestResult.figure : TestResult → Option Int
  | .spanPass g => some g
  | .spanFail e => some e
  | .spanAborted k => some k
  | .bumpPass r => some r
  | .bumpFail p => p.map fun r => (r : Int)
  | .testAborted _ _ => none

def AbortReason.code : AbortReason → Byte
  | .resume => 0 | .loop => 1 | .service => 2

/-- The reason of an aborted test, in value b of its notice (R203; log entry 12). -/
def TestResult.reason : TestResult → Option Byte
  | .testAborted r _ => some r.code
  | .spanPass _ => none | .spanFail _ => none | .spanAborted _ => none | .bumpPass _ => none | .bumpFail _ => none

/-- Whether an aborted test had a span armed (R165). -/
def TestResult.spanArmed : TestResult → Bool
  | .testAborted _ armed => armed
  | .spanPass _ => false | .spanFail _ => false | .spanAborted _ => false | .bumpPass _ => false | .bumpFail _ => false

def SlotOutcome.code : SlotOutcome → Byte
  | .performed => 0 | .unarmed => 1 | .notPresent => 2 | .wrongState => 3

/-- Bytes 6 to 12 of the notice record: kind, source index, value a, value b, figure (R203). -/
def NoticeBody.bytes : NoticeBody → List Byte
  | .alarmChange k (some (st, sev)) => [1, indexByte k, st.code, indexByte sev] ++ figure none
  | .alarmChange k none => [1, indexByte k, 3, 0xFF] ++ figure none
  | .regimeChange r => [2, 0, r.code, 0xFF] ++ figure none
  | .permitChange p => [3, 0, p.code, 0xFF] ++ figure none
  | .zoneChange z sight g demand shortfall =>
    [4, indexByte z, orAbsent (sight.map Sight.code), indexByte g, orAbsent (demand.map Demand.code)]
      ++ yesNo shortfall ++ [0]
  | .fanChange f state detail =>
    [5, indexByte f, state.code,
      orAbsent ((state.lockCause.map LockCause.code).or (detail.map fun d => BitVec.ofNat 8 d.code))] ++ figure none
  | .channelChange i state =>
    [6, indexByte i, state.code, orAbsent (state.cause.map fun c => BitVec.ofNat 8 c.code)] ++ figure none
  | .testResult i r => [7, indexByte i, r.code, orAbsent r.reason] ++ figure r.figure
  | .scheduleFired k a outcome _ =>
    [8, indexByte k, a.code, outcome.code] ++ figure ((a.target.or a.tag).map fun n => (n : Int))

/-- The JUMP mark and the span-armed mark of a notice (R203). -/
def NoticeBody.jump : NoticeBody → Bool
  | .scheduleFired _ _ _ jump => jump
  | .alarmChange _ _ => false | .regimeChange _ => false | .permitChange _ => false | .zoneChange _ _ _ _ _ => false
  | .fanChange _ _ _ => false | .channelChange _ _ => false | .testResult _ _ => false

def NoticeBody.spanArmed : NoticeBody → Bool
  | .testResult _ r => r.spanArmed
  | .alarmChange _ _ => false | .regimeChange _ => false | .permitChange _ => false | .zoneChange _ _ _ _ _ => false
  | .fanChange _ _ _ => false | .channelChange _ _ => false | .scheduleFired _ _ _ _ => false

/-- The 14-byte notice record (R203). -/
def Notice.bytes (n : Notice) : List Byte :=
  bytesBE 6 n.time ++ n.body.bytes
    ++ [(if n.overflow then 1 else 0) + (if n.body.jump then 2 else 0) + (if n.body.spanArmed then 4 else 0)]

/-! ## The alarm record, 25 bytes (R204) -/

def Record.bytes (k : Fin 82) (r : Record) : List Byte :=
  [indexByte k, r.state.code, indexByte r.severity, indexByte r.peak, indexByte r.reporting] ++ bytesBE 6 r.raised
    ++ bytesBE 6 (r.cleared.getD 0) ++ bytesBE 6 (r.value.getD 0) ++ bytesBE 1 r.repeats
    ++ [(if r.cleared.isSome then 1 else 0) + (if r.value.isSome then 2 else 0)]

/-! ## The trace frame's payload, 31 bytes (R205) -/

/-- The set marks of the five flags, flag k in bit k (R205). -/
def flagBits (flags : Vector Bool 5) : Byte :=
  (if flags[0] then 1 else 0) + (if flags[1] then 2 else 0) + (if flags[2] then 4 else 0) + (if flags[3] then 8 else 0)
    + (if flags[4] then 16 else 0)

def TraceRecord.bytes (t : TraceRecord) : List Byte :=
  [indexByte t.channel] ++ bytesBE 6 t.room ++ signedBE 2 t.mean ++ signedBE 4 t.baseline ++ signedBE 4 t.excess
    ++ signedBE 5 t.cRaw ++ bytesBE 2 t.reading
    ++ [t.state.code, orAbsent (t.state.cause.map fun c => BitVec.ofNat 8 c.code), flagBits t.flags, indexByte t.index]
    ++ signedBE 2 t.coefficient ++ [if t.gap then 1 else 0]

/-! ## Frames (R202) -/

/-- A frame with a kind, a tag and a payload: sync, length, kind, tag, payload, and the CRC over all but the sync (R188,
R202). -/
def frameBytes (kind tag : Byte) (payload : List Byte) : List Byte :=
  let covered := BitVec.ofNat 8 (payload.length + 2) :: kind :: tag :: payload
  0xC3 :: covered ++ bytesBE 2 (crc16 covered).toNat

/-- The bytes of the frame that is being sent, none while the transmitter is free (R190, R199, R205). -/
def State.txFrame (s : State) : List Byte :=
  match s.link.transmitter with
  | .free => []
  | .reply =>
    match s.link.outstanding with
    | some r => frameBytes r.kind r.tag r.payload
    | none => []
  | .trace t => frameBytes 0xF0 0 t.bytes

end Sys2Proof.Machine
end

