-- ==== Sys2Proof/Machine/Settle.lean ====
section
/-! DEFINITION. How the hand-overs of one step are taken: each is an event of the block that takes it, and they are taken in the
order they were made until none is left (R127, R141, R148; log entry 4). -/

namespace Sys2Proof.Machine

/-- The fan controller takes a change of the regime: at a fall below GAS-ALARM each fan tests for an owed exercise
(R91, R141). -/
def Work.takeRegimeAtFans (w : Work) (fell : Bool) : Work :=
  if fell then w.forEachOpen ((List.finRange 8).filter w.st.takesExercise) Work.testExercise else w

/-- A block takes a hand-over. -/
def Work.take (w : Work) : Handover → Work
  | .condition k image => w.takeCondition k image
  | .paused z yes => w.takePaused z yes
  | .eqz active => w.takeEqz active
  | .member z => w.ifActive z fun w => w.evaluateSight z
  | .coupling z active => w.ifActive z fun w => w.takeCoupling z active
  | .spill z => w.ifActive z fun w => w.takeSpill z
  | .critical z => w.ifActive z fun w => w.evaluateDemand z (w.st.zone z) true
  | .availability z => w.ifActive z fun w => w.evaluateAllocation z (w.st.zone z)
  | .toArbiter => w.consider
  | .toFans fell => w.takeRegimeAtFans fell
  | .completion i => w.map fun s => s.buildTrace i

/-- Take the hand-overs that have been made, oldest first, and those they lead to, at most `fuel` of them. -/
def Work.settle : Nat → Work → Work
  | 0, w => w
  | fuel + 1, w =>
    match w.out with
    | [] => w
    | h :: rest => Work.settle fuel ({ w with out := rest }.take h)

/-- More hand-overs than any one step leads to (log entry 4). -/
def settleLimit : Nat := 4096

/-- The end of a step: every hand-over is taken. -/
def Work.finish (w : Work) : State := (w.settle settleLimit).st

/-- Work done from a state as one step: the work, then every hand-over it leads to. -/
def State.does (s : State) (work : Work → Work) : State := (work s.begin).finish

end Sys2Proof.Machine
end

