-- ==== Sys2Proof/Machine/AlarmRequests.lean ====
section
/-! DEFINITION. The alarm requests and TRACE: ACKNOWLEDGE, CLEAR FLAGS, MASK, LAMP TEST, TRACE (kinds 0x10 to 0x14 of R191). -/

namespace Sys2Proof.Machine

/-! ## ACKNOWLEDGE (R133) -/

/-- A record after it is acknowledged (R133). -/
def Record.acknowledge (r : Record) : Option Record :=
  match r.state with
  | .activeUnack => some { r with state := .activeAck }
  | .clearedUnack => none
  | .activeAck => some r

/-- Whether an acknowledgement affects a record (R133). -/
def Record.unacknowledged (r : Record) : Bool :=
  match r.state with
  | .activeUnack => true
  | .clearedUnack => true
  | .activeAck => false

/-- The keys an ACKNOWLEDGE names: one, or ALL as 0xFF (R133, R201). -/
def acknowledgedKeys (key : Byte) : Option (List (Fin 82)) :=
  if key = 0xFF then some (List.finRange 82) else (readIndex 82 key).map fun k => [k]

/-- The keys among these whose record an acknowledgement affects. -/
def Alarm.affected (a : Alarm) (keys : List (Fin 82)) : List (Fin 82) :=
  keys.filter fun k => (a.record k).any Record.unacknowledged

/-- The alarm table with the records of these keys acknowledged. -/
def Alarm.acknowledge (a : Alarm) (keys : List (Fin 82)) : Alarm :=
  { a with records := Vector.ofFn fun k => if keys.contains k then (a.record k).bind Record.acknowledge else a.record k }

/-- ACKNOWLEDGE queues no ALARM CHANGE notice; the permit and the outputs follow the records (R133, R148). -/
def answerAcknowledge (key : Byte) (s : State) : Answer :=
  match acknowledgedKeys key with
  | none => refuse s .outOfRange
  | some keys =>
    let affected := s.alarm.affected keys
    accept (s.does fun w => (w.map fun s => s.setAlarm (s.alarm.acknowledge keys)).alarmPass (!affected.isEmpty) [])
      (bytesBE 1 affected.length)

/-- ACKNOWLEDGE. -/
def execAcknowledge (tag key : Byte) (s : State) : Host.Outcome State Fault Refusal :=
  goOn (takeRequest 0x10 tag (answerAcknowledge key) s)

/-! ## CLEAR FLAGS (R15) -/

/-- The flags that are set, each with its seen mark (R15); that they are listed by ascending position is the model's choice, log
entry 11. -/
def Channel.flagsLeft (c : Channel) : List Byte :=
  listBE (((List.finRange 5).filter fun k => (vget c.flags k).set).map fun k => indexByte k :: yesNo (vget c.flags k).seen)

/-- The channel with each listed flag cleared that is both set and seen (R15). -/
def Channel.clearFlags (c : Channel) (listed : List (Fin 5)) : Channel :=
  { c with flags := Vector.ofFn fun k =>
      if listed.contains k then (vget c.flags k).clearSeen else vget c.flags k }

/-- CLEAR FLAGS (R15). -/
def answerClearFlags (channel : Byte) (flags : List Byte) (s : State) : Answer :=
  match readIndex 16 channel, flags.mapM (readIndex 5) with
  | some i, some listed =>
    let after := s.does fun w => w.putChannel i ((w.st.chan i).clearFlags listed)
    accept after (after.chan i).flagsLeft
  | none, _ => refuse s .outOfRange
  | some _, none => refuse s .outOfRange

/-- CLEAR FLAGS. -/
def execClearFlags (tag channel : Byte) (flags : List Byte) (s : State) : Host.Outcome State Fault Refusal :=
  goOn (takeRequest 0x11 tag (answerClearFlags channel flags) s)

/-! ## MASK (R135, R136) -/

/-- The alarm classes in the order of R126's table. -/
def alarmClasses : List AlarmClass :=
  [.gas, .blind, .shortfall, .channelFault, .channelNote, .spill, .probeFault, .fanFail, .flowNote]

/-- A record under a change of its class's masking: removed where the class becomes masked, created from an active image
where it becomes unmasked (R136). -/
def recordAtMasking (c : AlarmClass) (was is : Bool) (room : Nat) (image : Image) (r : Option Record) : Option Record :=
  match was, is with
  | false, true => none
  | true, false => if image.active then recordAtRise c room image r else r
  | false, false => r
  | true, true => r

/-- The alarm unit with a new mask set. -/
def Alarm.setMask (a : Alarm) (channelNote flowNote : Bool) (room : Nat) : Alarm :=
  let masked := { a with maskChannelNote := channelNote, maskFlowNote := flowNote }
  { masked with records := Vector.ofFn fun k =>
      recordAtMasking (classOf k) (a.masks (classOf k)) (masked.masks (classOf k)) room (a.image k) (a.record k) }

/-- The ALARM CHANGE notices of an unmask, one for each record it creates, in key order (R136, R139). -/
def createdNotices (before after : Alarm) : List NoticeBody :=
  ((List.finRange 82).map fun k =>
    match before.record k, after.record k with
    | none, some r => [.alarmChange k (some (r.state, r.severity))]
    | none, none => []
    | some _, some _ => []
    | some _, none => []).flatten

/-- The mask set, as a list of class codes (R135); that they are listed in ascending order is the model's choice, log entry 11. -/
def Alarm.maskBytes (a : Alarm) : List Byte :=
  listBE ((alarmClasses.filter a.masks).map fun c => [c.code])

/-- MASK: the list is the whole mask set (R135, R136). -/
def answerMask (classes : List Byte) (s : State) : Answer :=
  match classes.mapM (readCode alarmClasses) with
  | none => refuse s .outOfRange
  | some named =>
    if named.any AlarmClass.latching then refuse s .notPermitted
    else
      let masked := s.alarm.setMask (named.contains .channelNote) (named.contains .flowNote) s.room
      let after := s.does fun w => (w.map fun s => s.setAlarm masked).alarmPass
        (decide (masked.records ≠ s.alarm.records)) (createdNotices s.alarm masked)
      accept after after.alarm.maskBytes

/-- MASK. -/
def execMask (tag : Byte) (classes : List Byte) (s : State) : Host.Outcome State Fault Refusal :=
  goOn (takeRequest 0x12 tag (answerMask classes) s)

/-! ## LAMP TEST (R147) -/

/-- LAMP TEST starts, or restarts, the lamp-test timer with 10 s; the outputs that follow it are views (R147). -/
def answerLampTest (s : State) : Answer :=
  accept (s.setAlarm { s.alarm with lampTimer := startTimer s.clock (seconds 10) })

/-- LAMP TEST. -/
def execLampTest (tag : Byte) (s : State) : Host.Outcome State Fault Refusal := goOn (takeRequest 0x13 tag answerLampTest s)

/-! ## TRACE (R197) -/

/-- TRACE selects a channel or none, starts the coefficient walk again and discards an unsent record (R197). -/
def answerTrace (channel : Byte) (s : State) : Answer :=
  match readIndexOrNone 16 channel with
  | none => refuse s .outOfRange
  | some selection =>
    accept (s.setLink { s.link with traceChannel := selection, traceIndex := 0, traceBuffer := none }) [indexOrNone selection]

/-- TRACE. -/
def execTrace (tag channel : Byte) (s : State) : Host.Outcome State Fault Refusal :=
  goOn (takeRequest 0x14 tag (answerTrace channel) s)

end Sys2Proof.Machine
end

