-- ==== Sys2Proof/Machine/ProbeOps.lean ====
section
/-! DEFINITION. The spill supervisor: the state machine of a probe's line and its timers, and what a probe hands on
(06_spill_probes.md). -/

namespace Sys2Proof.Machine

/-! ## The comparator (R115) -/

/-- The line condition of a resistance: SHORT below 100 Ω, WET from 100 Ω to 2 kΩ, DRY from 2 kΩ to 20 kΩ, OPEN above (R115). At
just 2 kΩ, which the table gives to WET and to DRY, it is DRY: the model's choice, log entry 23. -/
def classify : LineResistance → LineCond
  | .milliohms n =>
    if n < 100000 then .shorted else if n < 2000000 then .wet else if n ≤ 20000000 then .dry else .opened
  | .unlimited => .opened

/-- DRY and WET are the good conditions (R115). -/
def LineCond.good : LineCond → Bool
  | .wet => true
  | .dry => true
  | .shorted => false
  | .opened => false

/-! ## The line (R119 to R122) -/

/-- An evaluated probe outside FAULT takes a line that leaves a good condition: its debounce stops and the supervision timer
starts with 5 s (R119 to R121). -/
def Probe.loseLine (r : Probe) (clock : Nat) : Probe :=
  { r with debounceTimer := none, supervisionTimer := startTimer clock (seconds 5) }

/-- An evaluated probe outside FAULT takes a line that becomes, or returns to, WET (R119, R120). -/
def Probe.takeWet (r : Probe) (clock room : Nat) : Probe :=
  let good := { r with supervisionTimer := none }
  match r.state with
  | some .dry => { good with
      state := some .wetPending, wetSince := some room, debounceTimer := startTimer clock (seconds r.cfg.wetDebounce) }
  | some .wetPending => { good with debounceTimer := startTimer clock (seconds r.cfg.wetDebounce) }
  | some .wet => good
  | some .drying => { good with state := some .wet, debounceTimer := none }
  | some .fault => r
  | none => r

/-- An evaluated probe outside FAULT takes a line that becomes, or returns to, DRY (R119, R120). -/
def Probe.takeDry (r : Probe) (clock : Nat) : Probe :=
  let good := { r with supervisionTimer := none }
  match r.state with
  | some .dry => good
  | some .wetPending => { good with state := some .dry, wetSince := none, debounceTimer := none }
  | some .wet => { good with state := some .drying, debounceTimer := startTimer clock (seconds r.cfg.dryDebounce) }
  | some .drying => { good with debounceTimer := startTimer clock (seconds r.cfg.dryDebounce) }
  | some .fault => r
  | none => r

/-- A probe in FAULT takes a line: the recovery timer starts, or starts again, with 5 s at each change to a good condition, and
stops at a change to OPEN or SHORT (R122). -/
def Probe.takeInFault (r : Probe) (new : LineCond) (clock : Nat) : Probe :=
  { r with debounceTimer := if LineCond.good new then startTimer clock (seconds 5) else none }

/-- An evaluated probe takes a change of its line from one condition to another (R119 to R122). -/
def Probe.takeLine (r : Probe) (old new : LineCond) (clock room : Nat) : Probe :=
  if old = new then r
  else if r.state = some .fault then r.takeInFault new clock
  else match new with
    | .wet => r.takeWet clock room
    | .dry => r.takeDry clock
    | .shorted => if LineCond.good old then r.loseLine clock else r
    | .opened => if LineCond.good old then r.loseLine clock else r

/-! ## Expiries (R119 to R122) -/

/-- The wet debounce expires: WET, contributing (R119). -/
def Probe.becomeWet (r : Probe) : Probe := { r with state := some .wet, debounceTimer := none, contribution := true }

/-- The dry debounce expires: DRY, the spill over (R120). -/
def Probe.becomeDry (r : Probe) : Probe :=
  { r with state := some .dry, debounceTimer := none, wetSince := none, contribution := false }

/-- The fault detail of a line condition (R121). -/
def detailOf : LineCond → Option ProbeDetail
  | .opened => some .opened
  | .shorted => some .shorted
  | .wet => none
  | .dry => none

/-- The supervision timer expires: FAULT, holding a spill from WET and DRYING (R121). -/
def Probe.fail (r : Probe) : Probe :=
  let held := decide (r.state = some .wet) || decide (r.state = some .drying)
  { r with
    state := some .fault
    heldSpill := held
    wetSince := if held then r.wetSince else none
    detail := detailOf r.line
    debounceTimer := none
    supervisionTimer := none }

/-- The recovery time expires: DRY or WET by the line (R122). -/
def Probe.recover (r : Probe) (room : Nat) : Probe :=
  let whole := { r with heldSpill := false, detail := none, debounceTimer := none }
  match r.line with
  | .dry => { whole with state := some .dry, wetSince := none, contribution := false }
  | .wet => { whole with
      state := some .wet, wetSince := if r.heldSpill then r.wetSince else some room, contribution := true }
  | .shorted => r
  | .opened => r

/-! ## What a probe hands on (R123) -/

/-- SPILL's image: active while the probe contributes, with wet since as value (R123). -/
def Probe.spillImage (r : Probe) : Image := if r.contribution then .raised 2 r.wetSince else .inactive

/-- PROBE FAULT's image: active in FAULT, with the fault detail as value (R123). -/
def Probe.faultImage (r : Probe) : Image :=
  if r.state = some .fault then .raised 2 (r.detail.map fun
    | .opened => 0
    | .shorted => 1) else .inactive

/-- A change of the contribution is handed to the zone the probe is mapped to (R123). -/
def Probe.spillHandover (before after : Probe) : List Handover :=
  if before.contribution = after.contribution then []
  else match after.cfg.zone with
    | some z => [.spill z]
    | none => []

/-- A probe takes a new record, and then hands on what changed (R123). R123 leaves the order of one event's hand-overs open; that its
contribution goes to the zone first, then SPILL, then PROBE FAULT to the alarm unit is the model's choice, log entry 4. -/
def Work.moveProbe (w : Work) (p : Fin 8) (r : Probe) : Work :=
  let before := w.st.probe p
  (w.map fun s => s.setProbe p r).postAll
    (before.spillHandover r ++ changedImage (keySpill p) before.spillImage r.spillImage
      ++ changedImage (keyProbeFault p) before.faultImage r.faultImage)

end Sys2Proof.Machine
end

