-- ==== Sys2Proof/Machine/Arming.lean ====
section
/-! DEFINITION. ARM, DISARM and failsafe ventilation (10_configuration_and_arming.md; kinds 0x5E and 0x5F of R191). -/

namespace Sys2Proof.Machine

/-! ## Failsafe ventilation (R180) -/

/-- The next failsafe start (R180): the first fan of the list turns its output on, its made mark becomes yes, its start count
increases, and it leaves the list; the timer starts with 5 s where the list still holds a fan. -/
def State.failsafeStart (s : State) : State :=
  match s.setup.failsafeList with
  | [] => s.setSetup { s.setup with failsafeTimer := none }
  | i :: rest =>
    (s.setFan i { s.fan i with output := true, startCount := countStart (s.fan i).startCount }).setSetup { s.setup with
      failsafeList := rest
      failsafeMade := vset s.setup.failsafeMade i true
      failsafeTimer := if rest.isEmpty then none else startTimer s.clock (seconds 5) }

/-! ## Validation (R183) -/

/-- The used zones in ascending number (R43). -/
def State.usedZones (s : State) : List (Fin 6) := (List.finRange 6).filter s.used

/-- The present fans in ascending number. -/
def State.presentFans (s : State) : List (Fin 8) := (List.finRange 8).filter fun i => (s.fan i).cfg.present

/-- The present probes in ascending number. -/
def State.presentProbes (s : State) : List (Fin 8) := (List.finRange 8).filter fun p => (s.probe p).cfg.present

/-- The enabled channels in ascending number. -/
def State.enabledChannels (s : State) : List (Fin 16) := (List.finRange 16).filter fun i => (s.chan i).cfg.enabled

/-- Item 1: an enabled channel has zone none. -/
def State.fails1 (s : State) : Option (List Byte) :=
  (s.enabledChannels.find? fun i => (s.chan i).cfg.zone.isNone).map fun i => [1, indexByte i]

/-- Item 2: a used zone has an empty fan order. -/
def State.fails2 (s : State) : Option (List Byte) :=
  (s.usedZones.find? fun z => (s.zone z).cfg.order.isEmpty).map fun z => [2, indexByte z]

/-- The first absent fan in a zone's order. -/
def State.absentFan (s : State) (z : Fin 6) : Option (Fin 8) :=
  (s.zone z).cfg.order.find? fun i => !(s.fan i).cfg.present

/-- Item 3: a used zone's fan order names an absent fan. -/
def State.fails3 (s : State) : Option (List Byte) :=
  s.usedZones.findSome? fun z => (s.absentFan z).map fun i => [3, indexByte z, indexByte i]

/-- Item 4: a used zone's fans-needed for PURGE is 0. -/
def State.fails4 (s : State) : Option (List Byte) :=
  (s.usedZones.find? fun z => (s.zone z).cfg.needPurge = 0).map fun z => [4, indexByte z]

/-- Item 5: a present probe's zone field names an UNUSED zone. -/
def State.fails5 (s : State) : Option (List Byte) :=
  (s.presentProbes.find? fun p => (s.probe p).cfg.zone.any fun z => !s.used z).map fun p => [5, indexByte p]

/-- Item 6: a used zone's thresholds are not strictly increasing. -/
def State.fails6 (s : State) : Option (List Byte) :=
  (s.usedZones.find? fun z =>
    !decide ((s.zone z).cfg.t1 < (s.zone z).cfg.t2 ∧ (s.zone z).cfg.t2 < (s.zone z).cfg.t3)).map fun z => [6, indexByte z]

/-- The first item that fails, with the index of the record that fails it (R183). -/
def State.invalid (s : State) : Option (List Byte) :=
  s.fails1.or (s.fails2.or (s.fails3.or (s.fails4.or (s.fails5.or s.fails6))))

/-! ## ARM (R184) -/

/-- Step 1: the part is ARMED and the failsafe sequence cancelled (R180). ENTRY is a view. -/
def Setup.arm (c : Setup) : Setup :=
  { c with armed := true, failsafeList := [], failsafeTimer := none, failsafeMade := .replicate 8 false }

/-- Step 2, and step 5 of DISARM: an empty history and waiting set, no spacing, no last grant (R113, R114). -/
def Arbiter.cleared (a : Arbiter) : Arbiter :=
  { a with history := [], spacing := none, lastGrant := none, waiting := .replicate 8 none }

/-- Step 3 for an enabled channel: WARMUP from OFF, with its baseline loaded (R18). It is first sampled at a sample instant
after the ARM (log entry 6). -/
def Channel.arm (c : Channel) (clock : Nat) : Channel :=
  { c.endTest.enterWarmup clock with
    baseline := c.cfg.initialBaseline
    oorCount := 0
    validRun := 0
    windowCompleted := false
    sampledAt := some clock }

/-- Step 3: each enabled channel enters WARMUP. -/
def Work.armChannels (w : Work) : Work :=
  w.st.enabledChannels.foldl (fun w i => w.moveChannel i ((w.st.chan i).arm w.st.clock)) w

/-- The record of a present fan at ARM before it is placed (R99). -/
def Fan.armed (f : Fan) (clock : Nat) : Fan :=
  { f with
    claims := .empty
    retriesLeft := f.cfg.retries
    stopPending := false
    manualDuration := none
    exerciseOwed := false
    exerciseDue := f.nextExercise clock }

/-- Step 4 for one fan (R99): a present fan with its output on enters PROVING without a grant, a present fan with its output
off enters IDLE, an absent fan stays UNMANAGED with its output off. -/
def Work.armFan (w : Work) (i : Fin 8) : Work :=
  let f := w.st.fan i
  if !f.cfg.present then w.map fun s => s.setFan i (f.turnOff s.clock)
  else
    let ready := w.map fun s => s.setFan i (f.armed s.clock)
    if f.output then ready.enterProving i else ready.enterIdle i

/-- Step 4: each fan is placed. -/
def Work.armFans (w : Work) : Work := (List.finRange 8).foldl Work.armFan w

/-- Step 5 for one present probe: from DRY, it takes its line condition as a line event (R125). -/
def Probe.arm (r : Probe) (clock room : Nat) : Probe :=
  { Probe.absent r.cfg r.line with state := some .dry }.takeLine .dry r.line clock room

/-- Step 5: each present probe is evaluated. -/
def Work.armProbes (w : Work) : Work :=
  w.st.presentProbes.foldl (fun w p => w.moveProbe p ((w.st.probe p).arm w.st.clock w.st.room)) w

/-- A used zone as it becomes active (R65). -/
def Zone.activated (z : Zone) (eqz spill : Bool) : Zone :=
  { Zone.inactive z.cfg with active := true, coupling := eqz, spill := spill }

/-- Step 6 for one used zone: it becomes active and is evaluated (R65). -/
def Work.armZone (w : Work) (z : Fin 6) : Work :=
  (w.map fun s => s.setZone z ((s.zone z).activated s.eqz.debounced (s.spillIn z))).evaluateSight z

/-- Step 7 for one fan that the ARM placed in PROVING or RUNNING: an empty claim set is taken under R77. -/
def Work.armStop (w : Work) (i : Fin 8) : Work :=
  let f := w.st.fan i
  if f.claims.none_ then
    match f.state with
    | .proving => w.stopOrCoast i
    | .running => w.stopOrCoast i
    | .unmanaged => w | .idle => w | .waiting => w | .coasting => w | .fault => w | .lockout _ => w
  else w

/-- The sequence of R184. The zones of step 6 are taken in an open order (log entry 5), and what steps 3 to 6 hand on is taken
before the permit is computed once for the new part state (R150), and before step 7. -/
def Work.arm (w : Work) : Work :=
  let started := (List.finRange 8).filter fun i => (w.st.fan i).cfg.present && (w.st.fan i).output
  let ready := (w.map fun s => (s.setSetup s.setup.arm).setArb s.arb.cleared).armChannels.armFans.armProbes
  let zoned := (ready.forEachOpen ready.st.usedZones Work.armZone).settle settleLimit
  started.foldl Work.armStop ((zoned.alarmPass false []).settle settleLimit)

/-- ARM (R183, R184). -/
def answerArm (s : State) : Answer :=
  if !s.serviceActive then refuse s .needsService
  else if s.setup.armed then refuse s .wrongState
  else match s.invalid with
    | some item => refuse s .invalidConfig item
    | none =>
      accept (s.does Work.arm)
        (bytesBE 1 s.enabledChannels.length ++ bytesBE 1 s.usedZones.length ++ bytesBE 1 s.presentFans.length
          ++ bytesBE 1 s.presentProbes.length)

/-- ARM. -/
def execArm (tag : Byte) (s : State) : Host.Outcome State Fault Refusal := goOn (takeRequest 0x5E tag answerArm s)

/-! ## DISARM (R186, R187) -/

/-- A channel's record at DISARM (R19, R24, R152). -/
def Channel.disarmed (c : Channel) : Channel :=
  { c.endTest with
    state := .off
    timer := none
    oorCount := 0
    validRun := 0
    preload := false
    windowCompleted := false
    warmupWindow := false
    lastCode := none
    lastValid := none
    reading := none
    lastMean := none
    excess := none
    cRaw := none
    windowSum := 0
    windowCount := 0
    flags := .replicate 5 .reset }

/-- Step 1 for one channel: OFF, with a notice where it was not OFF. Its conditions are not handed over (R151). -/
def Work.disarmChannel (w : Work) (i : Fin 16) : Work :=
  let c := w.st.chan i
  let put := w.map fun s => s.setChan i c.disarmed
  if c.state = .off then put else put.notice (.channelChange i .off)

/-- Step 2 for one zone: inactive, with a notice where it was active (R66). The fans' claim sets are emptied by step 3. -/
def Work.disarmZone (w : Work) (z : Fin 6) : Work :=
  let r := w.st.zone z
  let put := w.map fun s => s.setZone z (.inactive r.cfg)
  if r.active then put.notice (.zoneChange z none 0 none false) else put

/-- A fan's record at DISARM but for its output (R100). -/
def Fan.disarmed (f : Fan) : Fan :=
  { f.stopTimers with
    state := .unmanaged
    claims := .empty
    manualDuration := none
    stopPending := false
    minRunElapsed := false
    exerciseOwed := false
    exerciseDue := none
    noteTimer := none
    clearTimer := none
    flowNote := false }

/-- Step 3 for one fan: UNMANAGED, with a notice where it was managed, its output off where its strap selects off (R100,
R187). -/
def Work.disarmFan (w : Work) (i : Fin 8) : Work :=
  let f := w.st.fan i
  let out := if vget w.st.setup.straps i then f.disarmed else f.disarmed.turnOff w.st.clock
  let put := w.map fun s => s.setFan i out
  if f.managed then put.notice (.fanChange i .unmanaged none) else put

/-- The part is UNARMED: a strap-run fan whose output is on has its made mark set, one whose output is off joins the failsafe
list, and the failsafe timer starts with 5 s where the list holds a fan (R180, R187). -/
def State.handToStraps (s : State) : State :=
  let waiting := (List.finRange 8).filter fun i => vget s.setup.straps i && !(s.fan i).output
  s.setSetup { s.setup with
    armed := false
    failsafeList := waiting
    failsafeMade := Vector.ofFn fun i => vget s.setup.straps i && (s.fan i).output
    failsafeTimer := if waiting.isEmpty then none else startTimer s.clock (seconds 5) }

/-- Step 6: no condition, no paused zone, no record (R151). -/
def Alarm.emptied (a : Alarm) : Alarm :=
  { a with images := .replicate 82 .inactive, paused := .replicate 6 false, records := .replicate 82 none }

/-- Step 7: trace is turned off (R197). -/
def State.traceOff (s : State) : State :=
  s.setLink { s.link with traceChannel := none, traceIndex := 0, traceBuffer := none }

/-- The sequence of R186. -/
def Work.disarm (w : Work) : Work :=
  let channels := (List.finRange 16).foldl Work.disarmChannel w
  let zones := (List.finRange 6).foldl Work.disarmZone channels
  let fans := (List.finRange 8).foldl Work.disarmFan zones
  let probes := fans.map fun s => { s with probes := s.probes.map fun r => Probe.absent r.cfg r.line }
  let straps := probes.map fun s => (s.setArb s.arb.cleared).handToStraps
  let alarm := (straps.map fun s => s.setAlarm s.alarm.emptied).alarmPass (!w.st.alarm.table.isEmpty) []
  alarm.map State.traceOff

/-- DISARM (R186). -/
def answerDisarm (s : State) : Answer :=
  if !s.serviceActive then refuse s .needsService
  else if !s.setup.armed then refuse s .wrongState
  else accept (s.does Work.disarm)

/-- DISARM. -/
def execDisarm (tag : Byte) (s : State) : Host.Outcome State Fault Refusal := goOn (takeRequest 0x5F tag answerDisarm s)

/-- A request of an unknown kind is answered UNKNOWN KIND (R191). A kind of 0x80 or above is no request (R190), and a kind of
the request table is not unknown; a command with such a kind has no effect (log entry 15). -/
def execUnknownKind (tag kind : Byte) (s : State) : Host.Outcome State Fault Refusal :=
  if kind.toNat < 0x80 ∧ kind ∉ requestKinds then goOn (takeRequest kind tag (fun s => refuse s .unknownKind) s) else goOn s

end Sys2Proof.Machine
end

