-- ==== Sys2Proof/Machine/TestRequests.lean ====
section
/-! DEFINITION. The test requests: CHANNEL HOLD, CHANNEL RESUME, ZERO, SPAN, BUMP (kinds 0x30 to 0x34 of R191). -/

namespace Sys2Proof.Machine

/-- The access check and the range check that every test request makes first (R153). -/
def testRequest (channel : Byte) (s : State) (act : Fin 16 → Answer) : Answer :=
  if !s.serviceActive then refuse s .needsService
  else match readIndex 16 channel with
    | none => refuse s .outOfRange
    | some i => act i

/-- The channel number and the channel's state after the request (R153). -/
def State.testReply (s : State) (i : Fin 16) : List Byte := [indexByte i, (s.chan i).state.code]

/-- A channel takes a new record, and its zone is to evaluate (R11). R12, R127 and R163 do not say whether the alarm unit takes
CHANNEL FAULT before or after the zone takes the change; the alarm unit is first, the model's choice, log entry 4. -/
def Work.moveAndTell (w : Work) (i : Fin 16) (c : Channel) : Work := (w.moveChannel i c).tellZone i

/-! ## CHANNEL HOLD (R154) -/

/-- CHANNEL HOLD, from WARMUP and TRACKING (R154). -/
def answerChannelHold (channel : Byte) (s : State) : Answer :=
  testRequest channel s fun i =>
    let held := s.does fun w => w.moveAndTell i { (s.chan i).enter .hold s.clock with armedSpan := none }
    match (s.chan i).state with
    | .warmup => accept held (held.testReply i ++ secondsBE 3600)
    | .tracking => accept held (held.testReply i ++ secondsBE 3600)
    | .off => refuse s .wrongState | .hold => refuse s .wrongState | .bump => refuse s .wrongState
    | .recover => refuse s .wrongState | .fault _ => refuse s .wrongState

/-- CHANNEL HOLD. -/
def execChannelHold (tag channel : Byte) (s : State) : Host.Outcome State Fault Refusal :=
  goOn (takeRequest 0x30 tag (answerChannelHold channel) s)

/-! ## CHANNEL RESUME (R155) -/

/-- A channel leaves HOLD or BUMP for another state, its test reported as aborted (R155, R160, R166). -/
def Work.leaveTest (w : Work) (i : Fin 16) (new : ChannelState) (reason : AbortReason) : Work :=
  let c := w.st.chan i
  (w.noticeAll (abortNotices i c reason)).moveAndTell i (c.endTest.enter new w.st.clock)

/-- CHANNEL RESUME, from HOLD to TRACKING and from BUMP to RECOVER (R155). -/
def answerChannelResume (channel : Byte) (s : State) : Answer :=
  testRequest channel s fun i =>
    let resumed := fun new => s.does fun w => w.leaveTest i new .resume
    let answer := fun (after : State) => accept after (after.testReply i ++ timerLeft after.clock (after.chan i).timer)
    match (s.chan i).state with
    | .hold => answer (resumed .tracking)
    | .bump => answer (resumed .recover)
    | .off => refuse s .wrongState | .warmup => refuse s .wrongState | .tracking => refuse s .wrongState
    | .recover => refuse s .wrongState | .fault _ => refuse s .wrongState

/-- CHANNEL RESUME. -/
def execChannelResume (tag channel : Byte) (s : State) : Host.Outcome State Fault Refusal :=
  goOn (takeRequest 0x31 tag (answerChannelResume channel) s)

/-! ## ZERO (R157) -/

/-- ZERO is accepted in HOLD and in FAULT with cause DRIFT (R157). -/
def ChannelState.takesZero : ChannelState → Bool
  | .hold => true
  | .fault .drift => true
  | .fault .loopOpen => false | .fault .loopOver => false | .fault .bumpFail => false | .fault .noRecovery => false
  | .off => false | .warmup => false | .tracking => false | .bump => false | .recover => false

/-- A channel zeroed on a mean: in HOLD it stays there, from FAULT with cause DRIFT it enters HOLD (R157). -/
def Work.zeroChannel (w : Work) (i : Fin 16) (m : Int) : Work :=
  let c := { w.st.chan i with baseline := 256 * m }
  if c.state = .hold then w.putChannel i c else w.moveAndTell i (c.enter .hold w.st.clock)

/-- The last mean that ZERO uses: none while no window has completed (R157). -/
def Channel.zeroMean (c : Channel) : Option Int := if c.windowCompleted then c.lastMean else none

/-- ZERO, with its further checks in R157's order. -/
def answerZero (channel : Byte) (s : State) : Answer :=
  testRequest channel s fun i =>
    let c := s.chan i
    if !c.state.takesZero then refuse s .wrongState
    else match c.zeroMean with
      | none => refuse s .wrongState
      | some m =>
        if (c.cfg.zeroBand : Int) < |m| then refuse s .outOfRange
        else
          let after := s.does fun w => w.zeroChannel i m
          accept after (after.testReply i ++ signedBE 3 (256 * m) ++ signedBE 2 m)

/-- ZERO. -/
def execZero (tag channel : Byte) (s : State) : Host.Outcome State Fault Refusal :=
  goOn (takeRequest 0x32 tag (answerZero channel) s)

/-! ## SPAN (R158) -/

/-- SPAN arms a span in HOLD; a known concentration outside 100 to 1000 is out of range (R153, R158). -/
def answerSpan (channel : Byte) (known : BitVec 16) (s : State) : Answer :=
  testRequest channel s fun i =>
    match inRange 100 1000 known.toNat with
    | none => refuse s .outOfRange
    | some k =>
      if (s.chan i).state = .hold then
        let after := s.setChan i { s.chan i with armedSpan := some k }
        accept after (after.testReply i ++ bytesBE 2 k ++ bytesBE 1 (s.chan i).windowCount)
      else refuse s .wrongState

/-- SPAN. -/
def execSpan (tag channel : Byte) (known : BitVec 16) (s : State) : Host.Outcome State Fault Refusal :=
  goOn (takeRequest 0x33 tag (answerSpan channel known) s)

/-! ## BUMP (R161) -/

/-- BUMP is accepted in TRACKING and in FAULT with cause BUMP-FAIL (R161). -/
def ChannelState.takesBump : ChannelState → Bool
  | .tracking => true
  | .fault .bumpFail => true
  | .fault .loopOpen => false | .fault .loopOver => false | .fault .drift => false | .fault .noRecovery => false
  | .off => false | .warmup => false | .hold => false | .bump => false | .recover => false

/-- BUMP (R161). -/
def answerBump (channel : Byte) (s : State) : Answer :=
  testRequest channel s fun i =>
    let c := s.chan i
    if c.state.takesBump then
      let after := s.does fun w => w.moveAndTell i (c.enterBump s.clock)
      accept after (after.testReply i ++ bytesBE 2 c.cfg.bumpTime ++ bytesBE 2 c.cfg.bumpLevel)
    else refuse s .wrongState

/-- BUMP. -/
def execBump (tag channel : Byte) (s : State) : Host.Outcome State Fault Refusal :=
  goOn (takeRequest 0x34 tag (answerBump channel) s)

end Sys2Proof.Machine
end

