-- ==== Sys2Proof/Machine/ChannelEvents.lean ====
section
/-! DEFINITION. The channel events: SAMPLE_EVENT and the expiries of a channel's timers. An expiry acts where its timer runs and
is due, and is otherwise no event (log entry 1). -/

namespace Sys2Proof.Machine

/-- Whether a channel takes a sample now: it is not OFF, the interval clock is at a multiple of 100 ms, and the instant has not
been sampled (R3; log entry 6). -/
def State.samples (s : State) (i : Fin 16) : Bool :=
  decide ((s.chan i).state ≠ .off) && s.clock % 100 == 0 && decide ((s.chan i).sampledAt ≠ some s.clock)

/-- SAMPLE EVENT (R3, R4). -/
def execSampleEvent (channel : Fin 16) (code : BitVec 12) (s : State) : Host.Outcome State Fault Refusal :=
  if s.samples channel then goOn (s.does fun w => w.sample channel code.toNat) else goOn s

/-- WARMUP EXPIRY: TRACKING where a window has completed since the entry to WARMUP, else the timer stops (R10). -/
def execWarmupExpiry (channel : Fin 16) (s : State) : Host.Outcome State Fault Refusal :=
  let c := s.chan channel
  if c.state = .warmup ∧ due s.clock c.timer then
    goOn (s.does fun w =>
      if c.warmupWindow then w.moveAndTell channel (c.enter .tracking s.clock) else w.putChannel channel { c with timer := none })
  else goOn s

/-- HOLD LIMIT EXPIRY: TRACKING, an armed span cancelled (R9, R160). -/
def execHoldLimitExpiry (channel : Fin 16) (s : State) : Host.Outcome State Fault Refusal :=
  if (s.chan channel).state = .hold ∧ due s.clock (s.chan channel).timer then
    goOn (s.does fun w => w.leaveTest channel .tracking .resume)
  else goOn s

/-- RECOVER LIMIT EXPIRY: FAULT with cause NO-RECOVERY (R9). -/
def execRecoverLimitExpiry (channel : Fin 16) (s : State) : Host.Outcome State Fault Refusal :=
  if (s.chan channel).state = .recover ∧ due s.clock (s.chan channel).timer then
    goOn (s.does fun w => w.moveAndTell channel ((s.chan channel).enter (.fault .noRecovery) s.clock))
  else goOn s

/-- BUMP TIMER EXPIRY: BUMP FAIL with the bump peak, and FAULT with cause BUMP-FAIL (R163). -/
def execBumpTimerExpiry (channel : Fin 16) (s : State) : Host.Outcome State Fault Refusal :=
  let c := s.chan channel
  if c.state = .bump ∧ due s.clock c.bumpTimer then
    goOn (s.does fun w => (w.notice (.testResult channel (.bumpFail c.bumpPeak))).moveAndTell channel
      (c.endTest.enter (.fault .bumpFail) s.clock))
  else goOn s

end Sys2Proof.Machine
end

