-- ==== Sys2Proof/Machine/Clock.lean ====
section
/-! DEFINITION. Power-on reset, and the millisecond of the interval clock: the two clocks, the trim, and the reading of the
conditioned lines (R51, R71, R167, R168, R179, R192). -/

namespace Sys2Proof.Machine

/-! ## Conditioned lines (R51, R71, R192) -/

/-- The debounce times: EQZ 2 s (R51), FLOW 1 s (R71), SERVICE 1 s (R192). -/
def eqzDebounceTime : Nat := seconds 2
def flowDebounceTime : Nat := seconds 1
def serviceDebounceTime : Nat := seconds 1

/-- A line is read: the measurement starts where the line first shows the other level, runs on while it does, and is discarded
at a return to the debounced value (R51, R71, R192; log entry 2). -/
def Conditioner.read (c : Conditioner) (level : Bool) (now time : Nat) : Conditioner :=
  { c with
    line := level
    timer := if level = c.debounced then none else if c.timer.isSome then c.timer else some (now + time) }

/-- The debounced value changes: the line has shown the other level for the whole debounce time. -/
def Conditioner.toggle (c : Conditioner) : Conditioner := { c with debounced := !c.debounced, timer := none }

/-- Every conditioned line is read. -/
def State.readLines (s : State) (lines : Lines) : State :=
  { s with
    eqz := s.eqz.read lines.eqz s.clock eqzDebounceTime
    fans := Vector.ofFn fun i =>
      { s.fan i with flow := (s.fan i).flow.read (lines.flow.getLsbD i.val) s.clock flowDebounceTime }
    link := { s.link with service := s.link.service.read lines.service s.clock serviceDebounceTime } }

/-! ## Power-on reset (R179) -/

/-- Every block at its reset values, with the lines as they are read at the end of the reset: the latched straps and the
failsafe list (R178), the conditioned lines, and the PROBE lines as the comparator first classifies them (R115). The queue of
commands and the count of open orders are not the part's. -/
def State.poweredOn (s : State) (lines : ResetLines) : State :=
  let straps : Vector Bool 8 := Vector.ofFn fun i => lines.safe.getLsbD i.val
  { State.reset.readLines lines.lines with
    probes := lines.probes.map fun r => Probe.absent .reset (classify r)
    setup := { Setup.reset with
      straps := straps, failsafeList := (List.finRange 8).filter fun i => vget straps i }
    pending := s.pending
    choices := s.choices }

/-- POWER ON RESET: the reset values, and the first failsafe start at interval clock 0 (R179, R180). -/
def execPowerOnReset (lines : ResetLines) (s : State) : Host.Outcome State Fault Refusal :=
  goOn (s.poweredOn lines).failsafeStart

/-! ## The millisecond (R167, R168) -/

/-- The interval clock counts up; past its limit it is a free value (R167; log entry 8). -/
def nextClock (clock : Nat) : Nat := if clock < 2 ^ 48 - 1 then clock + 1 else Config.clockPastLimit.toNat

/-- The trim carries at this millisecond (R168). -/
def Timebase.carries (t : Timebase) : Bool := 16777216 ≤ t.acc + t.rate

/-- By how much room time advances at this millisecond (R168). -/
def Timebase.advance (t : Timebase) : Nat :=
  if t.carries then (match t.sense with | .fast => 2 | .slow => 0) else 1

/-- The timebase at the next millisecond; room time past 2^48 - 1 continues from the remainder (R168). -/
def Timebase.tick (t : Timebase) : Timebase :=
  { t with
    clock := nextClock t.clock
    acc := if t.carries then t.acc + t.rate - 16777216 else t.acc + t.rate
    room := (t.room + t.advance) % 2 ^ 48 }

/-- MILLISECOND OF INTERVAL CLOCK: the clocks advance and the conditioned lines are read. The events that the new instant makes
due are commands of their own (log entry 1). -/
def execMillisecond (lines : Lines) (s : State) : Host.Outcome State Fault Refusal :=
  goOn ((s.setTime s.time.tick).readLines lines)

end Sys2Proof.Machine
end

