-- ==== Sys2Proof/Machine/ConfigRequests.lean ====
section
/-! DEFINITION. The configuration requests that write one record: SET CHANNEL, SET PROFILE, SET ZONE, SET FAN, SET PROBE,
SET ARBITER (kinds 0x50 to 0x55 of R191). -/

namespace Sys2Proof.Machine

/-! ## SET CHANNEL (R181, R182) -/

/-- How many enabled channels other than `i` name a zone (R182). -/
def State.otherMembers (s : State) (i : Fin 16) (z : Fin 6) : Nat :=
  ((s.members z).filter fun j => j ≠ i).length

/-- The membership test of R182: a fifth enabled channel may not name a zone. -/
def State.zoneFull (s : State) (i : Fin 16) (c : ChannelCfg) : Bool :=
  match c.zone with
  | some z => c.enabled && 4 ≤ s.otherMembers i z
  | none => false

/-- SET CHANNEL (R181, R182). -/
def answerSetChannel (channel : Byte) (fields : ChannelFields) (s : State) : Answer :=
  if !s.serviceActive then refuse s .needsService
  else match readIndex 16 channel, ChannelFields.read fields with
    | some i, some cfg =>
      if s.setup.armed then refuse s .wrongState
      else if s.zoneFull i cfg then refuse s .tableFull
      else accept (s.setChan i { s.chan i with cfg := cfg }) (indexByte i :: cfg.bytes)
    | none, _ => refuse s .outOfRange
    | some _, none => refuse s .outOfRange

/-- SET CHANNEL. -/
def execSetChannel (tag channel : Byte) (fields : ChannelFields) (s : State) : Host.Outcome State Fault Refusal :=
  goOn (takeRequest 0x50 tag (answerSetChannel channel fields) s)

/-! ## SET PROFILE (R21, R22) -/

/-- A channel in one of these states locks the profile it selects (R22). -/
def ChannelState.locksProfile : ChannelState → Bool
  | .warmup => true | .tracking => true | .bump => true | .recover => true
  | .off => false | .hold => false | .fault _ => false

/-- The channels that hold a profile's lock, in ascending number (R22). -/
def State.lockHolders (s : State) (p : Fin 4) : List (Fin 16) :=
  (List.finRange 16).filter fun i => decide ((s.chan i).cfg.profile = p) && (s.chan i).state.locksProfile

/-- SET PROFILE (R21 to R23). -/
def answerSetProfile (profile : Byte) (coefficients : Vector (BitVec 16) 10) (s : State) : Answer :=
  if !s.serviceActive then refuse s .needsService
  else match readIndex 4 profile, readProfile coefficients with
    | some p, some new =>
      if s.setup.armed && !(s.lockHolders p).isEmpty then
        refuse s .inUse (listBE ((s.lockHolders p).map fun i => [indexByte i]))
      else accept (s.setProfile p new) [indexByte p]
    | none, _ => refuse s .outOfRange
    | some _, none => refuse s .outOfRange

/-- SET PROFILE. -/
def execSetProfile (tag profile : Byte) (coefficients : Vector (BitVec 16) 10) (s : State) :
    Host.Outcome State Fault Refusal :=
  goOn (takeRequest 0x51 tag (answerSetProfile profile coefficients) s)

/-! ## SET ZONE, SET FAN, SET PROBE (R181) -/

/-- SET ZONE (R42, R181). -/
def answerSetZone (zone : Byte) (fields : ZoneFields) (s : State) : Answer :=
  if !s.serviceActive then refuse s .needsService
  else match readIndex 6 zone, ZoneFields.read fields with
    | some z, some cfg =>
      if s.setup.armed then refuse s .wrongState
      else accept (s.setZone z { s.zone z with cfg := cfg }) (indexByte z :: cfg.bytes)
    | none, _ => refuse s .outOfRange
    | some _, none => refuse s .outOfRange

/-- SET ZONE. -/
def execSetZone (tag zone : Byte) (fields : ZoneFields) (s : State) : Host.Outcome State Fault Refusal :=
  goOn (takeRequest 0x52 tag (answerSetZone zone fields) s)

/-- SET FAN (R67, R181). -/
def answerSetFan (fan : Byte) (fields : FanFields) (s : State) : Answer :=
  if !s.serviceActive then refuse s .needsService
  else match readIndex 8 fan, FanFields.read fields with
    | some i, some cfg =>
      if s.setup.armed then refuse s .wrongState
      else accept (s.setFan i { s.fan i with cfg := cfg }) (indexByte i :: cfg.bytes)
    | none, _ => refuse s .outOfRange
    | some _, none => refuse s .outOfRange

/-- SET FAN. -/
def execSetFan (tag fan : Byte) (fields : FanFields) (s : State) : Host.Outcome State Fault Refusal :=
  goOn (takeRequest 0x53 tag (answerSetFan fan fields) s)

/-- SET PROBE (R116, R181). -/
def answerSetProbe (probe : Byte) (fields : ProbeFields) (s : State) : Answer :=
  if !s.serviceActive then refuse s .needsService
  else match readIndex 8 probe, ProbeFields.read fields with
    | some p, some cfg =>
      if s.setup.armed then refuse s .wrongState
      else accept (s.setProbe p { s.probe p with cfg := cfg }) (indexByte p :: cfg.bytes)
    | none, _ => refuse s .outOfRange
    | some _, none => refuse s .outOfRange

/-- SET PROBE. -/
def execSetProbe (tag probe : Byte) (fields : ProbeFields) (s : State) : Host.Outcome State Fault Refusal :=
  goOn (takeRequest 0x54 tag (answerSetProbe probe fields) s)

/-! ## SET ARBITER (R101) -/

/-- SET ARBITER replaces the three settings (R101). -/
def answerSetArbiter (fields : ArbiterFields) (s : State) : Answer :=
  if !s.serviceActive then refuse s .needsService
  else match ArbiterFields.read fields with
    | none => refuse s .outOfRange
    | some (k, w, g) =>
      if s.setup.armed then refuse s .wrongState
      else
        let after := s.setArb { s.arb with k := k, w := w, g := g }
        accept after after.arb.settings

/-- SET ARBITER. -/
def execSetArbiter (tag : Byte) (fields : ArbiterFields) (s : State) : Host.Outcome State Fault Refusal :=
  goOn (takeRequest 0x55 tag (answerSetArbiter fields) s)

end Sys2Proof.Machine
end

