-- ==== Sys2Proof/Machine/FanEvents.lean ====
section
/-! DEFINITION. The fan events: FLOW_DEBOUNCE and the expiries of a fan's timers (R71 to R95). An expiry acts where its timer runs
and is due, and is otherwise no event (log entry 1). -/

namespace Sys2Proof.Machine

/-- A fan takes a change of its debounced flow (R71): a proving fan whose flow becomes present enters RUNNING (R76); in RUNNING
the flow-loss timer starts at its loss and stops at its return (R80). -/
def Work.takeFlow (w : Work) (i : Fin 8) : Work :=
  let f := { w.st.fan i with flow := (w.st.fan i).flow.toggle }
  match f.state with
  | .proving => if f.flow.debounced then (w.moveFan i f).enterRunning i else w.moveFan i f
  | .running => w.moveFan i { f with
      flowLossTimer := if f.flow.debounced then none else startTimer w.st.clock (seconds f.cfg.lossTolerance) }
  | .unmanaged => w.moveFan i f | .idle => w.moveFan i f | .waiting => w.moveFan i f | .coasting => w.moveFan i f
  | .fault => w.moveFan i f | .lockout _ => w.moveFan i f

/-- FLOW DEBOUNCE (R71). -/
def execFlowDebounce (fan : Fin 8) (s : State) : Host.Outcome State Fault Refusal :=
  if due s.clock (s.fan fan).flow.timer then goOn (s.does fun w => w.takeFlow fan) else goOn s

/-- PROVING EXPIRY: FAULT with detail NO-PROOF (R81). -/
def execProvingExpiry (fan : Fin 8) (s : State) : Host.Outcome State Fault Refusal :=
  if (s.fan fan).state = .proving ∧ due s.clock (s.fan fan).provingTimer then
    goOn (s.does fun w => w.moveFan fan ((s.fan fan).faulted s.clock .noProof))
  else goOn s

/-- MIN RUN EXPIRY: min-run elapsed becomes yes, and a stop-pending fan enters COASTING (R78). -/
def execMinRunExpiry (fan : Fin 8) (s : State) : Host.Outcome State Fault Refusal :=
  let f := s.fan fan
  if (f.state = .proving ∨ f.state = .running) ∧ due s.clock f.minRunTimer then
    let elapsed := { f with minRunTimer := none, minRunElapsed := true }
    goOn (s.does fun w =>
      if f.stopPending then w.moveFan fan (elapsed.coasting s.clock) else w.moveFan fan elapsed)
  else goOn s

/-- COAST EXPIRY: WAITING with a claim, IDLE without (R79). -/
def execCoastExpiry (fan : Fin 8) (s : State) : Host.Outcome State Fault Refusal :=
  if (s.fan fan).state = .coasting ∧ due s.clock (s.fan fan).coastTimer then
    goOn (s.does fun w => if (s.fan fan).claims.none_ then w.enterIdle fan else w.enterWaiting fan)
  else goOn s

/-- The retry time ends: with a retry left the fan spends it and enters IDLE, else it locks out with cause RETRIES (R82). -/
def Work.retryFan (w : Work) (i : Fin 8) : Work :=
  let f := w.st.fan i
  if f.retriesLeft = 0 then w.moveFan i (f.locked w.st.clock .retries)
  else (w.moveFan i { f with state := .idle, retryTimer := none, retriesLeft := f.retriesLeft - 1 }).testExercise i

/-- RETRY EXPIRY (R82). -/
def execRetryExpiry (fan : Fin 8) (s : State) : Host.Outcome State Fault Refusal :=
  if (s.fan fan).state = .fault ∧ due s.clock (s.fan fan).retryTimer then goOn (s.does fun w => w.retryFan fan) else goOn s

/-- FLOW LOSS EXPIRY: FAULT with detail FLOW-LOST (R80, R81). -/
def execFlowLossExpiry (fan : Fin 8) (s : State) : Host.Outcome State Fault Refusal :=
  if (s.fan fan).state = .running ∧ due s.clock (s.fan fan).flowLossTimer then
    goOn (s.does fun w => w.moveFan fan ((s.fan fan).faulted s.clock .flowLost))
  else goOn s

/-- MANUAL TIMER EXPIRY: the MANUAL claim is removed (R86). -/
def execManualTimerExpiry (fan : Fin 8) (s : State) : Host.Outcome State Fault Refusal :=
  if due s.clock (s.fan fan).manualTimer then
    goOn (s.does fun w =>
      (w.map fun s => s.setFan fan { s.fan fan with manualTimer := none, manualDuration := none }).removeClaim fan .manual)
  else goOn s

/-- EXERCISE RUN EXPIRY: the EXERCISE claim is removed (R92). -/
def execExerciseRunExpiry (fan : Fin 8) (s : State) : Host.Outcome State Fault Refusal :=
  if due s.clock (s.fan fan).exerciseTimer then
    goOn (s.does fun w => (w.map fun s => s.setFan fan { s.fan fan with exerciseTimer := none }).removeClaim fan .exercise)
  else goOn s

/-- EXERCISE DUE: the interval clock has reached the fan's exercise due time (R90). -/
def execExerciseDue (fan : Fin 8) (s : State) : Host.Outcome State Fault Refusal :=
  if due s.clock (s.fan fan).exerciseDue then goOn (s.does fun w => w.exerciseFallsDue fan) else goOn s

/-- FLOW NOTE EXPIRY: FLOW NOTE becomes active (R95). -/
def execFlowNoteExpiry (fan : Fin 8) (s : State) : Host.Outcome State Fault Refusal :=
  if due s.clock (s.fan fan).noteTimer then
    goOn (s.does fun w => w.moveFan fan { s.fan fan with flowNote := true, noteTimer := none })
  else goOn s

/-- FLOW CLEAR EXPIRY: FLOW NOTE becomes inactive (R95). -/
def execFlowClearExpiry (fan : Fin 8) (s : State) : Host.Outcome State Fault Refusal :=
  if due s.clock (s.fan fan).clearTimer then
    goOn (s.does fun w => w.moveFan fan { s.fan fan with flowNote := false, clearTimer := none })
  else goOn s

/-! ## The start arbiter (R103, R104) -/

/-- The oldest entry of the start history has aged out (R103). -/
def State.agesOut (s : State) : Bool :=
  match s.arb.history with
  | t :: _ => t + seconds s.arb.w ≤ s.clock
  | [] => false

/-- HISTORY AGE OUT: the oldest entry leaves, and a grant is considered (R103, R108). -/
def execHistoryAgeOut (s : State) : Host.Outcome State Fault Refusal :=
  if s.agesOut then
    goOn (s.does fun w => (w.map fun s => s.setArb { s.arb with history := s.arb.history.drop 1 }).consider)
  else goOn s

/-- SPACING EXPIRY: the spacing timer stops, and a grant is considered (R104, R108). -/
def execSpacingExpiry (s : State) : Host.Outcome State Fault Refusal :=
  if due s.clock s.arb.spacing then
    goOn (s.does fun w => (w.map fun s => s.setArb { s.arb with spacing := none }).consider)
  else goOn s

end Sys2Proof.Machine
end

