-- ==== Sys2Proof/Machine/FanRequests.lean ====
section
/-! DEFINITION. The fan and zone requests: FAN START, FAN STOP, FAN LOCK, FAN RELEASE, ROTATE (kinds 0x20 to 0x24 of R191). -/

namespace Sys2Proof.Machine

/-! ## FAN START (R85) -/

/-- The longest run of FAN START and of a START slot, in seconds (R85, R173). -/
def longestRun : Nat := 86400

/-- FAN START: the MANUAL claim is added or kept, with the duration clamped (R85). -/
def answerFanStart (fan : Byte) (duration : BitVec 24) (s : State) : Answer :=
  match readIndex 8 fan with
  | none => refuse s .outOfRange
  | some i =>
    if !(s.fan i).cfg.present then refuse s .notPresent
    else if !(s.fan i).takesClaims then refuse s .wrongState
    else
      let after := s.does fun w => w.startManual i (min longestRun duration.toNat)
      { st := after, status := .ok, marks := { clamped := longestRun < duration.toNat }, body := [(after.fan i).state.code] }

/-- FAN START. -/
def execFanStart (tag fan : Byte) (duration : BitVec 24) (s : State) : Host.Outcome State Fault Refusal :=
  goOn (takeRequest 0x20 tag (answerFanStart fan duration) s)

/-! ## FAN STOP (R87) -/

/-- FAN STOP: the MANUAL claim is removed where the set holds it (R87). -/
def answerFanStop (fan : Byte) (s : State) : Answer :=
  match readIndex 8 fan with
  | none => refuse s .outOfRange
  | some i =>
    if !(s.fan i).cfg.present then refuse s .notPresent
    else
      let held := (s.fan i).claims.manual
      let after := s.does fun w => w.removeClaim i .manual
      { st := after, status := .ok
        marks := { stillClaimed := held && !((s.fan i).claims.remove .manual).none_, noClaim := !held }
        body := (after.fan i).state.code :: listBE (after.fan i).claims.codes }

/-- FAN STOP. -/
def execFanStop (tag fan : Byte) (s : State) : Host.Outcome State Fault Refusal :=
  goOn (takeRequest 0x21 tag (answerFanStop fan) s)

/-! ## FAN LOCK (R88) -/

/-- The record of a fan that FAN LOCK moves to LOCKOUT (R88). FLOW NOTE's two timers stop with the others, and each that R95 runs in
LOCKOUT starts anew with its 10 s; `Work.moveFan` stops the other (log entry 18). -/
def Fan.lockedByHand (f : Fan) (clock : Nat) : Fan :=
  { f.locked clock .manual with
    noteTimer := startTimer clock (seconds 10)
    clearTimer := startTimer clock (seconds 10) }

/-- The fan enters LOCKOUT with cause MANUAL, and leaves the waiting set (R88, R105). -/
def Work.lockFan (w : Work) (i : Fin 8) : Work :=
  (w.moveFan i ((w.st.fan i).lockedByHand w.st.clock)).map fun s => s.leaveWaiting i

/-- Whether a fan is in LOCKOUT. -/
def FanState.lockedOut : FanState → Bool
  | .lockout _ => true
  | .unmanaged => false | .idle => false | .waiting => false | .proving => false | .running => false | .coasting => false
  | .fault => false

/-- FAN LOCK (R88). From LOCKOUT it is accepted and changes nothing. -/
def answerFanLock (fan : Byte) (s : State) : Answer :=
  if !s.serviceActive then refuse s .needsService
  else match readIndex 8 fan with
    | none => refuse s .outOfRange
    | some i =>
      if !(s.fan i).cfg.present then refuse s .notPresent
      else if !(s.fan i).managed then refuse s .wrongState
      else if (s.fan i).state.lockedOut then accept s
      else accept (s.does fun w => w.lockFan i)

/-- FAN LOCK. -/
def execFanLock (tag fan : Byte) (s : State) : Host.Outcome State Fault Refusal :=
  goOn (takeRequest 0x22 tag (answerFanLock fan) s)

/-! ## FAN RELEASE (R89) -/

/-- The instant at which a fan may start again: the coast time after its output turned off (R89). -/
def Fan.restAfter (f : Fan) : Option Nat := f.offTime.map fun t => t + seconds f.cfg.coast

/-- A fan is released: to IDLE where its output has been off for the coast time, else to COASTING for the remainder (R89). -/
def Work.releaseFan (w : Work) (i : Fin 8) : Work :=
  let f := { w.st.fan i with retriesLeft := (w.st.fan i).cfg.retries }
  match f.restAfter with
  | none => (w.moveFan i { f with state := .idle }).testExercise i
  | some t =>
    if t ≤ w.st.clock then (w.moveFan i { f with state := .idle }).testExercise i
    else w.moveFan i { f with state := .coasting, coastTimer := some t }

/-- FAN RELEASE (R89). -/
def answerFanRelease (fan : Byte) (s : State) : Answer :=
  if !s.serviceActive then refuse s .needsService
  else match readIndex 8 fan with
    | none => refuse s .outOfRange
    | some i =>
      if !(s.fan i).cfg.present then refuse s .notPresent
      else if !(s.fan i).state.lockedOut then refuse s .wrongState
      else
        let after := s.does fun w => w.releaseFan i
        accept after ((after.fan i).state.code :: timerLeft after.clock (after.fan i).coastTimer)

/-- FAN RELEASE. -/
def execFanRelease (tag fan : Byte) (s : State) : Host.Outcome State Fault Refusal :=
  goOn (takeRequest 0x23 tag (answerFanRelease fan) s)

/-! ## ROTATE (R63) -/

/-- ROTATE (R63). -/
def answerRotate (zone : Byte) (s : State) : Answer :=
  match readIndex 6 zone with
  | none => refuse s .outOfRange
  | some z =>
    if !s.setup.armed then refuse s .wrongState
    else if !s.used z then refuse s .notPresent
    else
      let after := s.does fun w => w.rotateZone z
      accept after (fanList (after.zone z).cfg.order ++ fanList (after.zone z).claims)

/-- ROTATE. -/
def execRotate (tag zone : Byte) (s : State) : Host.Outcome State Fault Refusal :=
  goOn (takeRequest 0x24 tag (answerRotate zone) s)

end Sys2Proof.Machine
end

