-- ==== Sys2Proof/Machine/Reports.lean ====
section
/-! DEFINITION. The reports: STATUS and the READ requests (kinds 0x01 to 0x0A of R191). Each `answer…` is what the request does
once it is taken; each `exec…` is the command of that name. -/

namespace Sys2Proof.Machine

/-! ## STATUS (R196) -/

/-- The lead alarm: key, state and reporting severity, or the empty mark (R137). -/
def State.leadAlarm (s : State) : List Byte :=
  match s.alarm.report.head? with
  | some (k, r) => [1, indexByte k, r.state.code, indexByte r.reporting]
  | none => [0, 0, 0, 0]

/-- A zone's row of STATUS. -/
def Zone.statusRow (z : Zone) : List Byte :=
  yesNo z.active ++ optionalCode (z.sight.map Sight.code) ++ [indexByte z.gas] ++ optionalCode (z.demand.map Demand.code)
    ++ yesNo z.shortfall

/-- A fan's row of STATUS. -/
def Fan.statusRow (f : Fan) : List Byte := f.state.code :: yesNo f.output

/-- A channel's row of STATUS. -/
def Channel.statusRow (c : Channel) : List Byte := c.state.code :: optionalBE 2 c.reading

/-- The fields of the STATUS reply, in the order of R196. -/
def State.statusBody (s : State) : List Byte :=
  yesNo s.setup.armed ++ [s.alarm.regime.code, s.alarm.permit.code] ++ yesNo s.horn ++ yesNo s.beacon ++ yesNo s.entry
    ++ timerLeft s.clock s.alarm.lampTimer ++ s.leadAlarm ++ bytesBE 1 s.alarm.table.length ++ bytesBE 2 s.alarm.version.toNat
    ++ bytesBE 1 s.link.notices.length ++ yesNo (s.link.notices.any Notice.overflow)
    ++ yesNo s.link.service.debounced ++ yesNo s.eqz.debounced ++ bytesBE 6 s.room ++ bytesBE 6 s.clock
    ++ [indexOrNone s.link.traceChannel]
    ++ (s.zones.toList.map Zone.statusRow).flatten ++ (s.fans.toList.map Fan.statusRow).flatten
    ++ (s.chans.toList.map Channel.statusRow).flatten

/-- STATUS changes nothing (R196). -/
def answerStatus (s : State) : Answer := accept s s.statusBody

/-- STATUS. -/
def execStatus (tag : Byte) (s : State) : Host.Outcome State Fault Refusal := goOn (takeRequest 0x01 tag answerStatus s)

/-! ## READ CHANNEL (R17) -/

/-- A flag with its set mark and its seen mark. -/
def FlagMark.bytes (m : FlagMark) : List Byte := yesNo m.set ++ yesNo m.seen

/-- The fields of the READ CHANNEL reply, in the order of R17. -/
def State.channelBody (s : State) (i : Fin 16) : List Byte :=
  let c := s.chan i
  [indexByte i] ++ c.cfg.bytes ++ [c.state.code] ++ optionalCode (c.state.cause.map fun x => BitVec.ofNat 8 x.code)
    ++ yesNo c.healthy ++ optionalBE 2 c.lastCode ++ optionalSigned 2 c.lastValid ++ bytesBE 1 c.oorCount ++ [c.oorDir.code]
    ++ bytesBE 1 c.validRun ++ timerLeft s.clock c.timer ++ (c.flags.toList.map FlagMark.bytes).flatten
    ++ optionalBE 2 c.reading ++ optionalSigned 2 c.lastMean ++ signedBE 3 c.baseline ++ optionalSigned 3 c.excess
    ++ optionalSigned 5 c.cRaw ++ bytesBE 1 c.windowCount ++ yesNo c.windowCompleted
    ++ timerLeft s.clock c.bumpTimer ++ optionalBE 2 c.bumpPeak ++ optionalBE 2 c.armedSpan

/-- The channel once its flags have been read (R14). -/
def Channel.readFlags (c : Channel) : Channel := { c with flags := c.flags.map FlagMark.read }

/-- READ CHANNEL reports, then sets the seen marks of the flags that are set (R14, R17). -/
def answerReadChannel (channel : Byte) (s : State) : Answer :=
  match readIndex 16 channel with
  | none => refuse s .outOfRange
  | some i => accept (s.setChan i (s.chan i).readFlags) (s.channelBody i)

/-- READ CHANNEL. -/
def execReadChannel (tag channel : Byte) (s : State) : Host.Outcome State Fault Refusal :=
  goOn (takeRequest 0x02 tag (answerReadChannel channel) s)

/-! ## READ ZONE (R64) -/

/-- A member's row. -/
def State.memberRow (s : State) (i : Fin 16) : List Byte :=
  [indexByte i, (s.chan i).state.code] ++ optionalBE 2 (s.chan i).reading ++ yesNo (s.chan i).healthy

/-- The probes that contribute a spill to a zone (R53); that READ ZONE lists them in ascending number is the model's choice, log
entry 9. -/
def State.contributors (s : State) (z : Fin 6) : List (Fin 8) :=
  (List.finRange 8).filter fun p =>
    (s.probe p).cfg.present && decide ((s.probe p).cfg.zone = some z) && (s.probe p).contribution

/-- The fields of the READ ZONE reply, in the order of R64. -/
def State.zoneBody (s : State) (z : Fin 6) : List Byte :=
  let r := s.zone z
  [indexByte z] ++ r.cfg.bytes ++ yesNo (s.used z) ++ yesNo r.active ++ listBE ((s.members z).map s.memberRow)
    ++ optionalCode (r.sight.map Sight.code) ++ optionalBE 2 r.voted ++ [indexByte r.gas] ++ timerLeft s.clock r.holdTimer
    ++ yesNo s.eqz.debounced ++ yesNo r.coupling ++ timerLeft s.clock r.lingerTimer
    ++ yesNo r.spill ++ fanList (s.contributors z)
    ++ optionalCode (r.demand.map Demand.code) ++ bytesBE 1 r.needed
    ++ listBE (r.claims.map fun f => [indexByte f, (s.fan f).state.code]) ++ yesNo r.shortfall

/-- READ ZONE. -/
def answerReadZone (zone : Byte) (s : State) : Answer :=
  match readIndex 6 zone with
  | none => refuse s .outOfRange
  | some z => accept s (s.zoneBody z)

/-- READ ZONE. -/
def execReadZone (tag zone : Byte) (s : State) : Host.Outcome State Fault Refusal :=
  goOn (takeRequest 0x03 tag (answerReadZone zone) s)

/-! ## READ FAN (R97) -/

/-- The fields of the READ FAN reply, in the order of R97. R97 names no rounding for the age of the request time; that it is rounded
down, as R112 rounds the same age, is the model's choice, log entry 9. -/
def State.fanBody (s : State) (i : Fin 8) : List Byte :=
  let f := s.fan i
  let now := s.clock
  [indexByte i] ++ f.cfg.bytes ++ [strapCode (vget s.setup.straps i), f.state.code]
    ++ optionalCode (f.state.lockCause.map LockCause.code) ++ yesNo f.output ++ yesNo (f.available s.alarm.regime)
    ++ yesNo (s.requestTime i).isSome ++ optionalSeconds ((s.requestTime i).map (secondsSince now))
    ++ listBE f.claims.codes ++ optionalBE 3 f.manualDuration ++ timerLeft now f.manualTimer
    ++ yesNo f.stopPending ++ yesNo f.minRunElapsed ++ bytesBE 1 f.retriesLeft
    ++ timerLeft now f.provingTimer ++ timerLeft now f.minRunTimer ++ timerLeft now f.coastTimer ++ timerLeft now f.retryTimer
    ++ timerLeft now f.flowLossTimer ++ timerLeft now f.exerciseTimer
    ++ optionalSeconds (f.offTime.map (secondsSince now)) ++ timerLeft now f.exerciseDue ++ yesNo f.exerciseOwed
    ++ bytesBE 2 f.startCount ++ optionalCode (f.lastFault.map fun d => BitVec.ofNat 8 d.code)
    ++ [flowCode f.flow.line, flowCode f.flow.debounced] ++ yesNo f.flowNote ++ yesNo f.failed

/-- READ FAN. -/
def answerReadFan (fan : Byte) (s : State) : Answer :=
  match readIndex 8 fan with
  | none => refuse s .outOfRange
  | some i => accept s (s.fanBody i)

/-- READ FAN. -/
def execReadFan (tag fan : Byte) (s : State) : Host.Outcome State Fault Refusal :=
  goOn (takeRequest 0x04 tag (answerReadFan fan) s)

/-! ## READ ARBITER (R112) -/

/-- Why the next grant is held off, in the order of R112. -/
inductive HoldOff where
  | empty | budget | spacing | inhibited | ready
  deriving DecidableEq, Repr

/-- The code of a hold-off (R200). -/
def HoldOff.code : HoldOff → Byte
  | .empty => 0 | .budget => 1 | .spacing => 2 | .inhibited => 3 | .ready => 4

/-- The first hold-off that applies, by the ordered tests of R112. R112 also says that READY is reported when the request is taken at
the moment of an event that grants, before that event; but while a spacing expiry or an ageing that is due has not been taken yet, the
timer still runs and the history still holds its entry, so the tests give SPACING or BUDGET. That the tests decide, so that no run
reports READY, is the model's choice, log entry 25. -/
def State.holdOff (s : State) : HoldOff :=
  if s.waitingFans.isEmpty then .empty
  else if s.arb.k ≤ s.arb.history.length then .budget
  else if s.arb.spacing.isSome then .spacing
  else if s.waitingFans.all s.inhibited then .inhibited
  else .ready

/-- A waiting fan's row (R112). -/
def State.waitingRow (s : State) (i : Fin 8) : List Byte :=
  [indexByte i, (s.fan i).cfg.rating.code, indexByte (s.classRank i)]
    ++ secondsBE (secondsSince s.clock ((s.requestTime i).getD 0)) ++ yesNo (s.inhibited i)

/-- The last grant: the fan and the age of the grant, or absent (R112). -/
def State.lastGrantBytes (s : State) : List Byte :=
  match s.arb.lastGrant with
  | some (f, t) => [1, indexByte f] ++ secondsBE (secondsSince s.clock t)
  | none => List.replicate 6 0

/-- The fields of the READ ARBITER reply, in the order of R112. -/
def State.arbiterBody (s : State) : List Byte :=
  s.arb.settings ++ listBE (s.arb.history.map fun t => secondsBE (secondsSince s.clock t))
    ++ timerLeft s.clock s.arb.spacing ++ s.lastGrantBytes ++ listBE (s.grantOrder.map s.waitingRow) ++ [s.holdOff.code]

/-- READ ARBITER. -/
def answerReadArbiter (s : State) : Answer := accept s s.arbiterBody

/-- READ ARBITER. -/
def execReadArbiter (tag : Byte) (s : State) : Host.Outcome State Fault Refusal :=
  goOn (takeRequest 0x05 tag answerReadArbiter s)

/-! ## READ ALARMS (R138) -/

/-- READ ALARMS reports up to eight records in report order from a position. -/
def answerReadAlarms (first : Byte) (s : State) : Answer :=
  if 81 < first.toNat then refuse s .outOfRange
  else
    let page := (s.alarm.report.drop first.toNat).take 8
    accept s (bytesBE 2 s.alarm.version.toNat ++ bytesBE 1 s.alarm.table.length
      ++ listBE (page.map fun x => Record.bytes x.1 x.2))

/-- READ ALARMS. -/
def execReadAlarms (tag first : Byte) (s : State) : Host.Outcome State Fault Refusal :=
  goOn (takeRequest 0x06 tag (answerReadAlarms first) s)

/-! ## READ NOTICES (R194) -/

/-- The queue without its oldest six notices (R194). -/
def State.dropNotices (s : State) : State := s.setLink { s.link with notices := s.link.notices.drop 6 }

/-- READ NOTICES returns the oldest notices, up to six, and removes them. -/
def answerReadNotices (s : State) : Answer :=
  let returned := s.link.notices.take 6
  accept s.dropNotices (bytesBE 1 returned.length ++ bytesBE 1 (s.link.notices.drop 6).length
    ++ listBE (returned.map Notice.bytes))

/-- READ NOTICES. -/
def execReadNotices (tag : Byte) (s : State) : Host.Outcome State Fault Refusal :=
  goOn (takeRequest 0x07 tag answerReadNotices s)

/-! ## READ PROBE (R124) -/

/-- The measurement a probe's debounce timer runs: wet debounce 0, dry debounce 1, recovery 2 (R117, R124). -/
def ProbeState.measurement : ProbeState → Byte
  | .wetPending => 0 | .drying => 1 | .fault => 2 | .dry => 0 | .wet => 0

/-- The debounce timer with the measurement it runs, or stopped (R124). -/
def Probe.debounceBytes (r : Probe) (now : Nat) : List Byte :=
  match r.debounceTimer with
  | some t => [1, (r.state.map ProbeState.measurement).getD 0] ++ secondsBE (secondsLeft now t)
  | none => List.replicate 6 0

/-- A probe is evaluated while the part is ARMED and the probe is present (R118). -/
def State.evaluated (s : State) (p : Fin 8) : Bool := s.setup.armed && (s.probe p).cfg.present

/-- The fields of the READ PROBE reply, in the order of R124. -/
def State.probeBody (s : State) (p : Fin 8) : List Byte :=
  let r := s.probe p
  [indexByte p] ++ r.cfg.bytes ++ [LineCond.code r.line] ++ yesNo (s.evaluated p) ++ optionalCode (r.state.map ProbeState.code)
    ++ optionalBE 6 r.wetSince ++ yesNo r.heldSpill ++ optionalCode (r.detail.map fun d => BitVec.ofNat 8 d.code)
    ++ r.debounceBytes s.clock ++ timerLeft s.clock r.supervisionTimer ++ yesNo r.contribution
    ++ yesNo r.contribution ++ yesNo (decide (r.state = some .fault))

/-- READ PROBE. -/
def answerReadProbe (probe : Byte) (s : State) : Answer :=
  match readIndex 8 probe with
  | none => refuse s .outOfRange
  | some p => accept s (s.probeBody p)

/-- READ PROBE. -/
def execReadProbe (tag probe : Byte) (s : State) : Host.Outcome State Fault Refusal :=
  goOn (takeRequest 0x08 tag (answerReadProbe probe) s)

/-! ## READ TIME (R171) -/

/-- READ TIME reports the clocks and the trim. -/
def answerReadTime (s : State) : Answer :=
  accept s (bytesBE 6 s.clock ++ bytesBE 6 s.room ++ bytesBE 2 s.time.rate ++ [s.time.sense.code] ++ bytesBE 3 s.time.acc)

/-- READ TIME. -/
def execReadTime (tag : Byte) (s : State) : Host.Outcome State Fault Refusal :=
  goOn (takeRequest 0x09 tag answerReadTime s)

/-! ## READ SCHEDULE (R177) -/

/-- A slot's row: FREE alone, or its state, every field of R172 and, for PENDING, the time to its fire time (R177). That time is no
field that may be absent but one that a STALE row has not, so it carries no presence byte: with one, eight slots would not fit R188's
240 bytes (log entry 9). -/
def slotRow (room : Nat) : Option Slot → List Byte
  | none => [slotStateCode none]
  | some r => [slotStateCode (some r)] ++ bytesBE 6 r.anchor ++ bytesBE 6 r.fire ++ [r.action.code]
      ++ optionalBE 1 r.action.target ++ optionalBE 3 r.action.duration ++ optionalBE 1 r.action.tag ++ bytesBE 3 r.interval
      ++ (if r.stale then [] else secondsBE (secondsLeft room r.fire))

/-- READ SCHEDULE. -/
def answerReadSchedule (s : State) : Answer :=
  accept s (bytesBE 6 s.room ++ (s.time.slots.toList.map (slotRow s.room)).flatten)

/-- READ SCHEDULE. -/
def execReadSchedule (tag : Byte) (s : State) : Host.Outcome State Fault Refusal :=
  goOn (takeRequest 0x0A tag answerReadSchedule s)

end Sys2Proof.Machine
end

