-- ==== Sys2Proof/Machine/TimeRequests.lean ====
section
/-! DEFINITION. Schedule slots and their firing, and the time requests: SET TIME, SET TRIM, SCHEDULE, CANCEL (kinds 0x40 to 0x43
of R191). -/

namespace Sys2Proof.Machine

/-! ## Firing (R174, R175) -/

/-- The largest room time (R168). -/
def lastRoomTime : Nat := 2 ^ 48 - 1

/-- The first of the anchor plus whole multiples of the interval that lies after room time (R173, R174). `interval` is in
seconds and not 0. -/
def nextOccurrence (anchor interval room : Nat) : Nat :=
  if room < anchor then anchor else anchor + ((room - anchor) / seconds interval + 1) * seconds interval

/-- A slot that waits for a fire time, or is STALE where that lies beyond the range of room time (R173, R174). -/
def Slot.waitingFor (r : Slot) (t : Nat) : Slot :=
  if lastRoomTime < t then { r with stale := true, fire := (Config.staleFireTime r.anchor r.interval).toNat }
  else { r with stale := false, fire := t }

/-- A slot after it has fired: FREE for a one-shot, else moved on to its next occurrence (R174). -/
def Slot.movedOn (r : Slot) (room : Nat) : Option Slot :=
  if r.interval = 0 then none else some (r.waitingFor (nextOccurrence r.anchor r.interval room))

/-- Whether a slot is PENDING with its fire time reached or passed by room time (R174). -/
def slotDue (room : Nat) : Option Slot → Bool
  | some r => !r.stale && r.fire ≤ room
  | none => false

/-- Whether an action is performed, or skipped with its reason (R175). -/
def State.outcomeOf (s : State) : Action → SlotOutcome
  | .rotate z => if !s.setup.armed then .unarmed else if s.used z then .performed else .notPresent
  | .start f _ =>
    if !s.setup.armed then .unarmed
    else if !(s.fan f).cfg.present then .notPresent
    else if (s.fan f).takesClaims then .performed else .wrongState
  | .exercise f => if !s.setup.armed then .unarmed else if (s.fan f).cfg.present then .performed else .notPresent
  | .mark _ => .performed

/-- An action performed on its block (R175). -/
def Work.perform (w : Work) : Action → Work
  | .rotate z => w.rotateZone z
  | .start f d => w.startManual f d
  | .exercise f =>
    (w.map fun s => s.setFan f { s.fan f with exerciseDue := some s.clock }).exerciseFallsDue f
  | .mark _ => w

/-- A slot fires: its action is performed or skipped, the SCHEDULE FIRED notice is queued, the slot moves on, and what the
action led to is taken (R174, R175). That the notice follows those the action queues directly, and precedes those of the hand-overs,
is the model's choice, log entry 4. -/
def Work.fireSlot (w : Work) (k : Fin 8) (jump : Bool) : Work :=
  match w.st.slot k with
  | none => w
  | some r =>
    let outcome := w.st.outcomeOf r.action
    let acted := if outcome = .performed then w.perform r.action else w
    ((acted.notice (.scheduleFired k r.action outcome jump)).map fun s =>
      s.setSlot k (r.movedOn s.room)).settle settleLimit

/-! ## SET TIME (R169) -/

/-- The slots that a room time fires. -/
def State.dueSlots (s : State) : List (Fin 8) := (List.finRange 8).filter fun k => slotDue s.room (s.slot k)

/-- SET TIME: room time takes the new value, and every slot it passes fires once, in any order (R169, R174; log entry 5). -/
def answerSetTime (time : BitVec 48) (s : State) : Answer :=
  if !s.serviceActive then refuse s .needsService
  else
    let set := s.setTime { s.time with room := time.toNat }
    accept (set.does fun w => w.forEachOpen set.dueSlots fun w k => w.fireSlot k true)
      (bytesBE 6 s.room ++ bytesBE 6 time.toNat ++ bytesBE 1 set.dueSlots.length)

/-- SET TIME. -/
def execSetTime (tag : Byte) (time : BitVec 48) (s : State) : Host.Outcome State Fault Refusal :=
  goOn (takeRequest 0x40 tag (answerSetTime time) s)

/-! ## SET TRIM (R170) -/

/-- SET TRIM replaces the rate and the sense and keeps the accumulator (R170). -/
def answerSetTrim (rate : BitVec 16) (sense : Byte) (s : State) : Answer :=
  if !s.serviceActive then refuse s .needsService
  else match readCode [Sense.fast, Sense.slow] sense with
    | none => refuse s .outOfRange
    | some sense =>
      accept (s.setTime { s.time with rate := rate.toNat, sense := sense })
        (bytesBE 2 rate.toNat ++ [sense.code] ++ bytesBE 3 s.time.acc)

/-- SET TRIM. -/
def execSetTrim (tag : Byte) (rate : BitVec 16) (sense : Byte) (s : State) : Host.Outcome State Fault Refusal :=
  goOn (takeRequest 0x41 tag (answerSetTrim rate sense) s)

/-! ## SCHEDULE (R173) -/

/-- A field that stands behind a presence byte: `none` is a presence byte that is neither 0 nor 1 (R201). -/
def readOptional {α : Type} (present : Byte) (v : α) : Option (Option α) :=
  (readYesNo present).map fun p => if p then some v else none

/-- The action with the target, duration or tag it needs; `none` is OUT OF RANGE (R173, R201; log entry 10). The duration is
clamped. -/
def ScheduleFields.readAction (f : ScheduleFields) : Option Action := do
  let target ← readOptional f.targetPresent f.target
  let duration ← readOptional f.durationPresent f.duration
  let mark ← readOptional f.tagPresent f.mark
  if f.action = 0 then return .rotate (← readIndex 6 (← target))
  else if f.action = 1 then return .start (← readIndex 8 (← target)) (min longestRun (← duration).toNat)
  else if f.action = 2 then return .exercise (← readIndex 8 (← target))
  else if f.action = 3 then return .mark (← mark)
  else none

/-- The repeat interval, clamped (R173). -/
def clampInterval (n : Nat) : Nat := if n = 0 then 0 else min 604800 (max 60 n)

/-- Whether SCHEDULE clamped a quantity: the duration of a START, or the repeat interval (R173). -/
def ScheduleFields.clamped (f : ScheduleFields) : Bool :=
  (f.action = 1 && decide (longestRun < f.duration.toNat)) || decide (clampInterval f.interval.toNat ≠ f.interval.toNat)

/-- What an action names is present: a used zone, a present fan (R173). -/
def State.namesPresent (s : State) : Action → Bool
  | .rotate z => s.used z
  | .start f _ => (s.fan f).cfg.present
  | .exercise f => (s.fan f).cfg.present
  | .mark _ => true

/-- The lowest-numbered FREE slot (R173). -/
def State.freeSlot (s : State) : Option (Fin 8) := (List.finRange 8).find? fun k => (s.slot k).isNone

/-- The slot a fire time, an action and a repeat interval give at room time (R173). -/
def slotGiven (fire interval room : Nat) (action : Action) : Slot :=
  let r : Slot := { stale := false, anchor := fire, fire := fire, action := action, interval := interval }
  if room < fire then r
  else if interval = 0 then { r with stale := true, fire := (Config.staleFireTime fire 0).toNat }
  else r.waitingFor (nextOccurrence fire interval room)

/-- SCHEDULE (R173). -/
def answerSchedule (f : ScheduleFields) (s : State) : Answer :=
  match ScheduleFields.readAction f with
  | none => refuse s .outOfRange
  | some action =>
    if !s.namesPresent action then refuse s .notPresent
    else match s.freeSlot with
      | none => refuse s .tableFull
      | some k =>
        let r := slotGiven f.fire.toNat (clampInterval f.interval.toNat) s.room action
        { st := s.setSlot k (some r), status := .ok, marks := { clamped := ScheduleFields.clamped f }
          body := [indexByte k, slotStateCode (some r)] ++ optionalBE 6 (if r.stale then none else some r.fire) }

/-- SCHEDULE. -/
def execSchedule (tag : Byte) (fields : ScheduleFields) (s : State) : Host.Outcome State Fault Refusal :=
  goOn (takeRequest 0x42 tag (answerSchedule fields) s)

/-! ## CANCEL (R176) -/

/-- CANCEL frees a slot in any state (R176). -/
def answerCancel (slot : Byte) (s : State) : Answer :=
  match readIndex 8 slot with
  | none => refuse s .outOfRange
  | some k => accept (s.setSlot k none) [slotStateCode (s.slot k)]

/-- CANCEL. -/
def execCancel (tag slot : Byte) (s : State) : Host.Outcome State Fault Refusal :=
  goOn (takeRequest 0x43 tag (answerCancel slot) s)

end Sys2Proof.Machine
end

