-- ==== Sys2Proof/Machine/Frames.lean ====
section
/-! DEFINITION. The serial link: the fields of a request's payload (R201), the request of a kind (R191), the receiver (R189, R190)
and the transmitter (R190, R199). -/

namespace Sys2Proof.Machine

/-! ## Fields of a payload (R200, R201) -/

/-- The byte at a place of a payload. -/
def byteAt (p : List Byte) (i : Nat) : Byte := p.getD i 0

/-- The number of `n` bytes at a place of a payload, high byte first (R200). -/
def numberAt (p : List Byte) (i n : Nat) : Nat := ofBytes ((p.drop i).take n)

def word16At (p : List Byte) (i : Nat) : BitVec 16 := BitVec.ofNat 16 (numberAt p i 2)
def word24At (p : List Byte) (i : Nat) : BitVec 24 := BitVec.ofNat 24 (numberAt p i 3)
def word48At (p : List Byte) (i : Nat) : BitVec 48 := BitVec.ofNat 48 (numberAt p i 6)

/-- The configuration record of SET CHANNEL, after the channel number, row by row (R1, R201). -/
def channelFieldsOf (p : List Byte) : ChannelFields where
  enabled := byteAt p 1
  zone := byteAt p 2
  profile := byteAt p 3
  window := byteAt p 4
  gain := word16At p 5
  shift := byteAt p 7
  trackLimit := byteAt p 8
  cnu := word16At p 9
  cnd := word16At p 11
  cku := word16At p 13
  ckd := word16At p 15
  zeroBand := word16At p 17
  warmup := word16At p 19
  initialBaseline := word24At p 21
  bumpLevel := word16At p 24
  bumpTime := word16At p 26

/-- How many fans the order of SET ZONE carries: its count byte (R201). -/
def zoneOrderCount (p : List Byte) : Nat := (byteAt p 2).toNat

/-- The configuration record of SET ZONE, after the zone number (R42, R201). -/
def zoneFieldsOf (p : List Byte) : ZoneFields :=
  let n := zoneOrderCount p
  { vote := byteAt p 1
    order := (p.drop 3).take n
    needIdle := byteAt p (n + 3)
    needBase := byteAt p (n + 4)
    needBoost := byteAt p (n + 5)
    needPurge := byteAt p (n + 6)
    baseFloor := byteAt p (n + 7)
    t1 := word16At p (n + 8)
    t2 := word16At p (n + 10)
    t3 := word16At p (n + 12)
    hysteresis := byteAt p (n + 14)
    hold := word16At p (n + 15)
    coupled := byteAt p (n + 17)
    linger := word16At p (n + 18) }

/-- The configuration record of SET FAN, after the fan number (R67, R201). -/
def fanFieldsOf (p : List Byte) : FanFields where
  present := byteAt p 1
  rating := byteAt p 2
  proving := byteAt p 3
  lossTolerance := byteAt p 4
  minRun := word16At p 5
  coast := word16At p 7
  retries := byteAt p 9
  exInterval := word16At p 10
  exDuration := word16At p 12

/-- The configuration record of SET PROBE, after the probe number (R116, R201). -/
def probeFieldsOf (p : List Byte) : ProbeFields where
  present := byteAt p 1
  zone := byteAt p 2
  wetDebounce := byteAt p 3
  dryDebounce := word16At p 4

/-- The settings of SET ARBITER (R101). -/
def arbiterFieldsOf (p : List Byte) : ArbiterFields where
  k := byteAt p 0
  w := word16At p 1
  g := byteAt p 3

/-- The fields of SCHEDULE (R173, R201; log entry 10). -/
def scheduleFieldsOf (p : List Byte) : ScheduleFields where
  fire := word48At p 0
  action := byteAt p 6
  targetPresent := byteAt p 7
  target := byteAt p 8
  durationPresent := byteAt p 9
  duration := word24At p 10
  tagPresent := byteAt p 13
  mark := byteAt p 14
  interval := word24At p 15

/-! ## The request of a kind (R191) -/

/-- A request whose payload has not the length its fields take is refused BAD LENGTH (R191). -/
def withLength (fits : Bool) (act : State → Answer) (s : State) : Answer := if fits then act s else refuse s .badLength

/-- A request whose fields take a fixed number of bytes. -/
def ofLength (n : Nat) (p : List Byte) (act : State → Answer) : State → Answer := withLength (decide (p.length = n)) act

/-- What a taken request does: an unknown kind, a bad length, then the request's own checks and its action (R191). -/
def answerRequest (kind : Byte) (p : List Byte) : State → Answer :=
  match kind.toNat with
  | 0x01 => ofLength 0 p answerStatus
  | 0x02 => ofLength 1 p (answerReadChannel (byteAt p 0))
  | 0x03 => ofLength 1 p (answerReadZone (byteAt p 0))
  | 0x04 => ofLength 1 p (answerReadFan (byteAt p 0))
  | 0x05 => ofLength 0 p answerReadArbiter
  | 0x06 => ofLength 1 p (answerReadAlarms (byteAt p 0))
  | 0x07 => ofLength 0 p answerReadNotices
  | 0x08 => ofLength 1 p (answerReadProbe (byteAt p 0))
  | 0x09 => ofLength 0 p answerReadTime
  | 0x0A => ofLength 0 p answerReadSchedule
  | 0x10 => ofLength 1 p (answerAcknowledge (byteAt p 0))
  | 0x11 => withLength (2 ≤ p.length && decide (p.length = 2 + (byteAt p 1).toNat))
      (answerClearFlags (byteAt p 0) (p.drop 2))
  | 0x12 => withLength (1 ≤ p.length && decide (p.length = 1 + (byteAt p 0).toNat)) (answerMask (p.drop 1))
  | 0x13 => ofLength 0 p answerLampTest
  | 0x14 => ofLength 1 p (answerTrace (byteAt p 0))
  | 0x20 => ofLength 4 p (answerFanStart (byteAt p 0) (word24At p 1))
  | 0x21 => ofLength 1 p (answerFanStop (byteAt p 0))
  | 0x22 => ofLength 1 p (answerFanLock (byteAt p 0))
  | 0x23 => ofLength 1 p (answerFanRelease (byteAt p 0))
  | 0x24 => ofLength 1 p (answerRotate (byteAt p 0))
  | 0x30 => ofLength 1 p (answerChannelHold (byteAt p 0))
  | 0x31 => ofLength 1 p (answerChannelResume (byteAt p 0))
  | 0x32 => ofLength 1 p (answerZero (byteAt p 0))
  | 0x33 => ofLength 3 p (answerSpan (byteAt p 0) (word16At p 1))
  | 0x34 => ofLength 1 p (answerBump (byteAt p 0))
  | 0x40 => ofLength 6 p (answerSetTime (word48At p 0))
  | 0x41 => ofLength 3 p (answerSetTrim (word16At p 0) (byteAt p 2))
  | 0x42 => ofLength 18 p (answerSchedule (scheduleFieldsOf p))
  | 0x43 => ofLength 1 p (answerCancel (byteAt p 0))
  | 0x50 => ofLength 28 p (answerSetChannel (byteAt p 0) (channelFieldsOf p))
  | 0x51 => ofLength 21 p (answerSetProfile (byteAt p 0) (Vector.ofFn fun k => word16At p (1 + 2 * k.val)))
  | 0x52 => withLength (3 ≤ p.length && decide (p.length = 20 + zoneOrderCount p))
      (answerSetZone (byteAt p 0) (zoneFieldsOf p))
  | 0x53 => ofLength 14 p (answerSetFan (byteAt p 0) (fanFieldsOf p))
  | 0x54 => ofLength 6 p (answerSetProbe (byteAt p 0) (probeFieldsOf p))
  | 0x55 => ofLength 4 p (answerSetArbiter (arbiterFieldsOf p))
  | 0x5E => ofLength 0 p answerArm
  | 0x5F => ofLength 0 p answerDisarm
  | _ => fun s => refuse s .unknownKind

/-! ## The payload of a request (R200, R201) -/

/-- The record of SET CHANNEL as the payload carries it (R1, R201). -/
def channelPayload (f : ChannelFields) : List Byte :=
  [f.enabled, f.zone, f.profile, f.window] ++ bytesBE 2 f.gain.toNat ++ [f.shift, f.trackLimit] ++ bytesBE 2 f.cnu.toNat
    ++ bytesBE 2 f.cnd.toNat ++ bytesBE 2 f.cku.toNat ++ bytesBE 2 f.ckd.toNat ++ bytesBE 2 f.zeroBand.toNat
    ++ bytesBE 2 f.warmup.toNat ++ bytesBE 3 f.initialBaseline.toNat ++ bytesBE 2 f.bumpLevel.toNat
    ++ bytesBE 2 f.bumpTime.toNat

/-- The record of SET ZONE as the payload carries it (R42, R201). -/
def zonePayload (f : ZoneFields) : List Byte :=
  f.vote :: listBE (f.order.map fun b => [b]) ++ [f.needIdle, f.needBase, f.needBoost, f.needPurge, f.baseFloor]
    ++ bytesBE 2 f.t1.toNat ++ bytesBE 2 f.t2.toNat ++ bytesBE 2 f.t3.toNat ++ [f.hysteresis] ++ bytesBE 2 f.hold.toNat
    ++ [f.coupled] ++ bytesBE 2 f.linger.toNat

/-- The record of SET FAN as the payload carries it (R67, R201). -/
def fanPayload (f : FanFields) : List Byte :=
  [f.present, f.rating, f.proving, f.lossTolerance] ++ bytesBE 2 f.minRun.toNat ++ bytesBE 2 f.coast.toNat ++ [f.retries]
    ++ bytesBE 2 f.exInterval.toNat ++ bytesBE 2 f.exDuration.toNat

/-- The record of SET PROBE as the payload carries it (R116, R201). -/
def probePayload (f : ProbeFields) : List Byte :=
  [f.present, f.zone, f.wetDebounce] ++ bytesBE 2 f.dryDebounce.toNat

/-- The fields of SCHEDULE as the payload carries them (R173, R201; log entry 10). -/
def schedulePayload (f : ScheduleFields) : List Byte :=
  bytesBE 6 f.fire.toNat ++ [f.action, f.targetPresent, f.target, f.durationPresent] ++ bytesBE 3 f.duration.toNat
    ++ [f.tagPresent, f.mark] ++ bytesBE 3 f.interval.toNat

/-- The payload of a request's frame (R200, R201); empty for a command that is no request. -/
def requestPayload : Instr → List Byte
  | .readChannel _ channel => [channel]
  | .readZone _ zone => [zone]
  | .readFan _ fan => [fan]
  | .readAlarms _ first => [first]
  | .readProbe _ probe => [probe]
  | .acknowledge _ key => [key]
  | .clearFlags _ channel flags => channel :: listBE (flags.map fun b => [b])
  | .mask _ classes => listBE (classes.map fun b => [b])
  | .trace _ channel => [channel]
  | .fanStart _ fan duration => fan :: bytesBE 3 duration.toNat
  | .fanStop _ fan => [fan]
  | .fanLock _ fan => [fan]
  | .fanRelease _ fan => [fan]
  | .rotate _ zone => [zone]
  | .channelHold _ channel => [channel]
  | .channelResume _ channel => [channel]
  | .zero _ channel => [channel]
  | .span _ channel known => channel :: bytesBE 2 known.toNat
  | .bump _ channel => [channel]
  | .setTime _ time => bytesBE 6 time.toNat
  | .setTrim _ rate sense => bytesBE 2 rate.toNat ++ [sense]
  | .schedule _ fields => schedulePayload fields
  | .cancel _ slot => [slot]
  | .setChannel _ channel fields => channel :: channelPayload fields
  | .setProfile _ profile coefficients => profile :: (coefficients.toList.map fun n => bytesBE 2 n.toNat).flatten
  | .setZone _ zone fields => zone :: zonePayload fields
  | .setFan _ fan fields => fan :: fanPayload fields
  | .setProbe _ probe fields => probe :: probePayload fields
  | .setArbiter _ fields => fields.k :: bytesBE 2 fields.w.toNat ++ [fields.g]
  | .status _ => [] | .readArbiter _ => [] | .readNotices _ => [] | .readTime _ => [] | .readSchedule _ => []
  | .lampTest _ => [] | .arm _ => [] | .disarm _ => [] | .unknownKind _ _ => [] | .powerOnReset _ => []
  | .sampleEvent _ _ => [] | .warmupExpiry _ => [] | .holdLimitExpiry _ => [] | .recoverLimitExpiry _ => []
  | .bumpTimerExpiry _ => [] | .zoneHoldExpiry _ => [] | .lingerExpiry _ => [] | .eqzDebounce => []
  | .flowDebounce _ => [] | .provingExpiry _ => [] | .minRunExpiry _ => [] | .coastExpiry _ => []
  | .retryExpiry _ => [] | .flowLossExpiry _ => [] | .manualTimerExpiry _ => [] | .exerciseRunExpiry _ => []
  | .exerciseDue _ => [] | .flowNoteExpiry _ => [] | .flowClearExpiry _ => [] | .historyAgeOut => []
  | .spacingExpiry => [] | .probeLineChange _ _ => [] | .wetDebounceExpiry _ => [] | .dryDebounceExpiry _ => []
  | .supervisionExpiry _ => [] | .recoveryExpiry _ => [] | .lampTestExpiry => [] | .failsafeTimerExpiry => []
  | .slotFire _ => [] | .serviceDebounce => [] | .frameReceived => [] | .crcMismatch => [] | .badLengthByte => []
  | .interbyteGap => [] | .framingFault => [] | .breakLine => [] | .frameSent => [] | .traceFrameSend => []
  | .millisecond _ => [] | .receivedByte _ => []

/-! ## The receiver (R189, R190) -/

def State.setReceiver (s : State) (r : Receiver) : State := s.setLink { s.link with receiver := r }

/-- A length byte below 2 or above 242 (R189). -/
def badLength (len : Byte) : Bool := decide (len.toNat < 2) || decide (242 < len.toNat)

/-- The frame being received ends at its length byte: the byte is the frame's only one, and bad (R189). -/
def FrameIn.badLength (f : FrameIn) : Bool :=
  match f.bytes with
  | [len] => Machine.badLength len
  | [] => false
  | _ :: _ :: _ => false

/-- More than 20 ms of interval clock have passed since the frame's latest byte (R189). -/
def FrameIn.stale (f : FrameIn) (clock : Nat) : Bool := decide (20 < clock - f.lastAt)

/-- The frame is whole: length, then as many bytes as it says, then the two CRC bytes (R189). -/
def FrameIn.whole (f : FrameIn) : Bool :=
  match f.bytes with
  | len :: rest => rest.length == len.toNat + 2
  | [] => false

/-- The frame with one more byte. -/
def FrameIn.add (f : FrameIn) (b : Byte) (clock : Nat) : FrameIn := { f with bytes := f.bytes ++ [b], lastAt := clock }

/-- The hunting receiver examines a byte: 0xC3 begins a frame, any other byte is ignored (R189). -/
def State.hunt (s : State) (b : Byte) : State :=
  if b = 0xC3 then
    s.setReceiver { s.link.receiver with
      frame := some { bytes := [], lastAt := s.clock, busyAtSync := s.link.outstanding.isSome } }
  else s.setReceiver { s.link.receiver with frame := none }

/-- The receiver takes a byte (R189): a hunting receiver examines it, and so does one whose frame has been left behind by a gap
or a bad length byte; else the byte joins the frame, which ends with its last CRC byte. -/
def State.takeByte (s : State) (b : Byte) : State :=
  match s.link.receiver.frame with
  | none => s.hunt b
  | some f =>
    if f.stale s.clock || f.badLength then s.hunt b
    else
      let grown := f.add b s.clock
      if grown.whole then s.setReceiver { frame := none, ended := some grown }
      else s.setReceiver { s.link.receiver with frame := some grown }

/-- RECEIVED BYTE (R189). -/
def execReceivedByte (byte : Byte) (s : State) : Host.Outcome State Fault Refusal := goOn (s.takeByte byte)

/-- The CRC bytes of a frame, as a number (R188). -/
def FrameIn.sentCrc (f : FrameIn) : Nat := ofBytes (f.bytes.drop (f.bytes.length - 2))

/-- The bytes the CRC covers: length, kind, tag, payload (R188). -/
def FrameIn.covered (f : FrameIn) : List Byte := f.bytes.take (f.bytes.length - 2)

/-- The frame's CRC matches (R188, R189). -/
def FrameIn.crcMatches (f : FrameIn) : Bool := decide (f.sentCrc = (crc16 f.covered).toNat)

def FrameIn.kind (f : FrameIn) : Byte := f.bytes.getD 1 0
def FrameIn.tag (f : FrameIn) : Byte := f.bytes.getD 2 0
def FrameIn.payload (f : FrameIn) : List Byte := f.covered.drop 3

/-- The ended frame has been checked; the receiver is hunting, or in a later frame. -/
def State.frameChecked (s : State) : State := s.setReceiver { s.link.receiver with ended := none }

/-- A received frame is discarded with no reply where its kind is the part's own, or a request was outstanding when its sync
byte arrived (R190). -/
def FrameIn.discarded (f : FrameIn) : Bool := decide (0x80 ≤ f.kind.toNat) || f.busyAtSync

/-- FRAME RECEIVED: the ended frame has a matching CRC, and is taken as a request or discarded (R190). -/
def execFrameReceived (s : State) : Host.Outcome State Fault Refusal :=
  match s.link.receiver.ended with
  | none => goOn s
  | some f =>
    if !f.crcMatches then goOn s
    else if f.discarded then goOn s.frameChecked
    else goOn (takeRequest f.kind f.tag (answerRequest f.kind f.payload) s.frameChecked)

/-- CRC MISMATCH: the ended frame is discarded (R189). -/
def execCrcMismatch (s : State) : Host.Outcome State Fault Refusal :=
  match s.link.receiver.ended with
  | none => goOn s
  | some f => if f.crcMatches then goOn s else goOn s.frameChecked

/-- The frame in progress is aborted or discarded (R189). -/
def State.dropFrame (s : State) : State := s.setReceiver { s.link.receiver with frame := none }

/-- BAD LENGTH BYTE: the frame is discarded at its length byte (R189). -/
def execBadLengthByte (s : State) : Host.Outcome State Fault Refusal :=
  match s.link.receiver.frame with
  | none => goOn s
  | some f => if f.badLength then goOn s.dropFrame else goOn s

/-- INTERBYTE GAP: the frame is aborted at the gap (R189). -/
def execInterbyteGap (s : State) : Host.Outcome State Fault Refusal :=
  match s.link.receiver.frame with
  | none => goOn s
  | some f => if f.stale s.clock then goOn s.dropFrame else goOn s

/-- FRAMING FAULT: a byte with its stop bit low aborts the frame in progress, if there is one (R189). -/
def execFramingFault (s : State) : Host.Outcome State Fault Refusal := goOn s.dropFrame

/-- BREAK: the frame in progress is aborted, if there is one, and the receiver hunts again (R189). -/
def execBreakLine (s : State) : Host.Outcome State Fault Refusal :=
  goOn (s.setReceiver { frame := none, ended := s.link.receiver.ended })

/-! ## The transmitter (R190, R199) -/

/-- FRAME SENT: the last byte of a frame has been sent. A reply ends its request; a reply that waits begins before any buffered
trace record (R190). -/
def execFrameSent (s : State) : Host.Outcome State Fault Refusal :=
  match s.link.transmitter with
  | .free => goOn s
  | .reply => goOn (s.setLink { s.link with outstanding := none, transmitter := .free })
  | .trace _ => goOn (s.setLink { s.link with
      transmitter := if s.link.outstanding.isSome then .reply else .free })

/-- TRACE FRAME SEND: with the transmitter free and no reply waiting, the buffered record begins its frame and the buffer is
emptied (R199). R199 does not say how soon after the transmitter is free that happens. It is a command of its own here, and others
may be taken before it: a request whose reply then goes first, or a completion whose record replaces the buffered one with the GAP
mark. That is the model's choice, log entry 1. -/
def execTraceFrameSend (s : State) : Host.Outcome State Fault Refusal :=
  match s.link.transmitter, s.link.outstanding, s.link.traceBuffer with
  | .free, none, some r => goOn (s.setLink { s.link with transmitter := .trace r, traceBuffer := none })
  | .free, none, none => goOn s
  | .free, some _, _ => goOn s
  | .reply, _, _ => goOn s
  | .trace _, _, _ => goOn s

end Sys2Proof.Machine
end

