-- ==== Sys2Proof/Machine/OtherEvents.lean ====
section
/-! DEFINITION. The probe events, and the events of the lamp test, the failsafe sequence, the schedule slots and the SERVICE
line. An expiry acts where its timer runs and is due, and is otherwise no event (log entry 1). -/

namespace Sys2Proof.Machine

/-! ## Probes (R119 to R122) -/

/-- PROBE LINE CHANGE: the comparator classifies the line's resistance, the line takes that condition, and an evaluated probe takes
the change, where it is one (R115, R118 to R122). -/
def execProbeLineChange (probe : Fin 8) (resistance : LineResistance) (s : State) : Host.Outcome State Fault Refusal :=
  let condition := classify resistance
  let r := s.probe probe
  let seen := { r with line := condition }
  goOn (s.does fun w =>
    w.moveProbe probe (if s.setup.armed && r.cfg.present then seen.takeLine r.line condition s.clock s.room else seen))

/-- WET DEBOUNCE EXPIRY (R119). -/
def execWetDebounceExpiry (probe : Fin 8) (s : State) : Host.Outcome State Fault Refusal :=
  if (s.probe probe).state = some .wetPending ∧ due s.clock (s.probe probe).debounceTimer then
    goOn (s.does fun w => w.moveProbe probe (s.probe probe).becomeWet)
  else goOn s

/-- DRY DEBOUNCE EXPIRY (R120). -/
def execDryDebounceExpiry (probe : Fin 8) (s : State) : Host.Outcome State Fault Refusal :=
  if (s.probe probe).state = some .drying ∧ due s.clock (s.probe probe).debounceTimer then
    goOn (s.does fun w => w.moveProbe probe (s.probe probe).becomeDry)
  else goOn s

/-- SUPERVISION EXPIRY (R121). -/
def execSupervisionExpiry (probe : Fin 8) (s : State) : Host.Outcome State Fault Refusal :=
  if (s.probe probe).state.any (fun st => st ≠ .fault) ∧ due s.clock (s.probe probe).supervisionTimer then
    goOn (s.does fun w => w.moveProbe probe (s.probe probe).fail)
  else goOn s

/-- RECOVERY EXPIRY (R122). -/
def execRecoveryExpiry (probe : Fin 8) (s : State) : Host.Outcome State Fault Refusal :=
  if (s.probe probe).state = some .fault ∧ due s.clock (s.probe probe).debounceTimer then
    goOn (s.does fun w => w.moveProbe probe ((s.probe probe).recover s.room))
  else goOn s

/-! ## Lamp test, failsafe sequence, schedule slots -/

/-- LAMP TEST EXPIRY: the timer stops, and the outputs take their computed values (R147). -/
def execLampTestExpiry (s : State) : Host.Outcome State Fault Refusal :=
  if due s.clock s.alarm.lampTimer then goOn (s.setAlarm { s.alarm with lampTimer := none }) else goOn s

/-- FAILSAFE TIMER EXPIRY: the next failsafe start (R180). -/
def execFailsafeTimerExpiry (s : State) : Host.Outcome State Fault Refusal :=
  if due s.clock s.setup.failsafeTimer then goOn s.failsafeStart else goOn s

/-- SLOT FIRE: room time has reached the slot's fire time at an advance (R174). -/
def execSlotFire (slot : Fin 8) (s : State) : Host.Outcome State Fault Refusal :=
  if slotDue s.room (s.slot slot) then goOn (s.does fun w => w.fireSlot slot false) else goOn s

/-! ## The SERVICE line (R165, R192) -/

/-- The channels that a fall of SERVICE moves: those in HOLD and in BUMP (R165). -/
def State.underTest (s : State) : List (Fin 16) :=
  (List.finRange 16).filter fun i => decide ((s.chan i).state = .hold) || decide ((s.chan i).state = .bump)

/-- The fall moves one channel to RECOVER, as an event of its own (R165). -/
def Work.serviceFalls (w : Work) (i : Fin 16) : Work :=
  let c := w.st.chan i
  ((w.notice (.testResult i (.testAborted .service c.armedSpan.isSome))).moveAndTell i
    (c.endTest.enter .recover w.st.clock)).settle settleLimit

/-- SERVICE DEBOUNCE: the debounced SERVICE changes; a fall is handed to the test unit, which moves every channel under test,
in any order (R165, R192; log entry 5). -/
def execServiceDebounce (s : State) : Host.Outcome State Fault Refusal :=
  if due s.clock s.link.service.timer then
    let toggled := s.setLink { s.link with service := s.link.service.toggle }
    if toggled.serviceActive then goOn toggled
    else goOn (toggled.does fun w => w.forEachOpen toggled.underTest Work.serviceFalls)
  else goOn s

end Sys2Proof.Machine
end

