-- ==== Sys2Proof/Machine/ZoneEvents.lean ====
section
/-! DEFINITION. The zone events: ZONE_HOLD_EXPIRY, LINGER_EXPIRY, EQZ_DEBOUNCE (R49, R51, R52). -/

namespace Sys2Proof.Machine

/-- ZONE HOLD EXPIRY: the gas level falls by one, and the evaluation continues at the demand (R45, R49). -/
def execZoneHoldExpiry (zone : Fin 6) (s : State) : Host.Outcome State Fault Refusal :=
  if (s.zone zone).active ∧ due s.clock (s.zone zone).holdTimer then
    goOn (s.does fun w => w.evaluateDemand zone ((s.zone zone).fallGas s.clock) false)
  else goOn s

/-- LINGER EXPIRY: the coupling becomes false (R52). -/
def execLingerExpiry (zone : Fin 6) (s : State) : Host.Outcome State Fault Refusal :=
  if (s.zone zone).active ∧ due s.clock (s.zone zone).lingerTimer then
    goOn (s.does fun w => w.evaluateDemand zone { s.zone zone with coupling := false, lingerTimer := none } false)
  else goOn s

/-- EQZ DEBOUNCE: the debounced EQZ changes, and is handed to the alarm unit and to every active zone (R51, R52). R51, R52 and R141
give no order between the two; that the alarm unit takes the change first, so that a REGIME CHANGE notice stands before the ZONE
CHANGE and FAN CHANGE notices of the zones, is the model's choice, log entry 4. -/
def execEqzDebounce (s : State) : Host.Outcome State Fault Refusal :=
  if due s.clock s.eqz.timer then
    let active := !s.eqz.debounced
    goOn (s.does fun w => ((w.map fun s => { s with eqz := s.eqz.toggle }).post (.eqz active)).forEachOpen s.activeZones
      fun w z => w.post (.coupling z active))
  else goOn s

end Sys2Proof.Machine
end

