-- ==== Sys2Proof/Machine/Dispatch.lean ====
section
/-! DEFINITION. One arm for each command, each a call of its meaning. -/

namespace Sys2Proof.Machine

def exec (i : Instr) (s : State) : Host.Outcome State Fault Refusal :=
  match i with
  | .status tag => Sys2Proof.Machine.execStatus tag s
  | .readChannel tag channel => Sys2Proof.Machine.execReadChannel tag channel s
  | .readZone tag zone => Sys2Proof.Machine.execReadZone tag zone s
  | .readFan tag fan => Sys2Proof.Machine.execReadFan tag fan s
  | .readArbiter tag => Sys2Proof.Machine.execReadArbiter tag s
  | .readAlarms tag first => Sys2Proof.Machine.execReadAlarms tag first s
  | .readNotices tag => Sys2Proof.Machine.execReadNotices tag s
  | .readProbe tag probe => Sys2Proof.Machine.execReadProbe tag probe s
  | .readTime tag => Sys2Proof.Machine.execReadTime tag s
  | .readSchedule tag => Sys2Proof.Machine.execReadSchedule tag s
  | .acknowledge tag key => Sys2Proof.Machine.execAcknowledge tag key s
  | .clearFlags tag channel flags => Sys2Proof.Machine.execClearFlags tag channel flags s
  | .mask tag classes => Sys2Proof.Machine.execMask tag classes s
  | .lampTest tag => Sys2Proof.Machine.execLampTest tag s
  | .trace tag channel => Sys2Proof.Machine.execTrace tag channel s
  | .fanStart tag fan duration => Sys2Proof.Machine.execFanStart tag fan duration s
  | .fanStop tag fan => Sys2Proof.Machine.execFanStop tag fan s
  | .fanLock tag fan => Sys2Proof.Machine.execFanLock tag fan s
  | .fanRelease tag fan => Sys2Proof.Machine.execFanRelease tag fan s
  | .rotate tag zone => Sys2Proof.Machine.execRotate tag zone s
  | .channelHold tag channel => Sys2Proof.Machine.execChannelHold tag channel s
  | .channelResume tag channel => Sys2Proof.Machine.execChannelResume tag channel s
  | .zero tag channel => Sys2Proof.Machine.execZero tag channel s
  | .span tag channel known => Sys2Proof.Machine.execSpan tag channel known s
  | .bump tag channel => Sys2Proof.Machine.execBump tag channel s
  | .setTime tag time => Sys2Proof.Machine.execSetTime tag time s
  | .setTrim tag rate sense => Sys2Proof.Machine.execSetTrim tag rate sense s
  | .schedule tag fields => Sys2Proof.Machine.execSchedule tag fields s
  | .cancel tag slot => Sys2Proof.Machine.execCancel tag slot s
  | .setChannel tag channel fields => Sys2Proof.Machine.execSetChannel tag channel fields s
  | .setProfile tag profile coefficients => Sys2Proof.Machine.execSetProfile tag profile coefficients s
  | .setZone tag zone fields => Sys2Proof.Machine.execSetZone tag zone fields s
  | .setFan tag fan fields => Sys2Proof.Machine.execSetFan tag fan fields s
  | .setProbe tag probe fields => Sys2Proof.Machine.execSetProbe tag probe fields s
  | .setArbiter tag fields => Sys2Proof.Machine.execSetArbiter tag fields s
  | .arm tag => Sys2Proof.Machine.execArm tag s
  | .disarm tag => Sys2Proof.Machine.execDisarm tag s
  | .unknownKind tag kind => Sys2Proof.Machine.execUnknownKind tag kind s
  | .powerOnReset lines => Sys2Proof.Machine.execPowerOnReset lines s
  | .sampleEvent channel code => Sys2Proof.Machine.execSampleEvent channel code s
  | .warmupExpiry channel => Sys2Proof.Machine.execWarmupExpiry channel s
  | .holdLimitExpiry channel => Sys2Proof.Machine.execHoldLimitExpiry channel s
  | .recoverLimitExpiry channel => Sys2Proof.Machine.execRecoverLimitExpiry channel s
  | .bumpTimerExpiry channel => Sys2Proof.Machine.execBumpTimerExpiry channel s
  | .zoneHoldExpiry zone => Sys2Proof.Machine.execZoneHoldExpiry zone s
  | .lingerExpiry zone => Sys2Proof.Machine.execLingerExpiry zone s
  | .eqzDebounce => Sys2Proof.Machine.execEqzDebounce s
  | .flowDebounce fan => Sys2Proof.Machine.execFlowDebounce fan s
  | .provingExpiry fan => Sys2Proof.Machine.execProvingExpiry fan s
  | .minRunExpiry fan => Sys2Proof.Machine.execMinRunExpiry fan s
  | .coastExpiry fan => Sys2Proof.Machine.execCoastExpiry fan s
  | .retryExpiry fan => Sys2Proof.Machine.execRetryExpiry fan s
  | .flowLossExpiry fan => Sys2Proof.Machine.execFlowLossExpiry fan s
  | .manualTimerExpiry fan => Sys2Proof.Machine.execManualTimerExpiry fan s
  | .exerciseRunExpiry fan => Sys2Proof.Machine.execExerciseRunExpiry fan s
  | .exerciseDue fan => Sys2Proof.Machine.execExerciseDue fan s
  | .flowNoteExpiry fan => Sys2Proof.Machine.execFlowNoteExpiry fan s
  | .flowClearExpiry fan => Sys2Proof.Machine.execFlowClearExpiry fan s
  | .historyAgeOut => Sys2Proof.Machine.execHistoryAgeOut s
  | .spacingExpiry => Sys2Proof.Machine.execSpacingExpiry s
  | .probeLineChange probe resistance => Sys2Proof.Machine.execProbeLineChange probe resistance s
  | .wetDebounceExpiry probe => Sys2Proof.Machine.execWetDebounceExpiry probe s
  | .dryDebounceExpiry probe => Sys2Proof.Machine.execDryDebounceExpiry probe s
  | .supervisionExpiry probe => Sys2Proof.Machine.execSupervisionExpiry probe s
  | .recoveryExpiry probe => Sys2Proof.Machine.execRecoveryExpiry probe s
  | .lampTestExpiry => Sys2Proof.Machine.execLampTestExpiry s
  | .failsafeTimerExpiry => Sys2Proof.Machine.execFailsafeTimerExpiry s
  | .slotFire slot => Sys2Proof.Machine.execSlotFire slot s
  | .serviceDebounce => Sys2Proof.Machine.execServiceDebounce s
  | .frameReceived => Sys2Proof.Machine.execFrameReceived s
  | .crcMismatch => Sys2Proof.Machine.execCrcMismatch s
  | .badLengthByte => Sys2Proof.Machine.execBadLengthByte s
  | .interbyteGap => Sys2Proof.Machine.execInterbyteGap s
  | .framingFault => Sys2Proof.Machine.execFramingFault s
  | .breakLine => Sys2Proof.Machine.execBreakLine s
  | .frameSent => Sys2Proof.Machine.execFrameSent s
  | .traceFrameSend => Sys2Proof.Machine.execTraceFrameSend s
  | .millisecond lines => Sys2Proof.Machine.execMillisecond lines s
  | .receivedByte byte => Sys2Proof.Machine.execReceivedByte byte s

end Sys2Proof.Machine
end

