-- ==== Sys2Proof/Safety.lean ====
section
/-! DEFINITION. The terms in which statements about the part are made: what a cascade of hand-overs leaves alone, and the laws
that every state of a run obeys. -/

namespace Sys2Proof.Machine

/-! ## What a cascade leaves alone

A step ends with the hand-overs it leads to (R127, R141). Whatever they are, they change neither a channel nor a probe, no
configuration, no clock, nothing of the part state and nothing of the link but its notice queue and its trace record. -/

/-- What a fan keeps through a cascade: its configuration, its flow, its MANUAL claim with the duration and its last fault detail.
A cascade makes no fan one that takes no claims, removes no EXERCISE claim, and makes no exercise owed. -/
structure FanKept (f g : Fan) : Prop where
  cfg : g.cfg = f.cfg
  flow : g.flow = f.flow
  manual : g.claims.manual = f.claims.manual
  manualDuration : g.manualDuration = f.manualDuration
  lastFault : g.lastFault = f.lastFault
  takesClaims : f.takesClaims = true → g.takesClaims = true
  exercise : f.claims.exercise = true → g.claims.exercise = true
  exerciseOwed : f.exerciseOwed = false → g.exerciseOwed = false

/-- What a zone keeps through a cascade. -/
structure ZoneKept (z y : Zone) : Prop where
  cfg : y.cfg = z.cfg
  active : y.active = z.active

/-- What a zone keeps through a cascade that reaches it neither from a channel, nor from EQZ, nor from a probe. -/
structure SenseKept (z y : Zone) : Prop where
  sight : y.sight = z.sight
  voted : y.voted = z.voted
  gas : y.gas = z.gas
  holdTimer : y.holdTimer = z.holdTimer
  coupling : y.coupling = z.coupling
  lingerTimer : y.lingerTimer = z.lingerTimer
  spill : y.spill = z.spill

/-- A notice queue that has gone on from `q`: some notices have been queued after what `q` holds, each by R193's rule. -/
def NoticesFollow (q r : List Notice) : Prop := ∃ more : List Notice, r = more.foldl enqueue q

/-- What a cascade leaves alone, whatever hand-overs it takes; the notice queue goes on from what it was. -/
structure CascadeKeeps (s t : State) : Prop where
  chans : t.chans = s.chans
  profiles : t.profiles = s.profiles
  eqz : t.eqz = s.eqz
  probes : t.probes = s.probes
  time : t.time = s.time
  setup : t.setup = s.setup
  pending : t.pending = s.pending
  receiver : t.link.receiver = s.link.receiver
  outstanding : t.link.outstanding = s.link.outstanding
  transmitter : t.link.transmitter = s.link.transmitter
  service : t.link.service = s.link.service
  traceChannel : t.link.traceChannel = s.link.traceChannel
  arbK : t.arb.k = s.arb.k
  arbW : t.arb.w = s.arb.w
  arbG : t.arb.g = s.arb.g
  maskChannelNote : t.alarm.maskChannelNote = s.alarm.maskChannelNote
  maskFlowNote : t.alarm.maskFlowNote = s.alarm.maskFlowNote
  lampTimer : t.alarm.lampTimer = s.alarm.lampTimer
  zones : ∀ z, ZoneKept (s.zone z) (t.zone z)
  fans : ∀ i, FanKept (s.fan i) (t.fan i)
  notices : NoticesFollow s.link.notices t.link.notices

/-- The states in which neither a claim nor a grant moves a fan: only its own timer or its own request does (R72, R79, R81,
R82, R88). -/
def FanState.resting : FanState → Bool
  | .unmanaged => true | .coasting => true | .fault => true | .lockout _ => true
  | .idle => false | .waiting => false | .proving => false | .running => false

/-- What one fan keeps through a cascade where it rests and has no request waiting: all but its claims, and an empty claim
set too where its state takes none. -/
def FanRests (s t : State) (i : Fin 8) : Prop :=
  s.requestTime i = none → (s.fan i).state.resting = true →
    t.requestTime i = none ∧ t.fan i = { s.fan i with claims := (t.fan i).claims } ∧
    ((s.fan i).takesClaims = false → (s.fan i).claims = .empty → (t.fan i).claims = .empty)

/-- Every resting fan rests on. -/
def CascadeRests (s t : State) : Prop := ∀ i, FanRests s t i

/-- While the spacing timer runs, no grant is made (R104): the history, the last grant, the timer and every start count stay
as they are. -/
def Ungranted (s t : State) : Prop :=
  s.arb.spacing.isSome = true →
    t.arb.history = s.arb.history ∧ t.arb.spacing = s.arb.spacing ∧ t.arb.lastGrant = s.arb.lastGrant ∧
    ∀ i, (t.fan i).startCount = (s.fan i).startCount

/-! ## What reaches a zone -/

/-- A zone is used: some enabled channel's zone field names it (R43). -/
def InUse (s : State) (z : Fin 6) : Prop := ∃ i, (s.chan i).cfg.enabled = true ∧ (s.chan i).cfg.zone = some z

/-- Channel `i` is a member of the active zone `z`, which its completions and its changes of state reach (R11, R43, R45). -/
def MemberOf (s : State) (i : Fin 16) (z : Fin 6) : Prop :=
  (s.zone z).active = true ∧ (s.chan i).cfg.enabled = true ∧ (s.chan i).cfg.zone = some z

/-- Probe `p` is mapped to the active zone `z`, which a change of its contribution reaches (R45, R53). -/
def MappedTo (s : State) (p : Fin 8) (z : Fin 6) : Prop := (s.zone z).active = true ∧ (s.probe p).cfg.zone = some z

/-- Some present probe mapped to the zone contributes a spill (R53). -/
def SpillIn (s : State) (z : Fin 6) : Prop :=
  ∃ p, (s.probe p).cfg.present = true ∧ (s.probe p).cfg.zone = some z ∧ (s.probe p).contribution = true

/-- What a zone's record `y` keeps, or takes, of the state `u` that a step's own work has left. Told of a member, the zone senses
anew: sight, voted reading, gas level and hold timer are those that its members give (R45 to R50); untold it keeps the four. It keeps
its coupling and its linger timer. With a contribution changed its spill is whether a probe contributes (R53), else it stays. -/
structure ZoneKeeps (told spilt : Prop) (u : State) (z : Fin 6) (y : Zone) : Prop where
  sensed : told → y.sight = (u.sense z).sight ∧ y.voted = (u.sense z).voted ∧ y.gas = (u.sense z).gas ∧
    y.holdTimer = (u.sense z).holdTimer
  unsensed : ¬told → y.sight = (u.zone z).sight ∧ y.voted = (u.zone z).voted ∧ y.gas = (u.zone z).gas ∧
    y.holdTimer = (u.zone z).holdTimer
  coupling : y.coupling = (u.zone z).coupling
  lingerTimer : y.lingerTimer = (u.zone z).lingerTimer
  spilled : spilt → (y.spill = true ↔ SpillIn u z)
  unspilled : ¬spilt → y.spill = (u.zone z).spill

/-- Every zone keeps or takes that much; where neither a channel nor a probe reaches the zones, each keeps all of it. -/
def ZonesKept (u t : State) (told spilt : Fin 6 → Prop := fun _ => False) : Prop :=
  ∀ z, ZoneKeeps (told z) (spilt z) u z (t.zone z)

/-- A step's own work has left `u`, and the hand-overs that it has made lead on to `t`; they tell the zones of `told` of a member, and
those of `spilt` of a probe's contribution. -/
structure Settles (u t : State) (told spilt : Fin 6 → Prop := fun _ => False) : Prop where
  keeps : CascadeKeeps u t
  rests : CascadeRests u t
  ungranted : Ungranted u t
  zones : ZonesKept u t told spilt

/-! ## Outcomes -/

/-- The request is taken and answered OK: it has left `t`, and its reply, of this kind and with this tag, carries these marks
and fields (R190, R191). -/
def Accepted (c : Instr) (s t : State) (kind tag marks : Byte) (body : List Byte) : Prop :=
  exec c s = .next (t.sendReply { kind := kind, tag := tag, payload := 0 :: marks :: body })

/-- The request is taken and refused with this status: nothing changes but that its reply is outstanding (R191). -/
def Declined (c : Instr) (s : State) (kind tag status : Byte) (body : List Byte) : Prop :=
  exec c s = .next (s.sendReply { kind := kind, tag := tag, payload := status :: 0 :: body })

/-- The command's own work leaves `u`, and its hand-overs are then taken. -/
def Leads (c : Instr) (s u : State) (told spilt : Fin 6 → Prop := fun _ => False) : Prop :=
  ∃ t, exec c s = .next t ∧ Settles u t told spilt

/-- The kind and the tag of a request (R190, R191); `none` for a command that is no request. -/
def requestOf : Instr → Option (Byte × Byte)
  | .status tag => some (0x01, tag)
  | .readChannel tag _ => some (0x02, tag)
  | .readZone tag _ => some (0x03, tag)
  | .readFan tag _ => some (0x04, tag)
  | .readArbiter tag => some (0x05, tag)
  | .readAlarms tag _ => some (0x06, tag)
  | .readNotices tag => some (0x07, tag)
  | .readProbe tag _ => some (0x08, tag)
  | .readTime tag => some (0x09, tag)
  | .readSchedule tag => some (0x0A, tag)
  | .acknowledge tag _ => some (0x10, tag)
  | .clearFlags tag _ _ => some (0x11, tag)
  | .mask tag _ => some (0x12, tag)
  | .lampTest tag => some (0x13, tag)
  | .trace tag _ => some (0x14, tag)
  | .fanStart tag _ _ => some (0x20, tag)
  | .fanStop tag _ => some (0x21, tag)
  | .fanLock tag _ => some (0x22, tag)
  | .fanRelease tag _ => some (0x23, tag)
  | .rotate tag _ => some (0x24, tag)
  | .channelHold tag _ => some (0x30, tag)
  | .channelResume tag _ => some (0x31, tag)
  | .zero tag _ => some (0x32, tag)
  | .span tag _ _ => some (0x33, tag)
  | .bump tag _ => some (0x34, tag)
  | .setTime tag _ => some (0x40, tag)
  | .setTrim tag _ _ => some (0x41, tag)
  | .schedule tag _ => some (0x42, tag)
  | .cancel tag _ => some (0x43, tag)
  | .setChannel tag _ _ => some (0x50, tag)
  | .setProfile tag _ _ => some (0x51, tag)
  | .setZone tag _ _ => some (0x52, tag)
  | .setFan tag _ _ => some (0x53, tag)
  | .setProbe tag _ _ => some (0x54, tag)
  | .setArbiter tag _ => some (0x55, tag)
  | .arm tag => some (0x5E, tag)
  | .disarm tag => some (0x5F, tag)
  | .unknownKind tag kind => if kind.toNat < 0x80 ∧ kind ∉ requestKinds then some (kind, tag) else none
  | .powerOnReset _ => none
  | .sampleEvent _ _ => none
  | .warmupExpiry _ => none
  | .holdLimitExpiry _ => none
  | .recoverLimitExpiry _ => none
  | .bumpTimerExpiry _ => none
  | .zoneHoldExpiry _ => none
  | .lingerExpiry _ => none
  | .eqzDebounce => none
  | .flowDebounce _ => none
  | .provingExpiry _ => none
  | .minRunExpiry _ => none
  | .coastExpiry _ => none
  | .retryExpiry _ => none
  | .flowLossExpiry _ => none
  | .manualTimerExpiry _ => none
  | .exerciseRunExpiry _ => none
  | .exerciseDue _ => none
  | .flowNoteExpiry _ => none
  | .flowClearExpiry _ => none
  | .historyAgeOut => none
  | .spacingExpiry => none
  | .probeLineChange _ _ => none
  | .wetDebounceExpiry _ => none
  | .dryDebounceExpiry _ => none
  | .supervisionExpiry _ => none
  | .recoveryExpiry _ => none
  | .lampTestExpiry => none
  | .failsafeTimerExpiry => none
  | .slotFire _ => none
  | .serviceDebounce => none
  | .frameReceived => none
  | .crcMismatch => none
  | .badLengthByte => none
  | .interbyteGap => none
  | .framingFault => none
  | .breakLine => none
  | .frameSent => none
  | .traceFrameSend => none
  | .millisecond _ => none
  | .receivedByte _ => none

/-- Whether a timer's or a line's event has come: its timer runs and has reached its instant (R167), its slot waits and room
time has reached its fire time (R174), or, for a sample event, the channel is sampled now (R3). Any other command is always
taken. -/
def hasCome (s : State) : Instr → Bool
  | .sampleEvent i _ => s.samples i
  | .warmupExpiry i => decide ((s.chan i).state = .warmup) && due s.clock (s.chan i).timer
  | .holdLimitExpiry i => decide ((s.chan i).state = .hold) && due s.clock (s.chan i).timer
  | .recoverLimitExpiry i => decide ((s.chan i).state = .recover) && due s.clock (s.chan i).timer
  | .bumpTimerExpiry i => decide ((s.chan i).state = .bump) && due s.clock (s.chan i).bumpTimer
  | .zoneHoldExpiry z => (s.zone z).active && due s.clock (s.zone z).holdTimer
  | .lingerExpiry z => (s.zone z).active && due s.clock (s.zone z).lingerTimer
  | .eqzDebounce => due s.clock s.eqz.timer
  | .flowDebounce i => due s.clock (s.fan i).flow.timer
  | .provingExpiry i => decide ((s.fan i).state = .proving) && due s.clock (s.fan i).provingTimer
  | .minRunExpiry i =>
    (decide ((s.fan i).state = .proving) || decide ((s.fan i).state = .running)) && due s.clock (s.fan i).minRunTimer
  | .coastExpiry i => decide ((s.fan i).state = .coasting) && due s.clock (s.fan i).coastTimer
  | .retryExpiry i => decide ((s.fan i).state = .fault) && due s.clock (s.fan i).retryTimer
  | .flowLossExpiry i => decide ((s.fan i).state = .running) && due s.clock (s.fan i).flowLossTimer
  | .manualTimerExpiry i => due s.clock (s.fan i).manualTimer
  | .exerciseRunExpiry i => due s.clock (s.fan i).exerciseTimer
  | .exerciseDue i => due s.clock (s.fan i).exerciseDue
  | .flowNoteExpiry i => due s.clock (s.fan i).noteTimer
  | .flowClearExpiry i => due s.clock (s.fan i).clearTimer
  | .historyAgeOut => s.agesOut
  | .spacingExpiry => due s.clock s.arb.spacing
  | .wetDebounceExpiry p => decide ((s.probe p).state = some .wetPending) && due s.clock (s.probe p).debounceTimer
  | .dryDebounceExpiry p => decide ((s.probe p).state = some .drying) && due s.clock (s.probe p).debounceTimer
  | .supervisionExpiry p =>
    (s.probe p).state.any (fun st => decide (st ≠ .fault)) && due s.clock (s.probe p).supervisionTimer
  | .recoveryExpiry p => decide ((s.probe p).state = some .fault) && due s.clock (s.probe p).debounceTimer
  | .lampTestExpiry => due s.clock s.alarm.lampTimer
  | .failsafeTimerExpiry => due s.clock s.setup.failsafeTimer
  | .slotFire k => slotDue s.room (s.slot k)
  | .serviceDebounce => due s.clock s.link.service.timer
  | .status _ => true | .readChannel _ _ => true | .readZone _ _ => true | .readFan _ _ => true
  | .readArbiter _ => true | .readAlarms _ _ => true | .readNotices _ => true | .readProbe _ _ => true
  | .readTime _ => true | .readSchedule _ => true | .acknowledge _ _ => true | .clearFlags _ _ _ => true
  | .mask _ _ => true | .lampTest _ => true | .trace _ _ => true | .fanStart _ _ _ => true | .fanStop _ _ => true
  | .fanLock _ _ => true | .fanRelease _ _ => true | .rotate _ _ => true | .channelHold _ _ => true
  | .channelResume _ _ => true | .zero _ _ => true | .span _ _ _ => true | .bump _ _ => true | .setTime _ _ => true
  | .setTrim _ _ _ => true | .schedule _ _ => true | .cancel _ _ => true | .setChannel _ _ _ => true
  | .setProfile _ _ _ => true | .setZone _ _ _ => true | .setFan _ _ _ => true | .setProbe _ _ _ => true
  | .setArbiter _ _ => true | .arm _ => true | .disarm _ => true | .unknownKind _ _ => true | .powerOnReset _ => true
  | .probeLineChange _ _ => true | .frameReceived => true | .crcMismatch => true | .badLengthByte => true
  | .interbyteGap => true | .framingFault => true | .breakLine => true | .frameSent => true | .traceFrameSend => true
  | .millisecond _ => true | .receivedByte _ => true

/-! ## The records that the fields of a SET request name

Each relation says which record a request's raw fields name: every number in the range its record table gives, every code one of
its values, and the tests within the record met (R1, R20, R42, R67, R101, R116, R181, R201). Fields that name no record are out of
range. -/

/-- A yes-or-no byte (R201). -/
def YesNoGives (b : Byte) (v : Bool) : Prop := (b = 0 ∧ v = false) ∨ (b = 1 ∧ v = true)

/-- A zone field that may be none (R201). -/
def ZoneGives (b : Byte) (v : Option (Fin 6)) : Prop := (b = 0xFF ∧ v = none) ∨ ∃ z : Fin 6, b = indexByte z ∧ v = some z

/-- R1's table. -/
structure ChannelGives (f : ChannelFields) (c : ChannelCfg) : Prop where
  enabled : YesNoGives f.enabled c.enabled
  zone : ZoneGives f.zone c.zone
  profile : f.profile = indexByte c.profile
  window : c.window = f.window.toNat ∧ 5 ≤ c.window ∧ c.window ≤ 50
  gain : c.gain = f.gain.toNat ∧ 1 ≤ c.gain
  shift : c.shift = f.shift.toNat ∧ c.shift ≤ 15
  trackLimit : c.trackLimit = f.trackLimit.toNat ∧ c.trackLimit ≤ 200
  coefficients : c.cnu = f.cnu.toNat ∧ c.cnd = f.cnd.toNat ∧ c.cku = f.cku.toNat ∧ c.ckd = f.ckd.toNat
  zeroBand : c.zeroBand = f.zeroBand.toNat ∧ c.zeroBand ≤ 800
  warmup : c.warmup = f.warmup.toNat ∧ c.warmup ≤ 900
  initialBaseline : c.initialBaseline = f.initialBaseline.toInt ∧ -204800 ≤ c.initialBaseline ∧ c.initialBaseline ≤ 204800
  bumpLevel : c.bumpLevel = f.bumpLevel.toNat ∧ 50 ≤ c.bumpLevel ∧ c.bumpLevel ≤ 1000
  bumpTime : c.bumpTime = f.bumpTime.toNat ∧ 10 ≤ c.bumpTime ∧ c.bumpTime ≤ 300

/-- R20's ten coefficients, in the order of its text; that SET PROFILE carries them so is the model's choice, log entry 24. -/
def ProfileGives (v : Vector (BitVec 16) 10) (p : Profile) : Prop :=
  ∀ k : Fin 10, p.coefficient k = (vget v k).toInt ∧ -16383 ≤ p.coefficient k ∧ p.coefficient k ≤ 16383

/-- R42's table, with the tests it makes within the record. -/
structure ZoneRecordGives (f : ZoneFields) (c : ZoneCfg) : Prop where
  vote : (f.vote = 0 ∧ c.vote = .max) ∨ (f.vote = 1 ∧ c.vote = .second)
  order : f.order = c.order.map indexByte ∧ c.order.Nodup ∧ c.order.length ≤ 4
  needs : c.needIdle = f.needIdle.toNat ∧ c.needBase = f.needBase.toNat ∧ c.needBoost = f.needBoost.toNat
    ∧ c.needPurge = f.needPurge.toNat
  needsRise : c.needIdle ≤ c.needBase ∧ c.needBase ≤ c.needBoost ∧ c.needBoost ≤ c.needPurge
    ∧ c.needPurge ≤ c.order.length
  baseFloor : (f.baseFloor = 0 ∧ c.baseFloor = .idle) ∨ (f.baseFloor = 1 ∧ c.baseFloor = .base)
  t1 : c.t1 = f.t1.toNat ∧ 1 ≤ c.t1 ∧ c.t1 ≤ 1000
  t2 : c.t2 = f.t2.toNat ∧ 1 ≤ c.t2 ∧ c.t2 ≤ 1000
  t3 : c.t3 = f.t3.toNat ∧ 1 ≤ c.t3 ∧ c.t3 ≤ 1000
  hysteresis : c.hysteresis = f.hysteresis.toNat ∧ c.hysteresis ≤ 100 ∧ c.hysteresis < c.t1
  hold : c.hold = f.hold.toNat ∧ 10 ≤ c.hold ∧ c.hold ≤ 900
  coupled : YesNoGives f.coupled c.coupled
  linger : c.linger = f.linger.toNat ∧ c.linger ≤ 3600

/-- R67's table. -/
structure FanGives (f : FanFields) (c : FanCfg) : Prop where
  present : YesNoGives f.present c.present
  rating : (f.rating = 0 ∧ c.rating = .sparkSafe) ∨ (f.rating = 1 ∧ c.rating = .ordinary)
  proving : c.proving = f.proving.toNat ∧ 5 ≤ c.proving ∧ c.proving ≤ 120
  lossTolerance : c.lossTolerance = f.lossTolerance.toNat ∧ 2 ≤ c.lossTolerance ∧ c.lossTolerance ≤ 30
  minRun : c.minRun = f.minRun.toNat ∧ c.minRun ≤ 1800
  coast : c.coast = f.coast.toNat ∧ 5 ≤ c.coast ∧ c.coast ≤ 600
  retries : c.retries = f.retries.toNat ∧ c.retries ≤ 3
  exInterval : c.exInterval = f.exInterval.toNat ∧ c.exInterval ≤ 720
  exDuration : c.exDuration = f.exDuration.toNat ∧ 30 ≤ c.exDuration ∧ c.exDuration ≤ 600

/-- R116's table. -/
structure ProbeGives (f : ProbeFields) (c : ProbeCfg) : Prop where
  present : YesNoGives f.present c.present
  zone : ZoneGives f.zone c.zone
  wetDebounce : c.wetDebounce = f.wetDebounce.toNat ∧ 1 ≤ c.wetDebounce ∧ c.wetDebounce ≤ 60
  dryDebounce : c.dryDebounce = f.dryDebounce.toNat ∧ 5 ≤ c.dryDebounce ∧ c.dryDebounce ≤ 600

/-- R101's settings. -/
structure ArbiterGives (f : ArbiterFields) (k w g : Nat) : Prop where
  k : k = f.k.toNat ∧ 1 ≤ k ∧ k ≤ 4
  w : w = f.w.toNat ∧ 5 ≤ w ∧ w ≤ 300
  g : g = f.g.toNat ∧ g ≤ 30

/-- The action that SCHEDULE's fields name, with the target, the duration or the tag it needs behind their presence bytes; the duration
of a START is clamped to 86 400 s (R172, R173, R201; the layout is the model's, log entry 10). -/
def ScheduleGives (f : ScheduleFields) (a : Action) : Prop :=
  ∃ target duration tag : Bool,
    YesNoGives f.targetPresent target ∧ YesNoGives f.durationPresent duration ∧ YesNoGives f.tagPresent tag ∧
    ((f.action = 0 ∧ target = true ∧ ∃ z : Fin 6, f.target = indexByte z ∧ a = .rotate z) ∨
     (f.action = 1 ∧ target = true ∧ duration = true ∧
      ∃ i : Fin 8, f.target = indexByte i ∧ a = .start i (min 86400 f.duration.toNat)) ∨
     (f.action = 2 ∧ target = true ∧ ∃ i : Fin 8, f.target = indexByte i ∧ a = .exercise i) ∨
     (f.action = 3 ∧ tag = true ∧ a = .mark f.mark))

/-- What an action names is there: a used zone, a present fan; a MARK names nothing (R173). -/
def TargetPresent (s : State) : Action → Prop
  | .rotate z => InUse s z
  | .start i _ => (s.fan i).cfg.present = true
  | .exercise i => (s.fan i).cfg.present = true
  | .mark _ => True

/-- The record with this index fails this item of R183's table: an enabled channel without a zone; a used zone with an empty order,
with an absent fan in it, with no fan needed at PURGE; a present probe of an UNUSED zone; a used zone whose thresholds do not rise
strictly. -/
def FailsItem (s : State) (item index : Nat) : Prop :=
  (item = 1 ∧ ∃ i : Fin 16, index = i.val ∧ (s.chan i).cfg.enabled = true ∧ (s.chan i).cfg.zone = none) ∨
  (item = 2 ∧ ∃ z : Fin 6, index = z.val ∧ InUse s z ∧ (s.zone z).cfg.order = []) ∨
  (item = 3 ∧ ∃ z : Fin 6, index = z.val ∧ InUse s z ∧ ∃ i ∈ (s.zone z).cfg.order, (s.fan i).cfg.present = false) ∨
  (item = 4 ∧ ∃ z : Fin 6, index = z.val ∧ InUse s z ∧ (s.zone z).cfg.needPurge = 0) ∨
  (item = 5 ∧ ∃ p : Fin 8, index = p.val ∧ (s.probe p).cfg.present = true ∧
    ∃ z, (s.probe p).cfg.zone = some z ∧ ¬InUse s z) ∨
  (item = 6 ∧ ∃ z : Fin 6, index = z.val ∧ InUse s z ∧
    ¬((s.zone z).cfg.t1 < (s.zone z).cfg.t2 ∧ (s.zone z).cfg.t2 < (s.zone z).cfg.t3))

/-- The record with this index is the first, in item order and then in index order, that fails an item (R183). -/
def FailsFirst (s : State) (item index : Nat) : Prop :=
  FailsItem s item index ∧ (∀ earlier < item, ∀ n, ¬FailsItem s earlier n) ∧ ∀ n < index, ¬FailsItem s item n

/-! ## The laws of a run -/

/-- The notice queue never holds more than 32 notices (R193). -/
def NoticeLaw (s : State) : Prop := s.link.notices.length ≤ 32

/-- Room time and the trim accumulator stay in their ranges (R168). -/
structure TimeLaw (s : State) : Prop where
  room : s.time.room < 2 ^ 48
  acc : s.time.acc < 2 ^ 24
  rate : s.time.rate < 2 ^ 16

/-- A section's output history lies in the 16-bit range (R27). -/
structure SectionLaw (h : Section) : Prop where
  y1 : -32768 ≤ h.y1 ∧ h.y1 ≤ 32767
  y2 : -32768 ≤ h.y2 ∧ h.y2 ≤ 32767

/-- A channel's reading lies between 0 and 1000 (R35), its bump peak with it (R152), and every stored output of its filter
sections in the 16-bit range (R27). -/
structure ChannelLaw (c : Channel) : Prop where
  reading : ∀ r, c.reading = some r → r ≤ 1000
  peak : ∀ r, c.bumpPeak = some r → r ≤ 1000
  secA : SectionLaw c.secA
  secB : SectionLaw c.secB

/-- The fans' law: the output law of R70, the waiting set of R105, that just the present fans of an ARMED part are managed, any other
is UNMANAGED (R69), and that failsafe starts wait for strap-run fans of an UNARMED part alone (R180). -/
structure FanLaw (s : State) : Prop where
  output : ∀ i, (s.fan i).output = true → (s.fan i).state = .proving ∨ (s.fan i).state = .running
    ∨ (s.setup.armed = false ∧ vget s.setup.straps i = true ∧ vget s.setup.failsafeMade i = true)
  waiting : ∀ i, (s.requestTime i).isSome = true ↔ (s.fan i).state = .waiting
  unarmed : s.setup.armed = false → ∀ i, (s.fan i).state = .unmanaged
  absent : ∀ i, (s.fan i).cfg.present = false → (s.fan i).state = .unmanaged
  managed : s.setup.armed = true → ∀ i, (s.fan i).cfg.present = true → (s.fan i).state ≠ .unmanaged
  failsafe : ∀ i ∈ s.setup.failsafeList, s.setup.armed = false ∧ vget s.setup.straps i = true

/-- The arbiter's law: the start history never needs more than K places, and it is empty while the part is UNARMED (R101,
R103). -/
structure ArbiterLaw (s : State) : Prop where
  budget : s.arb.history.length ≤ s.arb.k
  unarmed : s.setup.armed = false → s.arb.history = []

/-- Nothing is left to be done at once: a fan waits only while the budget is used up, the spacing timer runs or CRITICAL inhibits it,
since every event that lifts one of these has a grant considered (R107 to R109, R141); and a fan in IDLE owes an exercise only under
GAS-ALARM or CRITICAL (R91, R141). -/
structure PromptLaw (s : State) : Prop where
  waits : ∀ i, (s.fan i).state = .waiting → s.arb.k ≤ s.arb.history.length ∨ s.arb.spacing.isSome = true ∨
    (s.alarm.regime = .critical ∧ (s.fan i).cfg.rating = .ordinary)
  owes : ∀ i, (s.fan i).state = .idle → (s.fan i).exerciseOwed = true → s.alarm.regime = .gasAlarm ∨ s.alarm.regime = .critical

/-- The states in which a probe contributes a spill: WET, DRYING, and FAULT with a held spill (R119 to R121). -/
def Probe.contributes (r : Probe) : Bool :=
  match r.state with
  | some .wet => true
  | some .drying => true
  | some .fault => r.heldSpill
  | some .dry => false
  | some .wetPending => false
  | none => false

/-- Every probe contributes a spill in just the states that R119 to R121 name, and a probe that is not evaluated has no state
(R118). -/
structure ProbeLaw (s : State) : Prop where
  contribution : ∀ p, (s.probe p).contribution = (s.probe p).contributes
  evaluated : ∀ p, (s.probe p).state.isSome = (s.setup.armed && (s.probe p).cfg.present)

/-- The regime and the permit are the derived ones (R140, R142). -/
structure DerivedLaw (s : State) : Prop where
  regime : s.alarm.regime = regimeOf s.alarm
  permit : s.alarm.permit = permitOf s.alarm s.setup.armed

/-- A record stands ACTIVE. -/
def Record.active (r : Record) : Bool := decide (r.state ≠ .clearedUnack)

/-- The alarm table agrees with the condition images: a masked class has no record, and a key of an unmasked class has an
ACTIVE record just while its condition is active (R129, R132, R136). -/
def TableLaw (a : Alarm) : Prop :=
  ∀ k, if a.masks (classOf k) then a.record k = none else (a.record k).any Record.active = (a.image k).active

/-- The zones and the fans agree on the claims. A zone's claims are fans of its order, in that order (R42, R57); the used zones of an
ARMED part are active, and an inactive zone has its running fields at their reset values (R43, R44, R65, R66); a fan carries a
zone's claim just while it stands in the zone's list, and is available to the zone then (R57, R58, R66); an active zone claims as many
fans of its order as its demand needs and are available, and is in SHORTFALL where it claims fewer than it needs (R57); a fan in IDLE,
and one that takes no claims, carries none, and one in WAITING carries one (R72, R73); a fan in PROVING or RUNNING is stop-pending
just while it carries none, which outlasts no min-run (R77). -/
structure ClaimLaw (s : State) : Prop where
  order : ∀ z, (s.zone z).cfg.order.Nodup
  listed : ∀ z, (s.zone z).claims.Sublist (s.zone z).cfg.order
  active : ∀ z, (s.zone z).active = (s.setup.armed && s.used z)
  inactive : ∀ z, (s.zone z).active = false → s.zone z = .inactive (s.zone z).cfg
  held : ∀ z i, vget (s.fan i).claims.zones z = true ↔ i ∈ (s.zone z).claims
  available : ∀ z, ∀ i ∈ (s.zone z).claims, (s.fan i).available s.alarm.regime = true
  enough : ∀ z, (s.zone z).active = true → (s.zone z).claims.length =
    min (s.zone z).needed ((s.zone z).cfg.order.filter fun i => (s.fan i).available s.alarm.regime).length
  shortfall : ∀ z, (s.zone z).shortfall = decide ((s.zone z).claims.length < (s.zone z).needed)
  unclaimed : ∀ i, (s.fan i).state = .idle ∨ (s.fan i).takesClaims = false → (s.fan i).claims = .empty
  waiting : ∀ i, (s.fan i).state = .waiting → (s.fan i).claims.none_ = false
  stopping : ∀ i, (s.fan i).state = .proving ∨ (s.fan i).state = .running →
    (s.fan i).stopPending = (s.fan i).claims.none_ ∧ ((s.fan i).claims.none_ = true → (s.fan i).minRunElapsed = false)

/-- What an active zone shows once a step is done: the sight and the voted reading that its members give (R46, R47), a spill just while
a present probe mapped to it contributes (R53), and the demand that follows under the regime in force (R45, R54). -/
structure ZoneLaw (s : State) : Prop where
  sight : ∀ z, (s.zone z).active = true → (s.zone z).sight = (s.sense z).sight
  voted : ∀ z, (s.zone z).active = true → (s.zone z).voted = (s.sense z).voted
  spill : ∀ z, (s.zone z).active = true → ((s.zone z).spill = true ↔ SpillIn s z)
  demand : ∀ z, (s.zone z).active = true → (s.zone z).demand = some ((s.zone z).demandUnder s.alarm.regime)

/-- Every condition image is what the state of its block says: CHANNEL FAULT with the cause's code (R12), CHANNEL NOTE (R16), GAS
with its level and the voted reading, BLIND and SHORTFALL with the number of fans missing (R61), SPILL with wet since and PROBE
FAULT with the detail's code (R123), FAN FAIL with the last fault detail's code (R94) and FLOW NOTE (R95); and so are the paused
images (R61) and the alarm unit's EQZ (R51). A code is the place of its value in the spec's table (R200). That an inactive image has
severity 0 and no value after a clear too is the model's choice, log entry 26. -/
structure ImageLaw (s : State) : Prop where
  channelFault : ∀ i, s.alarm.image (keyChannelFault i) =
    match (s.chan i).state.cause with
    | some cause =>
      .raised 2 (some ([FaultCause.loopOpen, .loopOver, .drift, .bumpFail, .noRecovery].idxOf cause))
    | none => .inactive
  channelNote : ∀ i, s.alarm.image (keyChannelNote i) =
    if ∃ k, (vget (s.chan i).flags k).set = true then .raised 1 none else .inactive
  gas : ∀ z, s.alarm.image (keyGas z) =
    if (s.zone z).gas = 0 then .inactive else .raised (s.zone z).gas (s.zone z).voted
  blind : ∀ z, s.alarm.image (keyBlind z) = if (s.zone z).sight = some .blind then .raised 2 none else .inactive
  shortfall : ∀ z, s.alarm.image (keyShortfall z) =
    if (s.zone z).shortfall = true then .raised 2 (some ((s.zone z).needed - (s.zone z).claims.length)) else .inactive
  paused : ∀ z, vget s.alarm.paused z = decide ((s.zone z).sight = some .paused)
  spill : ∀ p, s.alarm.image (keySpill p) =
    if (s.probe p).contribution = true then .raised 2 (s.probe p).wetSince else .inactive
  probeFault : ∀ p, s.alarm.image (keyProbeFault p) =
    if (s.probe p).state = some .fault then .raised 2 ((s.probe p).detail.map [ProbeDetail.opened, .shorted].idxOf)
    else .inactive
  fanFail : ∀ i, s.alarm.image (keyFanFail i) =
    if (s.fan i).state = .fault ∨ (s.fan i).state = .lockout .retries then
      .raised 2 ((s.fan i).lastFault.map [FanFault.noProof, .flowLost].idxOf)
    else .inactive
  flowNote : ∀ i, s.alarm.image (keyFlowNote i) = if (s.fan i).flowNote = true then .raised 1 none else .inactive
  eqz : s.alarm.eqz = s.eqz.debounced

/-! ## A start that is asked for, and its grant -/

/-- Fan `i`, which takes claims, has come to the record `f` by a claim, and `asked` is the state in which the arbiter considers a
grant: from IDLE the fan has entered WAITING with the present instant as its request time, and in WAITING the change is handed to the
arbiter (R73, R74, R108). -/
def StartAsked (s : State) (i : Fin 8) (f : Fan) (asked : State) : Prop :=
  ((s.fan i).state = .idle ∧ asked = ((s.setFan i { f with
    state := .waiting, coastTimer := none, noteTimer := none
    clearTimer := if f.flowNote && !f.flow.debounced then f.clearTimer else none }).notice (.fanChange i .waiting none)).setArb
    { s.arb with waiting := vset s.arb.waiting i (some s.time.clock) }) ∨
  ((s.fan i).state = .waiting ∧ asked = s.setFan i f)

/-- The record of a fan that a grant has started (R70, R75): PROVING with its output on, its timers started and FLOW NOTE off, or at
once RUNNING where its debounced flow is present (R76). -/
def Fan.startedAt (f : Fan) (clock : Nat) : Fan :=
  let proving : Fan := { f with
    state := .proving, output := true, startCount := min 65535 (f.startCount + 1), stopPending := false
    provingTimer := startTimer clock (1000 * f.cfg.proving), minRunTimer := startTimer clock (1000 * f.cfg.minRun)
    minRunElapsed := decide (f.cfg.minRun = 0), coastTimer := none, retryTimer := none, flowNote := false
    noteTimer := none, clearTimer := none }
  if f.flow.debounced then { proving with
    state := .running, provingTimer := none, retriesLeft := f.cfg.retries, exerciseOwed := false
    exerciseDue := if f.cfg.exInterval = 0 then none else some (clock + 3600000 * f.cfg.exInterval)
    manualTimer := if f.claims.manual then f.manualDuration.bind (fun d => startTimer clock (1000 * d)) else none
    exerciseTimer := if f.claims.exercise then startTimer clock (1000 * f.cfg.exDuration) else none }
  else proving

/-- Fan `j` has been granted a start in `u`, and what that leads to leaves `t` (R104, R110). Where the laws of a run hold in `u`, the
fan has left the waiting set for PROVING, or RUNNING with its debounced flow present (R75, R76), and no other fan has moved. -/
structure Granted (u : State) (j : Fin 8) (t : State) : Prop where
  keeps : CascadeKeeps u t
  zones : ZonesKept u t
  history : t.arb.history = u.arb.history ++ [u.time.clock]
  lastGrant : t.arb.lastGrant = some (j, u.time.clock)
  spacing : t.arb.spacing = some (u.time.clock + max 1 (1000 * u.arb.g))
  counted : (t.fan j).startCount = min 65535 ((u.fan j).startCount + 1)
  uncounted : ∀ i, i ≠ j → (t.fan i).startCount = (u.fan i).startCount
  others : FanLaw u → DerivedLaw u → ∀ i, i ≠ j → t.fan i = u.fan i ∧ t.requestTime i = u.requestTime i
  placed : FanLaw u → DerivedLaw u →
    t.requestTime j = none ∧ t.fan j = (u.fan j).startedAt u.time.clock

/-- A grant is considered in `asked`, and the command leaves `t`: nothing follows, or the fan that R109 chooses is granted (R108). -/
def Considered (asked t : State) : Prop :=
  (asked.grantChoice = none → t = asked) ∧ ∀ j, asked.grantChoice = some j → Granted asked j t

/-- Fan `i` tests for its owed exercise in `u`, and the command leaves `t` (R91): in IDLE, with the regime below GAS-ALARM and no
EXERCISE claim, it takes the exercise and asks for a start; elsewhere nothing follows. -/
def ExerciseTested (u : State) (i : Fin 8) (t : State) : Prop :=
  let f := u.fan i
  let taken := f.state = .idle ∧ f.exerciseOwed = true ∧ u.alarm.regime ≠ .gasAlarm ∧ u.alarm.regime ≠ .critical ∧
    f.claims.exercise = false
  (¬taken → t = u) ∧
  (taken → ∀ asked, StartAsked u i { f with exerciseOwed := false, claims := { f.claims with exercise := true } } asked →
    Considered asked t)

/-! ## A claim that ends -/

/-- Fan `i` has lost one of its claims, which leaves it the record `released`, and the command leaves `t` (R73). With a claim left it
keeps its state, and a waiting one is considered for a grant (R108). Without one, a proving or running fan is stop-pending before its
min-run has elapsed, and coasts after it (R77, R79); a waiting one leaves the waiting set for IDLE (R74), where it tests for an owed
exercise (R91); in any other state the set alone changes. -/
structure ClaimEnded (s : State) (i : Fin 8) (released : Fan) (t : State) : Prop where
  kept : released.claims.none_ = false → (s.fan i).state ≠ .waiting → t = s.setFan i released
  waits : released.claims.none_ = false → (s.fan i).state = .waiting → Considered (s.setFan i released) t
  stops : released.claims.none_ = true → (s.fan i).state = .proving ∨ (s.fan i).state = .running →
    (s.fan i).minRunElapsed = false → t = s.setFan i { released with stopPending := true }
  coasts : released.claims.none_ = true → (s.fan i).state = .proving ∨ (s.fan i).state = .running →
    (s.fan i).minRunElapsed = true →
    let coasting := (s.setFan i { released with
      state := .coasting, output := false, stopPending := false, manualTimer := none, provingTimer := none, minRunTimer := none
      retryTimer := none, flowLossTimer := none, exerciseTimer := none
      coastTimer := startTimer s.time.clock (1000 * (s.fan i).cfg.coast), noteTimer := none
      clearTimer := if (s.fan i).flowNote && !(s.fan i).flow.debounced then (s.fan i).clearTimer else none
      offTime := if (s.fan i).output then some s.time.clock else (s.fan i).offTime }).notice (.fanChange i .coasting none)
    Settles coasting t ∧ (s.alarm.regime ≠ .critical ∨ (s.fan i).cfg.rating ≠ .ordinary → t = coasting) ∧
    (FanLaw s → DerivedLaw s → ClaimLaw s → t.fan i = coasting.fan i)
  leaves : released.claims.none_ = true → (s.fan i).state = .waiting →
    ExerciseTested (((s.setFan i { released with
      state := .idle, coastTimer := none, retryTimer := none
      noteTimer := if (s.fan i).flow.debounced then some (s.time.clock + 10000) else none
      clearTimer := if (s.fan i).flowNote && !(s.fan i).flow.debounced then (s.fan i).clearTimer else none }).notice
      (.fanChange i .idle none)).setArb { s.arb with waiting := vset s.arb.waiting i none }) i t
  rests : released.claims.none_ = true → (s.fan i).state = .idle ∨ (s.fan i).state.resting = true → t = s.setFan i released

/-! ## A fan that comes to IDLE from FAULT or LOCKOUT -/

/-- Zone `z` misses fan `i`: active and in SHORTFALL, with the fan in its order, and the fan not withheld by CRITICAL (R56, R57). -/
def Misses (u : State) (z : Fin 6) (i : Fin 8) : Prop :=
  (u.zone z).active = true ∧ (u.zone z).shortfall = true ∧ i ∈ (u.zone z).cfg.order ∧
    ¬(u.alarm.regime = .critical ∧ (u.fan i).cfg.rating = .ordinary)

/-- Fan `i` has entered IDLE in `u`, from FAULT or LOCKOUT, and what that leads to leaves `t` (R84). An owed exercise is taken where the
regime is below GAS-ALARM (R91), and just the zones that miss the fan claim it (R57, R58). Claimed by nobody it stays as it came.
Claimed, it has entered WAITING at this instant, and is waiting or has been granted a start since (R73, R74, R108); no grant is then
left to be made. No other zone has changed, and no other fan but one that has been granted a start. That the fan tests for its owed
exercise before the zones take its availability, so that a fan which a zone misses takes the exercise too, is the model's choice, log
entry 4. -/
structure Freed (u : State) (i : Fin 8) (t : State) : Prop where
  missed : ∀ z, Misses u z i →
    let needed := match (u.zone z).demand with
      | some .idle => (u.zone z).cfg.needIdle
      | some .base => (u.zone z).cfg.needBase
      | some .boost => (u.zone z).cfg.needBoost
      | some .purge => (u.zone z).cfg.needPurge
      | none => 0
    t.zone z = { u.zone z with
      claims := (u.zone z).cfg.order.filter fun j => decide (j ∈ (u.zone z).claims ∨ j = i)
      shortfall := decide ((u.zone z).claims.length + 1 < needed) }
  unmissed : ∀ z, ¬Misses u z i → t.zone z = u.zone z
  zones : ∀ z, vget (t.fan i).claims.zones z = true ↔ Misses u z i
  exercise : (t.fan i).claims.exercise = true ↔
    (u.fan i).exerciseOwed = true ∧ u.alarm.regime ≠ .gasAlarm ∧ u.alarm.regime ≠ .critical
  manual : (t.fan i).claims.manual = false
  idle : (t.fan i).claims.none_ = true → t.fan i = u.fan i ∧ t.requestTime i = none
  claimed : (t.fan i).claims.none_ = false →
    let held : Fan := { u.fan i with
      claims := (t.fan i).claims, exerciseOwed := (u.fan i).exerciseOwed && !(t.fan i).claims.exercise }
    t.grantChoice = none ∧
    ((t.requestTime i = some u.time.clock ∧ t.fan i = { held with
        state := .waiting, coastTimer := none, noteTimer := none
        clearTimer := if (u.fan i).flowNote && !(u.fan i).flow.debounced then (u.fan i).clearTimer else none }) ∨
     (t.requestTime i = none ∧ t.arb.lastGrant = some (i, u.time.clock) ∧ t.fan i = held.startedAt u.time.clock))
  others : ∀ j, j ≠ i →
    (t.fan j = u.fan j ∧ t.requestTime j = u.requestTime j) ∨ t.arb.lastGrant = some (j, u.time.clock)

/-! ## A change of FLOW NOTE -/

/-- Fan `i` has come to the record `f`, which sets or clears its FLOW NOTE, and the command leaves `t` (R95). A change of FLOW NOTE is
handed to the alarm unit, and nothing else follows: where the regime and the permit were the derived ones they stay, and no fan, no
zone and no grant moves (R127, R140, R142). What the image of a cleared FLOW NOTE holds beside inactive is the model's choice, log
entry 26. -/
structure FlowNoted (s : State) (i : Fin 8) (f : Fan) (t : State) : Prop where
  settles : Settles (s.setFan i f) t
  unchanged : f.flowNote = (s.fan i).flowNote → t = s.setFan i f
  changed : f.flowNote ≠ (s.fan i).flowNote → DerivedLaw s →
    t = { s.setFan i f with
      alarm := { s.alarm with images := t.alarm.images, records := t.alarm.records, version := t.alarm.version }
      link := { s.link with notices := t.link.notices } } ∧
    t.alarm.image (keyFlowNote i) = (if f.flowNote then .raised 1 none else .inactive) ∧
    ∀ k, k ≠ keyFlowNote i → t.alarm.image k = s.alarm.image k ∧ t.alarm.record k = s.alarm.record k

/-! ## A rotation -/

/-- Zone `z` has rotated its order in `s`, and the command leaves `t` (R57, R58, R63): the first fan has moved to the end, the claim list
follows the new order, and allocation has claimed as many available fans as the present demand needs; the fans' claims of this zone
follow the list, their other claims stay. -/
def Rotated (s : State) (z : Fin 6) (t : State) : Prop :=
  let order := (s.zone z).cfg.order.drop 1 ++ (s.zone z).cfg.order.take 1
  let needed := match (s.zone z).demand with
    | some .idle => (s.zone z).cfg.needIdle
    | some .base => (s.zone z).cfg.needBase
    | some .boost => (s.zone z).cfg.needBoost
    | some .purge => (s.zone z).cfg.needPurge
    | none => 0
  let claims := allocated order (order.filter fun i => decide (i ∈ (s.zone z).claims)) needed fun i =>
    (s.fan i).available s.alarm.regime
  t.zone z = { s.zone z with
    cfg := { (s.zone z).cfg with order := order }, claims := claims, shortfall := decide (claims.length < needed) } ∧
  ∀ i, vget (t.fan i).claims.zones z = decide (i ∈ claims) ∧
    (∀ y, y ≠ z → vget (t.fan i).claims.zones y = vget (s.fan i).claims.zones y) ∧
    (t.fan i).claims.manual = (s.fan i).claims.manual

/-! ## The firing of a slot -/

/-- What is left of a slot `r` that has fired at room time `room` (R174): it is FREE after a one-shot; a repeating one is PENDING at the
anchor plus the smallest whole number of intervals that puts it after room time, or STALE where that lies beyond 2^48 - 1. -/
def MovesOn (r : Slot) (room : Nat) (left : Option Slot) : Prop :=
  (r.interval = 0 → left = none) ∧
  (r.interval ≠ 0 → ∃ n : Nat,
    let fire := r.anchor + n * (1000 * r.interval)
    room < fire ∧ (∀ m < n, r.anchor + m * (1000 * r.interval) ≤ room) ∧
    (fire < 2 ^ 48 → left = some { r with stale := false, fire := fire }) ∧
    (2 ^ 48 ≤ fire → ∃ stored, left = some { r with stale := true, fire := stored }))

/-- A slot has fired, and its SCHEDULE FIRED notice is among those queued since `q` (R174, R175). -/
def FiringNoted (q r : List Notice) (room : Nat) (k : Fin 8) (a : Action) (o : SlotOutcome) (jump : Bool) : Prop :=
  ∃ more : List Notice, r = more.foldl enqueue q ∧
    { time := room, body := .scheduleFired k a o jump, overflow := false } ∈ more

/-- Slot `k`, which holds `r`, fires in `s` and is the only one to; what it leads to leaves `t` (R174, R175). A MARK and a skipped
action act on no block; a performed START acts as a FAN START, a ROTATE as the request of that name, and an EXERCISE on the fan's due
time as R90 and R91 say. That the SCHEDULE FIRED notice follows those the action queues directly is the model's choice, log entry
4. -/
structure SlotFired (s : State) (k : Fin 8) (r : Slot) (jump : Bool) (t : State) : Prop where
  noted : FiringNoted s.link.notices t.link.notices s.time.room k r.action (s.outcomeOf r.action) jump
  moved : t.slot k = r.movedOn s.time.room ∧ MovesOn r s.time.room (t.slot k) ∧ ∀ j, j ≠ k → t.slot j = s.slot j
  zones : ZonesKept s t
  quiet : (s.outcomeOf r.action ≠ .performed ∨ ∃ tag, r.action = .mark tag) →
    t = (s.notice (.scheduleFired k r.action (s.outcomeOf r.action) jump)).setSlot k (r.movedOn s.time.room)
  start : ∀ i d, r.action = .start i d → s.outcomeOf r.action = .performed →
    let claimed : Fan := { s.fan i with
      claims := { (s.fan i).claims with manual := true }, manualDuration := if d = 0 then none else some d }
    let fired := fun u : State => (u.notice (.scheduleFired k r.action .performed jump)).setSlot k (r.movedOn s.time.room)
    CascadeKeeps ((s.setFan i claimed).setSlot k (r.movedOn s.time.room)) t ∧
    ((s.fan i).state = .running → t = fired (s.setFan i { claimed with
      manualTimer := startTimer s.time.clock (1000 * d)
      stopPending := (s.fan i).stopPending && (s.fan i).claims.manual })) ∧
    ((s.fan i).state = .proving → t = fired (s.setFan i { claimed with
      stopPending := (s.fan i).stopPending && (s.fan i).claims.manual })) ∧
    ((s.fan i).state = .coasting ∨
      ((s.fan i).claims.manual = true ∧ ((s.fan i).state = .idle ∨ (s.fan i).state = .waiting)) →
      t = fired (s.setFan i claimed)) ∧
    ((s.fan i).claims.manual = false → ∀ asked, StartAsked s i claimed asked →
      (asked.grantChoice = none → t = fired asked) ∧
      ∀ j, asked.grantChoice = some j → Granted (asked.setSlot k (r.movedOn s.time.room)) j t)
  rotate : ∀ z, r.action = .rotate z → s.outcomeOf r.action = .performed →
    CascadeKeeps ((s.setZone z { s.zone z with cfg := { (s.zone z).cfg with
      order := (s.zone z).cfg.order.drop 1 ++ (s.zone z).cfg.order.take 1 } }).setSlot k (r.movedOn s.time.room)) t ∧
    (FanLaw s → DerivedLaw s → ClaimLaw s → Rotated s z t)
  exercise : ∀ i, r.action = .exercise i → s.outcomeOf r.action = .performed →
    CascadeKeeps ((s.setFan i { s.fan i with exerciseOwed := true }).setSlot k (r.movedOn s.time.room)) t ∧
    ((s.fan i).state = .running →
      t = ((s.setFan i { s.fan i with
        exerciseDue := startTimer s.time.clock (3600000 * (s.fan i).cfg.exInterval) }).notice
        (.scheduleFired k r.action .performed jump)).setSlot k (r.movedOn s.time.room)) ∧
    ((s.fan i).state ≠ .running →
      ((s.fan i).state ≠ .idle ∨ s.alarm.regime = .gasAlarm ∨ s.alarm.regime = .critical ∨ (s.fan i).claims.exercise = true) →
      t = ((s.setFan i { s.fan i with exerciseDue := none, exerciseOwed := true }).notice
        (.scheduleFired k r.action .performed jump)).setSlot k (r.movedOn s.time.room)) ∧
    ((s.fan i).state = .idle → s.alarm.regime ≠ .gasAlarm → s.alarm.regime ≠ .critical →
      (s.fan i).claims.exercise = false → (t.fan i).claims.exercise = true ∧ (t.fan i).exerciseOwed = false ∧
      ∀ asked, StartAsked s i { s.fan i with
          exerciseDue := none, exerciseOwed := false, claims := { (s.fan i).claims with exercise := true } } asked →
        (asked.grantChoice = none →
          t = (asked.notice (.scheduleFired k r.action .performed jump)).setSlot k (r.movedOn s.time.room)) ∧
        ∀ j, asked.grantChoice = some j → Granted (asked.setSlot k (r.movedOn s.time.room)) j t)

end Sys2Proof.Machine
end

