-- ==== Sys2Proof/WellFormed.lean ====
section
/-! DEFINITION. Which terms of `Instr` stand for a command that can reach the part. The bounds are those of the frame: a
payload holds at most 240 bytes (R188), and a request of an unknown kind has a kind that is neither in R191's table nor one
of the part's own (R190). The machine is total on ill-formed terms too; no statement needs this file's checks to run. -/

namespace Sys2Proof

/-- The payload of CLEAR FLAGS is the channel, a count and the flags: it fits a frame (R188, R201). -/
def wellFormedFlagList (flags : List Byte) : Bool := flags.length ≤ 238

/-- The payload of MASK is a count and the classes (R188, R201). -/
def wellFormedClassList (classes : List Byte) : Bool := classes.length ≤ 239

/-- The payload of SET ZONE is 20 bytes and the fan order (R188, R201). -/
def wellFormedZoneOrder (order : List Byte) : Bool := order.length ≤ 220

/-- A taken request of an unknown kind: below 0x80 (R190) and not in the request table (R191). -/
def wellFormedUnknownKind (kind : Byte) : Bool := kind.toNat < 0x80 && !requestKinds.contains kind

/-- A command that can reach the part. -/
def wellFormed : Instr → Bool
  | .clearFlags _ _ flags => wellFormedFlagList flags
  | .mask _ classes => wellFormedClassList classes
  | .setZone _ _ fields => wellFormedZoneOrder fields.order
  | .unknownKind _ kind => wellFormedUnknownKind kind
  | .status _ => true | .readChannel _ _ => true | .readZone _ _ => true | .readFan _ _ => true
  | .readArbiter _ => true | .readAlarms _ _ => true | .readNotices _ => true | .readProbe _ _ => true
  | .readTime _ => true | .readSchedule _ => true | .acknowledge _ _ => true | .lampTest _ => true
  | .trace _ _ => true | .fanStart _ _ _ => true | .fanStop _ _ => true | .fanLock _ _ => true
  | .fanRelease _ _ => true | .rotate _ _ => true | .channelHold _ _ => true | .channelResume _ _ => true
  | .zero _ _ => true | .span _ _ _ => true | .bump _ _ => true | .setTime _ _ => true | .setTrim _ _ _ => true
  | .schedule _ _ => true | .cancel _ _ => true | .setChannel _ _ _ => true | .setProfile _ _ _ => true
  | .setFan _ _ _ => true | .setProbe _ _ _ => true | .setArbiter _ _ => true | .arm _ => true | .disarm _ => true
  | .powerOnReset _ => true | .sampleEvent _ _ => true | .warmupExpiry _ => true | .holdLimitExpiry _ => true
  | .recoverLimitExpiry _ => true | .bumpTimerExpiry _ => true | .zoneHoldExpiry _ => true | .lingerExpiry _ => true
  | .eqzDebounce => true | .flowDebounce _ => true | .provingExpiry _ => true | .minRunExpiry _ => true
  | .coastExpiry _ => true | .retryExpiry _ => true | .flowLossExpiry _ => true | .manualTimerExpiry _ => true
  | .exerciseRunExpiry _ => true | .exerciseDue _ => true | .flowNoteExpiry _ => true | .flowClearExpiry _ => true
  | .historyAgeOut => true | .spacingExpiry => true | .probeLineChange _ _ => true | .wetDebounceExpiry _ => true
  | .dryDebounceExpiry _ => true | .supervisionExpiry _ => true | .recoveryExpiry _ => true | .lampTestExpiry => true
  | .failsafeTimerExpiry => true | .slotFire _ => true | .serviceDebounce => true | .frameReceived => true
  | .crcMismatch => true | .badLengthByte => true | .interbyteGap => true | .framingFault => true | .breakLine => true
  | .frameSent => true | .traceFrameSend => true | .millisecond _ => true | .receivedByte _ => true

end Sys2Proof
end

