-- ==== Sys2Proof/Certificates/Slice0/Obligations.lean ====
section
/-! DEFINITION. The statements for the provers, in the order of OBLIGATIONS.json. A request's statement says what its reply
carries and what it leaves; where its work makes hand-overs, `Settles` says what their cascade leaves alone, `ZonesKept` in it what
each zone keeps: its gas level, hold timer, coupling and linger timer among it, but where a channel or a probe tells it. -/

section
open Sys2Proof Sys2Proof.Machine

/-! ## The queue, and requests in general -/

/-- The command at the front of the queue is the one a step runs. An empty queue leaves the part as it is: the model's choice,
log entry 17. -/
def Obligations.StepTakesFrontCommand : Prop :=
  (∀ (c : Instr) (rest : List Instr) (s : State), s.pending = c :: rest → step s = exec c (s.withPending rest)) ∧
  (∀ s : State, s.pending = [] → step s = .next s)

/-- No command ends in a fault or a refusal, and none touches the queue. -/
def Obligations.EveryCommandCompletes : Prop :=
  ∀ (c : Instr) (s : State), ∃ t, exec c s = .next t ∧ t.pending = s.pending

/-- A request that is taken leaves one reply outstanding, with its kind plus 0x80 and its own tag; a refused one changes nothing
else (R190, R191). -/
def Obligations.OneReplyPerRequest : Prop :=
  ∀ (c : Instr) (kind tag : Byte) (s : State), requestOf c = some (kind, tag) → s.link.outstanding = none →
    ∃ (t : State) (status : Status) (marks : Marks) (body : List Byte),
      exec c s = .next (t.sendReply { kind := kind + 0x80, tag := tag, payload := status.code :: marks.code :: body }) ∧
      (status ≠ .ok → t = s)

/-- While a request is outstanding, another has no effect (R190). -/
def Obligations.BusyPartDiscardsRequests : Prop :=
  ∀ (c : Instr) (kind tag : Byte) (r : Reply) (s : State), requestOf c = some (kind, tag) → s.link.outstanding = some r →
    exec c s = .next s

/-- A timer's or a line's event that has not come changes nothing: the model's choice, log entries 1 and 6. -/
def Obligations.EventsThatHaveNotComeChangeNothing : Prop :=
  ∀ (c : Instr) (s : State), hasCome s c = false → exec c s = .next s

/-- With the debounced SERVICE inactive, every service request is refused NEEDS SERVICE (R191, R192). -/
def Obligations.ServiceRequestsNeedService : Prop :=
  ∀ (c : Instr) (kind tag : Byte) (s : State), requestOf c = some (kind, tag) →
    kind ∈ [0x22, 0x23, 0x30, 0x31, 0x32, 0x33, 0x34, 0x40, 0x41, 0x50, 0x51, 0x52, 0x53, 0x54, 0x55, 0x5E, 0x5F] →
    s.link.service.debounced = false → s.link.outstanding = none → Declined c s (kind + 0x80) tag 4 []

/-- A number beyond its table is refused OUT OF RANGE (R17, R63, R64, R85, R87 to R89, R97, R124, R133, R138, R153, R176, R197),
and so are a CLEAR FLAGS that names a flag position above 4 (R15) and a SCHEDULE with a code that is no action, or with a zone or
a fan beyond its table where its action needs one (R173). A request of a kind that the table does not name is answered UNKNOWN
KIND (R191). -/
def Obligations.BadNumbersAndKindsAreRefused : Prop :=
  (∀ (tag n : Byte) (s : State), s.link.outstanding = none →
    (16 ≤ n.toNat → Declined (.readChannel tag n) s 0x82 tag 3 [] ∧ ∀ flags, Declined (.clearFlags tag n flags) s 0x91 tag 3 []) ∧
    (16 ≤ n.toNat → n ≠ 0xFF → Declined (.trace tag n) s 0x94 tag 3 []) ∧
    (6 ≤ n.toNat → Declined (.readZone tag n) s 0x83 tag 3 [] ∧ Declined (.rotate tag n) s 0xA4 tag 3 []) ∧
    (8 ≤ n.toNat → Declined (.readFan tag n) s 0x84 tag 3 [] ∧ Declined (.readProbe tag n) s 0x88 tag 3 [] ∧
      (∀ d, Declined (.fanStart tag n d) s 0xA0 tag 3 []) ∧ Declined (.fanStop tag n) s 0xA1 tag 3 [] ∧
      Declined (.cancel tag n) s 0xC3 tag 3 []) ∧
    (81 < n.toNat → Declined (.readAlarms tag n) s 0x86 tag 3 [] ∧
      (n ≠ 0xFF → Declined (.acknowledge tag n) s 0x90 tag 3 [])) ∧
    (s.link.service.debounced = true →
      (8 ≤ n.toNat → Declined (.fanLock tag n) s 0xA2 tag 3 [] ∧ Declined (.fanRelease tag n) s 0xA3 tag 3 []) ∧
      (16 ≤ n.toNat → Declined (.channelHold tag n) s 0xB0 tag 3 [] ∧ Declined (.channelResume tag n) s 0xB1 tag 3 [] ∧
        Declined (.zero tag n) s 0xB2 tag 3 [] ∧ (∀ k, Declined (.span tag n k) s 0xB3 tag 3 []) ∧
        Declined (.bump tag n) s 0xB4 tag 3 []))) ∧
  (∀ (tag : Byte) (s : State), s.link.outstanding = none →
    (∀ (i : Fin 16) (flags : List Byte), (∃ b ∈ flags, 5 ≤ b.toNat) →
      Declined (.clearFlags tag (indexByte i) flags) s 0x91 tag 3 []) ∧
    (∀ f : ScheduleFields, 4 ≤ f.action.toNat ∨ (f.action = 0 ∧ 6 ≤ f.target.toNat)
        ∨ ((f.action = 1 ∨ f.action = 2) ∧ 8 ≤ f.target.toNat) →
      Declined (.schedule tag f) s 0xC2 tag 3 [])) ∧
  (∀ (tag kind : Byte) (s : State), s.link.outstanding = none → kind.toNat < 0x80 → kind ∉ requestKinds →
    Declined (.unknownKind tag kind) s (kind + 0x80) tag 1 [])

/-! ## Reports -/

/-- STATUS and the READ requests but two report what stands and change nothing (R64, R97, R112, R124, R138, R171, R177, R196); the
layout of their fields is the model's, log entry 9. That READ ARBITER's hold-off is what the ordered tests of R112 give, which for
a due event that has not been taken is SPACING or BUDGET and not READY, is the model's choice, log entry 25. Eight slots fit
R188's 240 payload bytes, whatever they hold. READ NOTICES removes the oldest notices, up to six, and reports how many, how many
are left, and them (R194); the layout is the model's, log entry 9. -/
def Obligations.ReportsLeaveAllButTheNoticesTheyReturn : Prop :=
  (∀ (tag : Byte) (s : State), s.link.outstanding = none →
    Accepted (.status tag) s s 0x81 tag 0 s.statusBody ∧
    (∀ z : Fin 6, Accepted (.readZone tag (indexByte z)) s s 0x83 tag 0 (s.zoneBody z)) ∧
    (∀ i : Fin 8, Accepted (.readFan tag (indexByte i)) s s 0x84 tag 0 (s.fanBody i)) ∧
    Accepted (.readArbiter tag) s s 0x85 tag 0 s.arbiterBody ∧
    (∀ k : Fin 82, Accepted (.readAlarms tag (indexByte k)) s s 0x86 tag 0
      (bytesBE 2 s.alarm.version.toNat ++ bytesBE 1 s.alarm.table.length
        ++ listBE (((s.alarm.report.drop k.val).take 8).map fun x => Record.bytes x.1 x.2))) ∧
    (∀ p : Fin 8, Accepted (.readProbe tag (indexByte p)) s s 0x88 tag 0 (s.probeBody p)) ∧
    Accepted (.readTime tag) s s 0x89 tag 0
      (bytesBE 6 s.time.clock ++ bytesBE 6 s.time.room ++ bytesBE 2 s.time.rate
        ++ [s.time.sense.code] ++ bytesBE 3 s.time.acc) ∧
    Accepted (.readSchedule tag) s s 0x8A tag 0
      (bytesBE 6 s.time.room ++ ((List.finRange 8).map fun k => slotRow s.time.room (s.slot k)).flatten) ∧
    2 + (bytesBE 6 s.time.room ++ ((List.finRange 8).map fun k => slotRow s.time.room (s.slot k)).flatten).length ≤ 240) ∧
  (∀ (tag : Byte) (s : State), s.link.outstanding = none →
    Accepted (.readNotices tag) s (s.setLink { s.link with notices := s.link.notices.drop 6 }) 0x87 tag 0
      (bytesBE 1 (min 6 s.link.notices.length) ++ bytesBE 1 (s.link.notices.length - 6)
        ++ listBE ((s.link.notices.take 6).map Notice.bytes)))

/-- READ CHANNEL reports the flags as they stood, and then sets the seen mark of every flag that is set, of that channel alone
(R14, R17). Where the rules leave the layout of the reply's fields open it is the model's, log entry 9. -/
def Obligations.ReadChannelMarksFlagsSeen : Prop :=
  ∀ (tag : Byte) (i : Fin 16) (s : State), s.link.outstanding = none →
    ∃ t, Accepted (.readChannel tag (indexByte i)) s t 0x82 tag 0 (s.channelBody i) ∧
      t = s.setChan i { s.chan i with flags := (t.chan i).flags } ∧
      ∀ k, (vget (t.chan i).flags k).set = (vget (s.chan i).flags k).set ∧
        (vget (t.chan i).flags k).seen = ((vget (s.chan i).flags k).seen || (vget (s.chan i).flags k).set)

/-! ## Alarm requests and TRACE -/

/-- ACKNOWLEDGE of one key or of ALL: an ACTIVE-UNACK record becomes ACTIVE-ACK, a CLEARED-UNACK record is removed, an ACTIVE-ACK
record stays; the version moves where a record was affected, the permit is recomputed, and nothing but a PERMIT CHANGE notice is
queued (R133, R138, R139, R142). -/
def Obligations.AcknowledgeActsByRecordState : Prop :=
  ∀ (tag key : Byte) (named : Fin 82 → Bool) (s : State), s.link.outstanding = none → DerivedLaw s →
    ((key = 0xFF ∧ named = fun _ => true) ∨ ∃ k : Fin 82, key = indexByte k ∧ named = fun j => decide (j = k)) →
    ∃ t, Accepted (.acknowledge tag key) s t 0x90 tag 0
        [BitVec.ofNat 8 ((List.finRange 82).filter fun k => named k && (s.alarm.record k).any Record.unacknowledged).length] ∧
      t = { s with
        alarm := { s.alarm with records := t.alarm.records, version := t.alarm.version, permit := t.alarm.permit }
        link := { s.link with notices := t.link.notices } } ∧
      (∀ k, t.alarm.record k =
        if named k then
          match s.alarm.record k with
          | none => none
          | some r =>
            match r.state with
            | .activeUnack => some { r with state := .activeAck }
            | .activeAck => some r
            | .clearedUnack => none
        else s.alarm.record k) ∧
      t.alarm.version = s.alarm.version
        + (if (List.finRange 82).any fun k => named k && (s.alarm.record k).any Record.unacknowledged then 1 else 0) ∧
      t.alarm.permit = permitOf t.alarm s.setup.armed ∧
      t.link.notices =
        if t.alarm.permit = s.alarm.permit then s.link.notices
        else enqueue s.link.notices { time := s.time.room, body := .permitChange t.alarm.permit, overflow := false }

/-- CLEAR FLAGS clears each listed flag that is both set and seen, and lists the flags that remain set (R15). Where the rules
leave the layout of the reply's fields open it is the model's, log entry 11. -/
def Obligations.ClearFlagsNeedsSeenMarks : Prop :=
  ∀ (tag : Byte) (i : Fin 16) (listed : List (Fin 5)) (s : State), s.link.outstanding = none →
    ∃ t, Accepted (.clearFlags tag (indexByte i) (listed.map indexByte)) s t 0x91 tag 0
        (listBE (((List.finRange 5).filter fun k => (vget (t.chan i).flags k).set).map fun k =>
          [indexByte k, if (vget (t.chan i).flags k).seen then 1 else 0])) ∧
      Settles (s.setChan i { s.chan i with flags := (t.chan i).flags }) t ∧
      ∀ k, vget (t.chan i).flags k =
        if listed.contains k && (vget (s.chan i).flags k).set && (vget (s.chan i).flags k).seen then
          { set := false, seen := false }
        else vget (s.chan i).flags k

/-- MASK sets the whole mask set: a class that becomes masked loses its records, and one that becomes unmasked gains an
ACTIVE-UNACK record for each active image (R129, R135, R136). The version moves where a record has come or gone (R138), and one
ALARM CHANGE notice is queued for each record that has come, none for those that have gone (R136, R139); that they are queued in
key order is the model's choice, log entry 5. A list with a code beyond the nine classes is refused OUT OF RANGE, and one that
names a latching class NOT PERMITTED (R135). Where the rules leave the layout of the reply's fields open it is the model's, log
entry 11. -/
def Obligations.MaskReplacesTheMaskSet : Prop :=
  (∀ (tag : Byte) (channelNote flowNote : Bool) (s : State), s.link.outstanding = none → DerivedLaw s → TableLaw s.alarm →
    ∃ t, Accepted (.mask tag ((if channelNote then [4] else []) ++ (if flowNote then [8] else []))) s t 0x92 tag 0
        (listBE ((if channelNote then [[4]] else []) ++ (if flowNote then [[8]] else []))) ∧
      t = { s with
        alarm := { s.alarm with
          maskChannelNote := channelNote, maskFlowNote := flowNote, records := t.alarm.records, version := t.alarm.version }
        link := { s.link with notices := t.link.notices } } ∧
      t.alarm.version = s.alarm.version + (if ∀ k, t.alarm.record k = s.alarm.record k then 0 else 1) ∧
      t.link.notices =
        ((List.finRange 82).filter fun k => (s.alarm.record k).isNone && (t.alarm.record k).isSome).foldl (fun q k => enqueue q {
            time := s.time.room, body := .alarmChange k (some (.activeUnack, (s.alarm.image k).severity)), overflow := false })
          s.link.notices ∧
      ∀ k, t.alarm.record k =
        if t.alarm.masks (classOf k) then none
        else if s.alarm.masks (classOf k) then
          (if (s.alarm.image k).active then some {
              state := .activeUnack, severity := (s.alarm.image k).severity, peak := (s.alarm.image k).severity
              raised := s.time.room, cleared := none, value := none, repeats := 0 }
            else none)
        else s.alarm.record k) ∧
  (∀ (tag : Byte) (classes : List Byte) (s : State), s.link.outstanding = none →
    ((∃ b ∈ classes, 9 ≤ b.toNat) → Declined (.mask tag classes) s 0x92 tag 3 []) ∧
    ((∀ b ∈ classes, b.toNat < 9) → (∃ b ∈ classes, b ≠ 4 ∧ b ≠ 8) → Declined (.mask tag classes) s 0x92 tag 10 []))

/-- LAMP TEST starts its timer with 10 s over, the three outputs are on while it runs, and at its expiry each takes its computed
value (R147). That what is due may be taken late is the model's choice, log entry 1. HORN computes whether a record that is
ACTIVE-UNACK or CLEARED-UNACK has a peak of ALARM or CRITICAL (R144), BEACON whether a record that is ACTIVE-UNACK or ACTIVE-ACK has that
severity now (R145), ENTRY whether the regime is GAS-ALARM or CRITICAL or the part UNARMED (R146); with no lamp test each is driven
as computed. -/
def Obligations.LampTestRunsTenSeconds : Prop :=
  (∀ (tag : Byte) (s : State), s.link.outstanding = none →
    Accepted (.lampTest tag) s (s.setAlarm { s.alarm with lampTimer := some (s.time.clock + 10000) }) 0x93 tag 0 []) ∧
  (∀ (s : State) (t : Nat), s.alarm.lampTimer = some t →
    s.horn = true ∧ s.beacon = true ∧ s.entry = true ∧
    (t ≤ s.time.clock → ∃ u, exec .lampTestExpiry s = .next u ∧ u = s.setAlarm { s.alarm with lampTimer := none } ∧
      u.horn = u.alarm.hornOn ∧ u.beacon = u.alarm.beaconOn ∧ u.entry = u.entryOn)) ∧
  (∀ s : State,
    (s.alarm.hornOn = true ↔ ∃ k r, s.alarm.record k = some r ∧ (r.state = .activeUnack ∨ r.state = .clearedUnack) ∧ 2 ≤ r.peak) ∧
    (s.alarm.beaconOn = true ↔
      ∃ k r, s.alarm.record k = some r ∧ (r.state = .activeUnack ∨ r.state = .activeAck) ∧ 2 ≤ r.severity) ∧
    (s.entryOn = true ↔ s.alarm.regime = .gasAlarm ∨ s.alarm.regime = .critical ∨ s.setup.armed = false) ∧
    (s.alarm.lampTimer = none → s.horn = s.alarm.hornOn ∧ s.beacon = s.alarm.beaconOn ∧ s.entry = s.entryOn))

/-- TRACE selects a channel or none, sets the index to 0 and empties the buffer (R197). Where the rules leave the layout of the
reply's fields open it is the model's, log entry 11. -/
def Obligations.TraceSelectsAndStartsAgain : Prop :=
  ∀ (tag : Byte) (selection : Option (Fin 16)) (s : State), s.link.outstanding = none →
    Accepted (.trace tag (indexOrNone selection)) s
      (s.setLink { s.link with traceChannel := selection, traceIndex := 0, traceBuffer := none }) 0x94 tag 0
      [indexOrNone selection]

/-! ## Fan and zone requests -/

/-- FAN START adds or keeps the MANUAL claim with the requested duration, clamped to 86 400 s, 0 for none (R85). A running fan's
manual timer starts anew, or stops, at the request, also where the set held the claim; a proving or running fan that gains the
claim is not stop-pending any more; a coasting one records it (R73). An idle fan enters WAITING with the request's instant as its
request time, and a grant is considered, as it is for a waiting fan that gains the claim (R73, R74, R108): none is made, or a fan
is granted a start. No zone's sight, gas level, coupling or spill changes, for no channel, EQZ or probe has (R45). An absent fan is
refused NOT PRESENT, one that takes no claim WRONG STATE. Where the rules leave the layout of the reply's fields open it is the
model's, log entry 11. -/
def Obligations.FanStartClaimsTheFan : Prop :=
  ∀ (tag : Byte) (i : Fin 8) (d : BitVec 24) (s : State), s.link.outstanding = none →
    let marks : Byte := if 86400 < d.toNat then 1 else 0
    let claimed : Fan := { s.fan i with
      claims := { (s.fan i).claims with manual := true }
      manualDuration := if d = 0 then none else some (min 86400 d.toNat) }
    ((s.fan i).cfg.present = false → Declined (.fanStart tag (indexByte i) d) s 0xA0 tag 8 []) ∧
    ((s.fan i).cfg.present = true →
      (s.fan i).state = .unmanaged ∨ (s.fan i).state = .fault ∨ (∃ cause, (s.fan i).state = .lockout cause) →
      Declined (.fanStart tag (indexByte i) d) s 0xA0 tag 5 []) ∧
    ((s.fan i).cfg.present = true → (s.fan i).takesClaims = true →
      ∃ t, Accepted (.fanStart tag (indexByte i) d) s t 0xA0 tag marks [(t.fan i).state.code] ∧
        CascadeKeeps (s.setFan i claimed) t ∧ ZonesKept s t) ∧
    ((s.fan i).cfg.present = true → (s.fan i).state = .running →
      Accepted (.fanStart tag (indexByte i) d) s
        (s.setFan i { claimed with
          manualTimer := if d = 0 then none else some (s.time.clock + 1000 * min 86400 d.toNat)
          stopPending := (s.fan i).stopPending && (s.fan i).claims.manual })
        0xA0 tag marks [4]) ∧
    ((s.fan i).cfg.present = true → (s.fan i).state = .proving →
      Accepted (.fanStart tag (indexByte i) d) s
        (s.setFan i { claimed with stopPending := (s.fan i).stopPending && (s.fan i).claims.manual }) 0xA0 tag marks [3]) ∧
    ((s.fan i).cfg.present = true →
      (s.fan i).state = .coasting ∨
        ((s.fan i).claims.manual = true ∧ ((s.fan i).state = .idle ∨ (s.fan i).state = .waiting)) →
      Accepted (.fanStart tag (indexByte i) d) s (s.setFan i claimed) 0xA0 tag marks [(s.fan i).state.code]) ∧
    ((s.fan i).cfg.present = true → (s.fan i).claims.manual = false → ∀ asked, StartAsked s i claimed asked →
      (asked.grantChoice = none → Accepted (.fanStart tag (indexByte i) d) s asked 0xA0 tag marks [2]) ∧
      (∀ j, asked.grantChoice = some j →
        ∃ t, Accepted (.fanStart tag (indexByte i) d) s t 0xA0 tag marks [(t.fan i).state.code] ∧ Granted asked j t))

/-- FAN STOP removes the MANUAL claim, with its duration and its timer; without one it changes nothing and answers NO CLAIM (R72,
R87). A proving or running fan left without a claim coasts where its min-run has elapsed, and before that is stop-pending and keeps
its state, its output and its other timers (R73, R77, R79). A waiting fan left without a claim leaves the waiting set for IDLE,
with no request time (R73, R74), where it takes an owed exercise if the regime is below GAS-ALARM (R91). A fan that keeps a claim
keeps its state, and a waiting one is considered for a grant (R73, R108); an idle or coasting one records the change. No
zone's sight, gas level, coupling or spill changes (R45). Where the rules leave the layout of the reply's fields open it is the
model's, log entry 11. -/
def Obligations.FanStopReleasesTheFan : Prop :=
  ∀ (tag : Byte) (i : Fin 8) (s : State), s.link.outstanding = none →
    let released : Fan := { s.fan i with
      claims := { (s.fan i).claims with manual := false }, manualDuration := none, manualTimer := none }
    ((s.fan i).cfg.present = false → Declined (.fanStop tag (indexByte i)) s 0xA1 tag 8 []) ∧
    ((s.fan i).cfg.present = true → (s.fan i).claims.manual = false →
      Accepted (.fanStop tag (indexByte i)) s s 0xA1 tag 4
        ((s.fan i).state.code :: listBE (s.fan i).claims.codes)) ∧
    ((s.fan i).cfg.present = true → (s.fan i).claims.manual = true →
      (∃ t, Accepted (.fanStop tag (indexByte i)) s t 0xA1 tag
          (if (s.fan i).claims.anyZone || (s.fan i).claims.exercise then 2 else 0)
          ((t.fan i).state.code :: listBE (t.fan i).claims.codes) ∧
        CascadeKeeps (s.setFan i released) t ∧ ZonesKept s t ∧
        ((s.fan i).state = .proving ∨ (s.fan i).state = .running → (s.fan i).minRunElapsed = true →
          (s.fan i).claims.anyZone = false → (s.fan i).claims.exercise = false → s.requestTime i = none →
          (t.fan i).state = .coasting ∧ (t.fan i).output = false ∧
          (t.fan i).offTime = (if (s.fan i).output then some s.time.clock else (s.fan i).offTime) ∧
          (t.fan i).coastTimer = startTimer s.time.clock (1000 * (s.fan i).cfg.coast))) ∧
      ((s.fan i).claims.anyZone = false → (s.fan i).claims.exercise = false →
        ((s.fan i).state = .proving ∨ (s.fan i).state = .running → (s.fan i).minRunElapsed = false →
          Accepted (.fanStop tag (indexByte i)) s (s.setFan i { released with stopPending := true }) 0xA1 tag 0
            [(s.fan i).state.code, 0]) ∧
        ((s.fan i).state = .idle ∨ (s.fan i).state = .coasting →
          Accepted (.fanStop tag (indexByte i)) s (s.setFan i released) 0xA1 tag 0 [(s.fan i).state.code, 0]) ∧
        ((s.fan i).state = .waiting →
          let idle := ((s.setFan i { released with
            state := .idle, coastTimer := none, retryTimer := none
            noteTimer := if (s.fan i).flow.debounced then some (s.time.clock + 10000) else none
            clearTimer := if (s.fan i).flowNote && !(s.fan i).flow.debounced then (s.fan i).clearTimer else none }).notice
            (.fanChange i .idle none)).setArb { s.arb with waiting := vset s.arb.waiting i none }
          let taken := (s.fan i).exerciseOwed = true ∧ s.alarm.regime ≠ .gasAlarm ∧ s.alarm.regime ≠ .critical
          (¬taken → Accepted (.fanStop tag (indexByte i)) s idle 0xA1 tag 0 [1, 0]) ∧
          (taken → ∀ asked, StartAsked idle i { idle.fan i with
              exerciseOwed := false, claims := { (idle.fan i).claims with exercise := true } } asked →
            (asked.grantChoice = none → Accepted (.fanStop tag (indexByte i)) s asked 0xA1 tag 0 [2, 1, 7]) ∧
            (∀ j, asked.grantChoice = some j →
              ∃ t, Accepted (.fanStop tag (indexByte i)) s t 0xA1 tag 0
                ((t.fan i).state.code :: listBE (t.fan i).claims.codes) ∧ Granted asked j t)))) ∧
      ((s.fan i).claims.anyZone = true ∨ (s.fan i).claims.exercise = true →
        ((s.fan i).state ≠ .waiting →
          Accepted (.fanStop tag (indexByte i)) s (s.setFan i released) 0xA1 tag 2
            ((s.fan i).state.code :: listBE released.claims.codes)) ∧
        ((s.fan i).state = .waiting →
          ((s.setFan i released).grantChoice = none →
            Accepted (.fanStop tag (indexByte i)) s (s.setFan i released) 0xA1 tag 2 (2 :: listBE released.claims.codes)) ∧
          (∀ j, (s.setFan i released).grantChoice = some j →
            ∃ t, Accepted (.fanStop tag (indexByte i)) s t 0xA1 tag 2
              ((t.fan i).state.code :: listBE (t.fan i).claims.codes) ∧ Granted (s.setFan i released) j t))))

/-- FAN LOCK puts a managed fan into LOCKOUT with cause MANUAL, output off, without a claim and with every timer stopped; it
changes nothing from LOCKOUT (R88). That FLOW NOTE's two timers stop with the others, and that the one whose condition R95 finds
met in LOCKOUT then starts anew with its 10 s, is the model's reading, log entry 18. FAN RELEASE restores the retries left and
puts a locked fan into COASTING for what is left of its coast time, or into IDLE where none is left (R89). From IDLE it goes on as
its owed exercise and the zones that miss it claim it, and with no claim it stays there (R57, R84, R91); that it tests for the
owed exercise before the zones take its availability, and so takes the exercise also where a zone misses it, is the model's
choice, log entry 4. Where the rules leave the layout of the reply's fields open it is the model's, log entry 11. -/
def Obligations.FanLockAndReleaseMoveTheFan : Prop :=
  ∀ (tag : Byte) (i : Fin 8) (s : State), s.link.outstanding = none → s.link.service.debounced = true →
    ((s.fan i).cfg.present = false →
      Declined (.fanLock tag (indexByte i)) s 0xA2 tag 8 [] ∧ Declined (.fanRelease tag (indexByte i)) s 0xA3 tag 8 []) ∧
    ((s.fan i).cfg.present = true → (s.fan i).state = .unmanaged →
      Declined (.fanLock tag (indexByte i)) s 0xA2 tag 5 []) ∧
    ((s.fan i).cfg.present = true → (∀ cause, (s.fan i).state ≠ .lockout cause) →
      Declined (.fanRelease tag (indexByte i)) s 0xA3 tag 5 []) ∧
    (∀ cause, (s.fan i).cfg.present = true → (s.fan i).state = .lockout cause →
      Accepted (.fanLock tag (indexByte i)) s s 0xA2 tag 0 []) ∧
    ((s.fan i).cfg.present = true → (s.fan i).state ≠ .unmanaged → (∀ cause, (s.fan i).state ≠ .lockout cause) →
      ∃ t, Accepted (.fanLock tag (indexByte i)) s t 0xA2 tag 0 [] ∧
        Settles (((s.setFan i { s.fan i with
          state := .lockout .manual, output := false, claims := .empty, manualDuration := none, stopPending := false
          offTime := if (s.fan i).output then some s.time.clock else (s.fan i).offTime
          manualTimer := none, provingTimer := none, minRunTimer := none, coastTimer := none, retryTimer := none
          flowLossTimer := none, exerciseTimer := none
          noteTimer := if (s.fan i).flow.debounced then some (s.time.clock + 10000) else none
          clearTimer := if (s.fan i).flowNote && !(s.fan i).flow.debounced then some (s.time.clock + 10000)
            else none }).notice (.fanChange i (.lockout .manual) none)).leaveWaiting i) t ∧
        (t.fan i).state = .lockout .manual ∧ (t.fan i).output = false ∧ (t.fan i).claims = .empty ∧
        t.requestTime i = none) ∧
    (∀ cause, (s.fan i).cfg.present = true → (s.fan i).state = .lockout cause →
      ∃ t, Accepted (.fanRelease tag (indexByte i)) s t 0xA3 tag 0
          ((t.fan i).state.code :: timerLeft t.time.clock (t.fan i).coastTimer) ∧
        (∀ off, (s.fan i).offTime = some off → s.time.clock < off + 1000 * (s.fan i).cfg.coast →
          Settles ((s.setFan i { s.fan i with
            state := .coasting, retriesLeft := (s.fan i).cfg.retries
            coastTimer := some (off + 1000 * (s.fan i).cfg.coast), noteTimer := none
            clearTimer := if (s.fan i).flowNote && !(s.fan i).flow.debounced then (s.fan i).clearTimer else none }).notice
            (.fanChange i .coasting none)) t) ∧
        ((∀ off, (s.fan i).offTime = some off → off + 1000 * (s.fan i).cfg.coast ≤ s.time.clock) →
          let idle := (s.setFan i { s.fan i with
            state := .idle, retriesLeft := (s.fan i).cfg.retries
            noteTimer := if (s.fan i).flow.debounced then (s.fan i).noteTimer else none
            clearTimer := if (s.fan i).flowNote && !(s.fan i).flow.debounced then (s.fan i).clearTimer else none }).notice
            (.fanChange i .idle none)
          Settles idle t ∧ (FanLaw s → DerivedLaw s → ClaimLaw s → Freed idle i t)))

/-- ROTATE moves the first fan of a used zone's order to its end, puts the claim list into the new order, and runs allocation,
which claims as many available fans as the present demand needs; the fans' claims of this zone follow the list, their other claims
stay. It evaluates nothing but allocation, so that no zone's sight, gas level, hold timer or coupling changes (R45, R63). The
reply reports the order and the claim list (R57, R58, R63); UNARMED it is refused WRONG STATE, for an UNUSED zone NOT PRESENT.
Where the rules leave the layout of the reply's fields open it is the model's, log entry 11. -/
def Obligations.RotateMovesTheFirstFanLast : Prop :=
  ∀ (tag : Byte) (z : Fin 6) (s : State), s.link.outstanding = none →
    (s.setup.armed = false → Declined (.rotate tag (indexByte z)) s 0xA4 tag 5 []) ∧
    (s.setup.armed = true → s.members z = [] → Declined (.rotate tag (indexByte z)) s 0xA4 tag 8 []) ∧
    (s.setup.armed = true → s.members z ≠ [] →
      ∃ t, Accepted (.rotate tag (indexByte z)) s t 0xA4 tag 0
          (fanList ((s.zone z).cfg.order.drop 1 ++ (s.zone z).cfg.order.take 1) ++ fanList (t.zone z).claims) ∧
        CascadeKeeps (s.setZone z { s.zone z with cfg := { (s.zone z).cfg with
          order := (s.zone z).cfg.order.drop 1 ++ (s.zone z).cfg.order.take 1 } }) t ∧ ZonesKept s t ∧
        (FanLaw s → DerivedLaw s → ClaimLaw s → Rotated s z t))

/-! ## Test requests -/

/-- CHANNEL HOLD takes a channel from WARMUP or TRACKING into HOLD with its limit of 3600 s (R9, R154). CHANNEL RESUME takes one
from HOLD to TRACKING, an armed span reported as aborted, and one from BUMP to RECOVER, the test reported as aborted (R9, R155,
R160). Both are refused WRONG STATE from every other state. The channel's active zone senses anew, no other does (R45). Where the
rules leave the layout of the reply's fields open it is the model's, log entry 11. -/
def Obligations.ChannelHoldAndResumeMoveTheChannel : Prop :=
  ∀ (tag : Byte) (i : Fin 16) (s : State), s.link.outstanding = none → s.link.service.debounced = true →
    ((s.chan i).state = .warmup ∨ (s.chan i).state = .tracking →
      ∃ t, Accepted (.channelHold tag (indexByte i)) s t 0xB0 tag 0 [indexByte i, 3, 0, 0, 0x0E, 0x10] ∧
        Settles ((s.setChan i { s.chan i with
          state := .hold, timer := some (s.time.clock + 3600000), armedSpan := none }).notice (.channelChange i .hold)) t
          (MemberOf s i)) ∧
    ((s.chan i).state = .hold →
      ∃ t, Accepted (.channelResume tag (indexByte i)) s t 0xB1 tag 0 [indexByte i, 2, 0, 0, 0, 0, 0] ∧
        Settles (((match (s.chan i).armedSpan with
          | some k => s.notice (.testResult i (.spanAborted k))
          | none => s).setChan i { s.chan i with
          state := .tracking, timer := none, bumpTimer := none, bumpPeak := none, armedSpan := none }).notice
          (.channelChange i .tracking)) t (MemberOf s i)) ∧
    ((s.chan i).state = .bump →
      ∃ t, Accepted (.channelResume tag (indexByte i)) s t 0xB1 tag 0 [indexByte i, 5, 1, 0, 0, 0x02, 0x58] ∧
        Settles (((s.notice (.testResult i (.testAborted .resume false))).setChan i { s.chan i with
          state := .recover, timer := some (s.time.clock + 600000), bumpTimer := none, bumpPeak := none
          armedSpan := none }).notice (.channelChange i .recover)) t (MemberOf s i)) ∧
    ((s.chan i).state ≠ .warmup → (s.chan i).state ≠ .tracking →
      Declined (.channelHold tag (indexByte i)) s 0xB0 tag 5 []) ∧
    ((s.chan i).state ≠ .hold → (s.chan i).state ≠ .bump →
      Declined (.channelResume tag (indexByte i)) s 0xB1 tag 5 [])

/-- ZERO sets the baseline to 256 times the last mean, in HOLD and, entering HOLD, in FAULT with cause DRIFT; it is refused WRONG
STATE elsewhere or with no window completed, and OUT OF RANGE for a mean outside the zero band (R157). Where the rules leave the
layout of the reply's fields open it is the model's, log entry 11. The refusal with no mean is the model's reading, log entry
22. -/
def Obligations.ZeroSetsTheBaseline : Prop :=
  ∀ (tag : Byte) (i : Fin 16) (m : Int) (s : State), s.link.outstanding = none → s.link.service.debounced = true →
    ((s.chan i).state ≠ .hold → (s.chan i).state ≠ .fault .drift → Declined (.zero tag (indexByte i)) s 0xB2 tag 5 []) ∧
    ((s.chan i).windowCompleted = false → Declined (.zero tag (indexByte i)) s 0xB2 tag 5 []) ∧
    ((s.chan i).windowCompleted = true → (s.chan i).lastMean = some m →
      ((s.chan i).state = .hold ∨ (s.chan i).state = .fault .drift → ((s.chan i).cfg.zeroBand : Int) < |m| →
        Declined (.zero tag (indexByte i)) s 0xB2 tag 3 []) ∧
      ((s.chan i).state = .hold → |m| ≤ ((s.chan i).cfg.zeroBand : Int) →
        Accepted (.zero tag (indexByte i)) s (s.setChan i { s.chan i with baseline := 256 * m }) 0xB2 tag 0
          ([indexByte i, 3] ++ signedBE 3 (256 * m) ++ signedBE 2 m)) ∧
      ((s.chan i).state = .fault .drift → |m| ≤ ((s.chan i).cfg.zeroBand : Int) →
        ∃ t, Accepted (.zero tag (indexByte i)) s t 0xB2 tag 0 ([indexByte i, 3] ++ signedBE 3 (256 * m) ++ signedBE 2 m) ∧
          Settles ((s.setChan i { s.chan i with
            baseline := 256 * m, state := .hold, timer := some (s.time.clock + 3600000) }).notice
            (.channelChange i .hold)) t (MemberOf s i)))

/-- SPAN arms a span in HOLD, in place of one already armed; a known concentration outside 100 to 1000 is refused OUT OF RANGE,
and any other state WRONG STATE (R153, R158). BUMP takes a channel from TRACKING, or from FAULT with cause BUMP-FAIL, into BUMP
with its bump time running (R161); it is refused WRONG STATE elsewhere. Where the rules leave the layout of the reply's fields
open it is the model's, log entry 11. -/
def Obligations.SpanArmsAndBumpStarts : Prop :=
  ∀ (tag : Byte) (i : Fin 16) (k : BitVec 16) (s : State), s.link.outstanding = none → s.link.service.debounced = true →
    (k.toNat < 100 ∨ 1000 < k.toNat → Declined (.span tag (indexByte i) k) s 0xB3 tag 3 []) ∧
    (100 ≤ k.toNat → k.toNat ≤ 1000 → (s.chan i).state ≠ .hold → Declined (.span tag (indexByte i) k) s 0xB3 tag 5 []) ∧
    (100 ≤ k.toNat → k.toNat ≤ 1000 → (s.chan i).state = .hold →
      Accepted (.span tag (indexByte i) k) s (s.setChan i { s.chan i with armedSpan := some k.toNat }) 0xB3 tag 0
        ([indexByte i, 3] ++ bytesBE 2 k.toNat ++ bytesBE 1 (s.chan i).windowCount)) ∧
    ((s.chan i).state ≠ .tracking → (s.chan i).state ≠ .fault .bumpFail →
      Declined (.bump tag (indexByte i)) s 0xB4 tag 5 []) ∧
    ((s.chan i).state = .tracking ∨ (s.chan i).state = .fault .bumpFail →
      ∃ t, Accepted (.bump tag (indexByte i)) s t 0xB4 tag 0
          ([indexByte i, 4] ++ bytesBE 2 (s.chan i).cfg.bumpTime ++ bytesBE 2 (s.chan i).cfg.bumpLevel) ∧
        Settles ((s.setChan i { s.chan i with
          state := .bump, timer := none, bumpPeak := none
          bumpTimer := startTimer s.time.clock (1000 * (s.chan i).cfg.bumpTime) }).notice (.channelChange i .bump)) t
          (MemberOf s i))

/-! ## Time and schedule requests -/

/-- SET TIME sets room time, keeps the clock, the accumulator and the trim, and fires each PENDING slot whose fire time lies at or
before the new room time once, whatever order they fire in: each queues its SCHEDULE FIRED notice with the JUMP mark and the
outcome of its action, and moves on: to FREE after a one-shot, else to PENDING at the first anchor plus whole intervals after the
new room time, or to STALE where that lies beyond 2^48 - 1; the reply counts them. What one passed slot does is said whole, the
claims that a ROTATE's allocation leaves and the grant that a START leads to among it (R63, R85); which outcome its action has is
said with the firing of slots. No channel, no probe, no zone's gas level and no record that an action does not name is touched
(R169, R174, R175). Where the rules leave the layout of the reply's fields open it is the model's, log entry 11. -/
def Obligations.SetTimeFiresThePassedSlots : Prop :=
  (∀ (tag : Byte) (time : BitVec 48) (s : State), s.link.outstanding = none → s.link.service.debounced = true →
    let set := s.setTime { s.time with room := time.toNat }
    let body := bytesBE 6 s.time.room ++ bytesBE 6 time.toNat
      ++ [BitVec.ofNat 8 ((List.finRange 8).filter fun k => slotDue time.toNat (s.slot k)).length]
    (∃ t, Accepted (.setTime tag time) s t 0xC0 tag 0 body ∧
      t.time.room = time.toNat ∧ t.time.clock = s.time.clock ∧ t.time.acc = s.time.acc ∧ t.time.rate = s.time.rate ∧
      t.time.sense = s.time.sense ∧
      (∀ k, t.slot k =
        if slotDue time.toNat (s.slot k) then (s.slot k).bind fun r => r.movedOn time.toNat else s.slot k) ∧
      (∀ k r, s.slot k = some r → slotDue time.toNat (some r) = true → MovesOn r time.toNat (t.slot k)) ∧
      (∀ k r, s.slot k = some r → slotDue time.toNat (some r) = true → ∃ o,
        FiringNoted s.link.notices t.link.notices time.toNat k r.action o true ∧ (FanLaw s → o = s.outcomeOf r.action)) ∧
      t.chans = s.chans ∧ t.profiles = s.profiles ∧ t.probes = s.probes ∧ t.setup = s.setup ∧ t.eqz = s.eqz ∧
      ZonesKept s t ∧
      (∀ i, (t.fan i).cfg = (s.fan i).cfg ∧ (t.fan i).flow = (s.fan i).flow) ∧
      (∀ i, (∀ k r d, s.slot k = some r → r.action ≠ .start i d) →
        (t.fan i).claims.manual = (s.fan i).claims.manual ∧ (t.fan i).manualDuration = (s.fan i).manualDuration) ∧
      (∀ z, (∀ k r, s.slot k = some r → r.action ≠ .rotate z) → (t.zone z).cfg = (s.zone z).cfg) ∧
      t.arb.k = s.arb.k ∧ t.arb.w = s.arb.w ∧ t.arb.g = s.arb.g ∧ t.pending = s.pending ∧
      t.link = { s.link with notices := t.link.notices } ∧ NoticesFollow s.link.notices t.link.notices) ∧
    (∀ k r, s.slot k = some r → slotDue time.toNat (some r) = true →
      (∀ j, j ≠ k → slotDue time.toNat (s.slot j) = false) →
      ∃ t, Accepted (.setTime tag time) s t 0xC0 tag 0 body ∧ SlotFired set k r true t) ∧
    ((∀ k, slotDue time.toNat (s.slot k) = false) → Accepted (.setTime tag time) s set 0xC0 tag 0 body)) ∧
  (∀ (room : Nat) (held : Option Slot), slotDue room held = true ↔ ∃ r, held = some r ∧ r.stale = false ∧ r.fire ≤ room)

/-- SET TRIM replaces the rate and the sense and keeps the accumulator; they act from the next millisecond, at which the rate is
added to the accumulator and a carry gives room time 2 ms under FAST and none under SLOW, and a rate of 0 stops all carries. It
needs SERVICE, and a sense code that is neither FAST nor SLOW is refused (R170). -/
def Obligations.SetTrimReplacesRateAndSense : Prop :=
  ∀ (tag : Byte) (rate : BitVec 16) (code : Byte) (s : State), s.link.outstanding = none →
    (s.link.service.debounced = false → Declined (.setTrim tag rate code) s 0xC1 tag 4 []) ∧
    (s.link.service.debounced = true → code ≠ 0 → code ≠ 1 → Declined (.setTrim tag rate code) s 0xC1 tag 3 []) ∧
    (s.link.service.debounced = true → ∀ sense : Sense, code = sense.code →
      Accepted (.setTrim tag rate code) s (s.setTime { s.time with rate := rate.toNat, sense := sense }) 0xC1 tag 0
        (bytesBE 2 rate.toNat ++ [code] ++ bytesBE 3 s.time.acc)) ∧
    (∀ lines : Lines, ∃ t, exec (.millisecond lines) s = .next t ∧ t.time.rate = s.time.rate ∧
      t.time.sense = s.time.sense ∧
      t.time.acc = (if s.time.acc + s.time.rate < 16777216 then s.time.acc + s.time.rate
        else s.time.acc + s.time.rate - 16777216) ∧
      (s.time.acc + s.time.rate < 16777216 → t.time.room = (s.time.room + 1) % 2 ^ 48) ∧
      (16777216 ≤ s.time.acc + s.time.rate → s.time.sense = .fast → t.time.room = (s.time.room + 2) % 2 ^ 48) ∧
      (16777216 ≤ s.time.acc + s.time.rate → s.time.sense = .slow → t.time.room = s.time.room % 2 ^ 48) ∧
      (s.time.rate = 0 → s.time.acc < 16777216 → t.time.acc = s.time.acc ∧ t.time.room = (s.time.room + 1) % 2 ^ 48))

/-- SCHEDULE takes the lowest-numbered FREE slot, with a START's duration clamped to 86 400 s and a repeat interval other than 0
to 60 s at least and 604 800 s at most, each clamping marked CLAMPED (R173). The slot is PENDING where the fire time lies ahead of
room time. A passed fire time makes it STALE with no interval; with one it waits for the first occurrence after room time, and is
STALE where that lies beyond 2^48 - 1. What an action names must be present, a zone used and a fan present by its record (R43,
R67), else it is refused NOT PRESENT; with no slot FREE it is refused TABLE FULL, and fields that name no action are refused OUT
OF RANGE. The layout of the request's and the reply's fields is the model's, log entry 10; what fire time a STALE slot holds is
open, log entry 7. -/
def Obligations.ScheduleTakesTheLowestFreeSlot : Prop :=
  (∀ (tag : Byte) (f : ScheduleFields) (s : State), s.link.outstanding = none → (∀ action, ¬ScheduleGives f action) →
    Declined (.schedule tag f) s 0xC2 tag 3 []) ∧
  (∀ (tag : Byte) (f : ScheduleFields) (action : Action) (s : State), s.link.outstanding = none → ScheduleGives f action →
    let given := f.fire.toNat
    let asked := f.interval.toNat
    let interval := if asked = 0 then 0 else if asked < 60 then 60 else if 604800 < asked then 604800 else asked
    let marks : Byte :=
      if (f.action = 1 ∧ 86400 < f.duration.toNat) ∨ (0 < asked ∧ asked < 60) ∨ 604800 < asked then 1 else 0
    (¬TargetPresent s action → Declined (.schedule tag f) s 0xC2 tag 8 []) ∧
    (TargetPresent s action → (∀ k, (s.slot k).isSome = true) → Declined (.schedule tag f) s 0xC2 tag 9 []) ∧
    (TargetPresent s action → ∀ k, s.slot k = none → (∀ j, j < k → (s.slot j).isSome = true) →
      (s.time.room < given →
        Accepted (.schedule tag f) s (s.setSlot k (some {
            stale := false, anchor := given, fire := given, action := action, interval := interval })) 0xC2 tag marks
          ([indexByte k, 1, 1] ++ bytesBE 6 given)) ∧
      (given ≤ s.time.room → asked = 0 →
        ∃ stored, Accepted (.schedule tag f) s (s.setSlot k (some {
            stale := true, anchor := given, fire := stored, action := action, interval := 0 })) 0xC2 tag marks
          [indexByte k, 2, 0, 0, 0, 0, 0, 0, 0]) ∧
      (given ≤ s.time.room → asked ≠ 0 →
        ∀ fire, s.time.room < fire → (∃ n : Nat, fire = given + n * (1000 * interval)) →
          fire ≤ s.time.room + 1000 * interval →
          (fire < 2 ^ 48 →
            Accepted (.schedule tag f) s (s.setSlot k (some {
                stale := false, anchor := given, fire := fire, action := action, interval := interval })) 0xC2 tag marks
              ([indexByte k, 1, 1] ++ bytesBE 6 fire)) ∧
          (2 ^ 48 ≤ fire →
            ∃ stored, Accepted (.schedule tag f) s (s.setSlot k (some {
                stale := true, anchor := given, fire := stored, action := action, interval := interval })) 0xC2 tag marks
              [indexByte k, 2, 0, 0, 0, 0, 0, 0, 0]))))

/-- CANCEL frees a slot in any state, reports the state it had, and queues no notice; the slot is then the next one SCHEDULE
takes where every lower one is occupied (R176). -/
def Obligations.CancelFreesTheSlot : Prop :=
  (∀ (tag n : Byte) (s : State), s.link.outstanding = none → 8 ≤ n.toNat → Declined (.cancel tag n) s 0xC3 tag 3 []) ∧
  (∀ (tag : Byte) (k : Fin 8) (s : State), s.link.outstanding = none →
    Accepted (.cancel tag (indexByte k)) s (s.setSlot k none) 0xC3 tag 0
      [match s.slot k with
        | none => 0
        | some r => if r.stale then 2 else 1] ∧
    (s.setSlot k none).slot k = none ∧ (s.setSlot k none).link.notices = s.link.notices ∧
    ((∀ j, j < k → (s.slot j).isSome = true) → (s.setSlot k none).freeSlot = some k))

/-! ## Configuration, arming and reset -/

/-- With the part UNARMED and SERVICE active, a SET request whose fields name a record in range replaces the whole record, and
nothing else, and its reply carries the record (R21, R101, R181, R182). In either part state a record number beyond its table,
and fields that name no record (R1, R20, R42, R67, R101, R116), are refused OUT OF RANGE, before any other check but the first. A
SET CHANNEL that would give a zone a fifth member is refused TABLE FULL (R182). While the part is ARMED, the SET requests are
refused WRONG STATE (R101, R181), but SET PROFILE, which is refused IN USE with the channels that hold the lock where one of them
is in WARMUP, TRACKING, BUMP or RECOVER (R21, R22). Where the rules leave the layout of the reply's fields open it is the
model's, log entry 11. That SET PROFILE carries section A's five coefficients and then section B's, as R20's text lists them, is the
model's choice, log entry 24. -/
def Obligations.SetRequestsReplaceOneRecord : Prop :=
  (∀ (tag : Byte) (s : State), s.link.outstanding = none → s.link.service.debounced = true → s.setup.armed = false →
    (∀ (i : Fin 16) f cfg, ChannelGives f cfg →
      let full := cfg.enabled = true ∧ ∃ z, cfg.zone = some z ∧ 4 ≤ ((List.finRange 16).filter fun j =>
        decide (j ≠ i) && (s.chan j).cfg.enabled && decide ((s.chan j).cfg.zone = some z)).length
      (¬full → Accepted (.setChannel tag (indexByte i) f) s (s.setChan i { s.chan i with cfg := cfg }) 0xD0 tag 0
        (indexByte i :: cfg.bytes)) ∧
      (full → Declined (.setChannel tag (indexByte i) f) s 0xD0 tag 9 [])) ∧
    (∀ (p : Fin 4) v new, ProfileGives v new →
      Accepted (.setProfile tag (indexByte p) v) s (s.setProfile p new) 0xD1 tag 0 [indexByte p]) ∧
    (∀ (z : Fin 6) f cfg, ZoneRecordGives f cfg →
      Accepted (.setZone tag (indexByte z) f) s (s.setZone z { s.zone z with cfg := cfg }) 0xD2 tag 0
        (indexByte z :: cfg.bytes)) ∧
    (∀ (i : Fin 8) f cfg, FanGives f cfg →
      Accepted (.setFan tag (indexByte i) f) s (s.setFan i { s.fan i with cfg := cfg }) 0xD3 tag 0
        (indexByte i :: cfg.bytes)) ∧
    (∀ (p : Fin 8) f cfg, ProbeGives f cfg →
      Accepted (.setProbe tag (indexByte p) f) s (s.setProbe p { s.probe p with cfg := cfg }) 0xD4 tag 0
        (indexByte p :: cfg.bytes)) ∧
    (∀ f k w g, ArbiterGives f k w g →
      Accepted (.setArbiter tag f) s (s.setArb { s.arb with k := k, w := w, g := g }) 0xD5 tag 0
        (bytesBE 1 k ++ bytesBE 2 w ++ bytesBE 1 g))) ∧
  (∀ (tag n : Byte) (s : State), s.link.outstanding = none → s.link.service.debounced = true →
    (∀ f, 16 ≤ n.toNat ∨ (∀ cfg, ¬ChannelGives f cfg) → Declined (.setChannel tag n f) s 0xD0 tag 3 []) ∧
    (∀ v, 4 ≤ n.toNat ∨ (∀ new, ¬ProfileGives v new) → Declined (.setProfile tag n v) s 0xD1 tag 3 []) ∧
    (∀ f, 6 ≤ n.toNat ∨ (∀ cfg, ¬ZoneRecordGives f cfg) → Declined (.setZone tag n f) s 0xD2 tag 3 []) ∧
    (∀ f, 8 ≤ n.toNat ∨ (∀ cfg, ¬FanGives f cfg) → Declined (.setFan tag n f) s 0xD3 tag 3 []) ∧
    (∀ f, 8 ≤ n.toNat ∨ (∀ cfg, ¬ProbeGives f cfg) → Declined (.setProbe tag n f) s 0xD4 tag 3 []) ∧
    (∀ f, (∀ k w g, ¬ArbiterGives f k w g) → Declined (.setArbiter tag f) s 0xD5 tag 3 [])) ∧
  (∀ (tag : Byte) (s : State), s.link.outstanding = none → s.link.service.debounced = true → s.setup.armed = true →
    (∀ (i : Fin 16) f cfg, ChannelGives f cfg → Declined (.setChannel tag (indexByte i) f) s 0xD0 tag 5 []) ∧
    (∀ (z : Fin 6) f cfg, ZoneRecordGives f cfg → Declined (.setZone tag (indexByte z) f) s 0xD2 tag 5 []) ∧
    (∀ (i : Fin 8) f cfg, FanGives f cfg → Declined (.setFan tag (indexByte i) f) s 0xD3 tag 5 []) ∧
    (∀ (p : Fin 8) f cfg, ProbeGives f cfg → Declined (.setProbe tag (indexByte p) f) s 0xD4 tag 5 []) ∧
    (∀ f k w g, ArbiterGives f k w g → Declined (.setArbiter tag f) s 0xD5 tag 5 []) ∧
    (∀ (p : Fin 4) v new, ProfileGives v new →
      let holders := (List.finRange 16).filter fun i =>
        decide ((s.chan i).cfg.profile = p) && decide ((s.chan i).state ∈ [.warmup, .tracking, .bump, .recover])
      (holders = [] → Accepted (.setProfile tag (indexByte p) v) s (s.setProfile p new) 0xD1 tag 0 [indexByte p]) ∧
      (holders ≠ [] → Declined (.setProfile tag (indexByte p) v) s 0xD1 tag 6 (listBE (holders.map fun i => [indexByte i])))))

/-- A valid ARM places every block (R184). The part is ARMED and the failsafe sequence cancelled. The arbiter is emptied, and at
most one of the fans that the ARM left at rest has been granted a start since (R113). Each enabled channel is in WARMUP with its
baseline loaded (R18). Each present probe is DRY, or WET-PENDING at a WET line, its supervision running at an OPEN or SHORT one
(R119, R121, R125). Each fan is placed by its presence and its output (R99): one whose output was on proves without a grant, or
runs where its flow is present; without a claim it is stop-pending, or coasts where its min-run is 0, and with a claim it goes on;
one whose output was off is IDLE while no zone claims it; claimed, it waits with this instant as its request time or is the one
fan granted a start since, proving or running with the record that a grant gives (R75, R76, R99, R113), and where K is above 0
such a fan brings a grant about; an absent one is UNMANAGED with its output off. Each used zone is active, PAUSED, also at the
alarm unit, and demands PURGE; it claims the first fans of its order, as many as PURGE needs, is in SHORTFALL where its order
holds fewer, and each fan carries the claims of the zones that claim it and no other (R65). No other channel and no other probe
has changed, nor has an UNUSED zone that was inactive, as every zone of an UNARMED part is. A part that is ARMED is refused WRONG
STATE, and an invalid configuration INVALID CONFIG with the first record, by item and then by index, that fails one of R183's six
items, and for item 3 the first absent fan in the zone's order; a zone is used by its enabled channels (R43). Where the rules
leave the layout of the reply's fields open it is the model's, log entry 11. That the instant of the ARM counts as a channel's
last sampled instant is the model's reading, log entry 6. -/
def Obligations.ArmPlacesEveryBlock : Prop :=
  ∀ (tag : Byte) (s : State), s.link.outstanding = none → s.link.service.debounced = true →
    (s.setup.armed = true → Declined (.arm tag) s 0xDE tag 5 []) ∧
    (s.setup.armed = false → ∀ item index, FailsFirst s item index →
      (item ≠ 3 → Declined (.arm tag) s 0xDE tag 7 [BitVec.ofNat 8 item, BitVec.ofNat 8 index]) ∧
      (item = 3 → ∀ (z : Fin 6) before i after, z.val = index → (s.zone z).cfg.order = before ++ i :: after →
        (s.fan i).cfg.present = false → (∀ j ∈ before, (s.fan j).cfg.present = true) →
        Declined (.arm tag) s 0xDE tag 7 [3, indexByte z, indexByte i])) ∧
    (∀ z, s.used z = true ↔ InUse s z) ∧
    (s.setup.armed = false → (∀ item index, ¬FailsItem s item index) →
      ∃ t, Accepted (.arm tag) s t 0xDE tag 0
          ([((List.finRange 16).filter fun i => (s.chan i).cfg.enabled).length, ((List.finRange 6).filter s.used).length,
            ((List.finRange 8).filter fun i => (s.fan i).cfg.present).length,
            ((List.finRange 8).filter fun p => (s.probe p).cfg.present).length].map (BitVec.ofNat 8)) ∧
        t.setup = { s.setup with
          armed := true, failsafeList := [], failsafeTimer := none, failsafeMade := .replicate 8 false } ∧
        (∀ i, t.chan i = if (s.chan i).cfg.enabled then { s.chan i with
              state := .warmup, timer := startTimer s.time.clock (1000 * (s.chan i).cfg.warmup), preload := true
              baseline := (s.chan i).cfg.initialBaseline, reading := none, lastValid := none, windowSum := 0, windowCount := 0
              windowCompleted := false, warmupWindow := false, oorCount := 0, validRun := 0, sampledAt := some s.time.clock
              bumpTimer := none, bumpPeak := none, armedSpan := none }
            else s.chan i) ∧
        (∀ p, t.probe p = if (s.probe p).cfg.present then
              let dry : Probe := { Probe.absent (s.probe p).cfg (s.probe p).line with state := some .dry }
              match (s.probe p).line with
              | .dry => dry
              | .wet => { dry with
                  state := some .wetPending, wetSince := some s.time.room
                  debounceTimer := startTimer s.time.clock (1000 * (s.probe p).cfg.wetDebounce) }
              | .shorted => { dry with supervisionTimer := some (s.time.clock + 5000) }
              | .opened => { dry with supervisionTimer := some (s.time.clock + 5000) }
            else s.probe p) ∧
        (∀ z, (t.zone z).cfg = (s.zone z).cfg ∧ (t.zone z).active = (s.used z || (s.zone z).active)) ∧
        (∀ z, s.used z = false → (s.zone z).active = false → t.zone z = s.zone z) ∧
        (∀ z, s.used z = true →
          (t.zone z).sight = some .paused ∧ (t.zone z).voted = none ∧ (t.zone z).demand = some .purge ∧ (t.zone z).gas = 0 ∧
          (t.zone z).holdTimer = none ∧ (t.zone z).coupling = s.eqz.debounced ∧ (t.zone z).lingerTimer = none ∧
          (t.zone z).spill = false ∧ vget t.alarm.paused z = true) ∧
        (FanLaw s → DerivedLaw s → ClaimLaw s → ImageLaw s → ∀ z,
          (s.used z = true → (t.zone z).claims = (s.zone z).cfg.order.take (s.zone z).cfg.needPurge ∧
            (t.zone z).shortfall = decide ((s.zone z).cfg.order.length < (s.zone z).cfg.needPurge)) ∧
          ∀ i, vget (t.fan i).claims.zones z =
            (s.used z && decide (i ∈ (s.zone z).cfg.order.take (s.zone z).cfg.needPurge))) ∧
        (∀ i, (t.fan i).cfg = (s.fan i).cfg ∧ (t.fan i).flow = (s.fan i).flow ∧ (t.fan i).manualDuration =
          if (s.fan i).cfg.present then none else (s.fan i).manualDuration) ∧
        (FanLaw s → ∀ i,
          ((s.fan i).cfg.present = false →
            (t.fan i).state = .unmanaged ∧ (t.fan i).output = false ∧ (t.fan i).startCount = (s.fan i).startCount ∧
            (t.fan i).offTime = (if (s.fan i).output then some s.time.clock else (s.fan i).offTime)) ∧
          ((s.fan i).cfg.present = true →
            (t.fan i).takesClaims = true ∧ (t.fan i).retriesLeft = (s.fan i).cfg.retries ∧
            (t.fan i).claims.manual = false ∧ (t.fan i).claims.exercise = false ∧ (t.fan i).exerciseOwed = false ∧
            (t.fan i).exerciseDue = if (s.fan i).cfg.exInterval = 0 then none
              else some (s.time.clock + 3600000 * (s.fan i).cfg.exInterval)) ∧
          ((s.fan i).cfg.present = true → (s.fan i).output = false →
            ((t.fan i).state = .idle → (t.fan i).claims.none_ = true ∧ (t.fan i).output = false) ∧
            ((∀ z, i ∉ (s.zone z).cfg.order) → (t.fan i).state = .idle ∧ (t.fan i).stopPending = false)) ∧
          ((s.fan i).cfg.present = true → (s.fan i).output = true →
            (t.fan i).startCount = (s.fan i).startCount ∧ (t.fan i).flowNote = false ∧
            ((s.fan i).cfg.minRun ≠ 0 →
              (t.fan i).state = (if (s.fan i).flow.debounced then .running else .proving) ∧ (t.fan i).output = true ∧
              (t.fan i).provingTimer = (if (s.fan i).flow.debounced then none
                else startTimer s.time.clock (1000 * (s.fan i).cfg.proving)) ∧
              (t.fan i).minRunTimer = some (s.time.clock + 1000 * (s.fan i).cfg.minRun) ∧
              (t.fan i).minRunElapsed = false ∧ (t.fan i).stopPending = (t.fan i).claims.none_) ∧
            ((s.fan i).cfg.minRun = 0 →
              ((t.fan i).claims.none_ = true →
                (t.fan i).state = .coasting ∧ (t.fan i).output = false ∧ (t.fan i).offTime = some s.time.clock ∧
                (t.fan i).coastTimer = startTimer s.time.clock (1000 * (s.fan i).cfg.coast)) ∧
              ((t.fan i).claims.none_ = false →
                (t.fan i).state = (if (s.fan i).flow.debounced then .running else .proving) ∧ (t.fan i).output = true ∧
                (t.fan i).provingTimer = (if (s.fan i).flow.debounced then none
                  else startTimer s.time.clock (1000 * (s.fan i).cfg.proving)) ∧
                (t.fan i).minRunTimer = none ∧ (t.fan i).minRunElapsed = true ∧ (t.fan i).stopPending = false) ∧
              ((∀ z, i ∉ (s.zone z).cfg.order) → (t.fan i).claims.none_ = true)))) ∧
        (FanLaw s → DerivedLaw s → ClaimLaw s → ImageLaw s →
          (∀ i, (s.fan i).cfg.present = true → (s.fan i).output = false →
            let f := s.fan i
            let granted := t.arb.lastGrant = some (i, s.time.clock)
            let idle : Fan := { f with
              state := .idle, claims := (t.fan i).claims, retriesLeft := f.cfg.retries, stopPending := false
              manualDuration := none, exerciseOwed := false, coastTimer := none, retryTimer := none
              exerciseDue := if f.cfg.exInterval = 0 then none else some (s.time.clock + 3600000 * f.cfg.exInterval)
              noteTimer := if f.flow.debounced then some (s.time.clock + 10000) else none
              clearTimer := if f.flowNote && !f.flow.debounced then some (s.time.clock + 10000) else none }
            ((t.fan i).claims.none_ = true → t.fan i = idle ∧ ¬granted) ∧
            ((t.fan i).claims.none_ = false → ¬granted → t.fan i = { idle with state := .waiting, noteTimer := none }) ∧
            ((t.fan i).claims.none_ = false → granted → t.fan i = idle.startedAt s.time.clock)) ∧
          (0 < s.arb.k → ∀ i, (s.fan i).cfg.present = true → (s.fan i).output = false → (t.fan i).claims.none_ = false →
            t.arb.lastGrant.isSome = true)) ∧
        (FanLaw s →
          (∀ i, t.requestTime i = if (t.fan i).state = .waiting then some s.time.clock else none) ∧
          ((t.arb.history = [] ∧ t.arb.lastGrant = none ∧ t.arb.spacing = none ∧
              ∀ i, (t.fan i).startCount = (s.fan i).startCount) ∨
            ∃ i, (s.fan i).cfg.present = true ∧ (s.fan i).output = false ∧ t.arb.history = [s.time.clock] ∧
              t.arb.lastGrant = some (i, s.time.clock) ∧ t.arb.spacing = some (s.time.clock + max 1 (1000 * s.arb.g)) ∧
              (t.fan i).startCount = min 65535 ((s.fan i).startCount + 1) ∧
              ∀ j, j ≠ i → (t.fan j).startCount = (s.fan j).startCount)) ∧
        t.profiles = s.profiles ∧ t.time = s.time ∧ t.arb.k = s.arb.k ∧ t.arb.w = s.arb.w ∧ t.arb.g = s.arb.g ∧
        t.link.traceChannel = s.link.traceChannel ∧ NoticesFollow s.link.notices t.link.notices)

/-- DISARM clears every block (R186): each channel is OFF, its running fields, its flags and its test cleared, its baseline, gain
and filter history kept (R19, R152); each zone is inactive (R66); each fan is UNMANAGED without a claim, a timer or an exercise,
its start count, retries left, last fault detail and flow kept (R100); no probe is evaluated (R125), the arbiter is empty (R114),
every image inactive and every record removed (R151), the trace off; the configuration and the notices are kept, and outputs
follow the straps (R187). Each channel that was not OFF, each zone that was active and each fan that was managed queues its notice
(R19, R66, R100). An UNARMED part is refused WRONG STATE. -/
def Obligations.DisarmClearsEveryBlock : Prop :=
  ∀ (tag : Byte) (s : State), s.link.outstanding = none → s.link.service.debounced = true →
    (s.setup.armed = false → Declined (.disarm tag) s 0xDF tag 5 []) ∧
    (s.setup.armed = true →
      ∃ t, Accepted (.disarm tag) s t 0xDF tag 0 [] ∧
        (∀ i, t.chan i = { s.chan i with
          state := .off, timer := none, lastCode := none, lastValid := none, oorCount := 0, validRun := 0, preload := false
          reading := none, lastMean := none, excess := none, cRaw := none, windowSum := 0, windowCount := 0
          windowCompleted := false, warmupWindow := false, flags := .replicate 5 { set := false, seen := false }
          bumpTimer := none, bumpPeak := none, armedSpan := none }) ∧
        (∀ z, t.zone z = .inactive (s.zone z).cfg) ∧
        (∀ i, t.fan i = { s.fan i with
          state := .unmanaged, claims := .empty, manualDuration := none, stopPending := false, minRunElapsed := false
          exerciseOwed := false, exerciseDue := none, flowNote := false
          manualTimer := none, provingTimer := none, minRunTimer := none, coastTimer := none, retryTimer := none
          flowLossTimer := none, exerciseTimer := none, noteTimer := none, clearTimer := none
          output := (s.fan i).output && vget s.setup.straps i
          offTime := if (s.fan i).output && !vget s.setup.straps i then some s.time.clock else (s.fan i).offTime }) ∧
        (∀ p, t.probe p = .absent (s.probe p).cfg (s.probe p).line) ∧
        t.arb = { s.arb with history := [], spacing := none, lastGrant := none, waiting := .replicate 8 none } ∧
        (t.setup.armed = false ∧ t.setup.straps = s.setup.straps ∧
          t.setup.failsafeList = (List.finRange 8).filter (fun i => vget s.setup.straps i && !(s.fan i).output) ∧
          (∀ i, vget t.setup.failsafeMade i = (vget s.setup.straps i && (s.fan i).output)) ∧
          t.setup.failsafeTimer = if t.setup.failsafeList = [] then none else some (s.time.clock + 5000)) ∧
        ((∀ k, t.alarm.image k = .inactive ∧ t.alarm.record k = none) ∧ (∀ z, vget t.alarm.paused z = false) ∧
          t.alarm.regime = (if s.alarm.eqz then .chargeVent else .normal) ∧ t.alarm.permit = .holdFloat ∧
          t.alarm.maskChannelNote = s.alarm.maskChannelNote ∧ t.alarm.maskFlowNote = s.alarm.maskFlowNote ∧
          t.alarm.lampTimer = s.alarm.lampTimer ∧
          t.alarm.version = s.alarm.version + (if s.alarm.table = [] then 0 else 1)) ∧
        (t.link.traceChannel = none ∧ t.link.traceIndex = 0 ∧ t.link.traceBuffer = none ∧
          ∃ more : List Notice, t.link.notices = more.foldl enqueue s.link.notices ∧
            let queued := fun body : NoticeBody => decide ({ time := s.time.room, body := body, overflow := false } ∈ more)
            (∀ i, queued (.channelChange i .off) = decide ((s.chan i).state ≠ .off)) ∧
            (∀ z, queued (.zoneChange z none 0 none false) = (s.zone z).active) ∧
            (∀ i, queued (.fanChange i .unmanaged none) = decide ((s.fan i).state ≠ .unmanaged))) ∧
        t.profiles = s.profiles ∧ t.time = s.time ∧ t.eqz = s.eqz)

/-- A power-on reset puts every block at its reset values, latches the straps, takes the lines as they are read, and makes the
first failsafe start (R115, R179, R180); the queue of commands is not the part's. At the failsafe timer's expiry the first fan of
the list gets its failsafe start: output on, made mark, start count, out of the list; the timer runs again for 5 s where the list
still holds a fan (R180). That the first start is made at clock 0 and a due expiry may be late is the model's choice, log entries
1 and 3. -/
def Obligations.PowerOnResetAndFailsafeStarts : Prop :=
  (∀ (l : ResetLines) (s : State), ∃ t, exec (.powerOnReset l) s = .next t ∧
    (∀ i, t.chan i = .reset) ∧ (∀ p, t.profile p = .reset) ∧ (∀ z, t.zone z = .inactive .reset) ∧ t.arb = .reset ∧
    t.alarm = .reset ∧ t.time = .reset ∧ (∀ p, t.probe p = .absent .reset (classify (vget l.probes p))) ∧
    t.eqz = { line := l.lines.eqz, debounced := false, timer := if l.lines.eqz then some 2000 else none } ∧
    t.link = { Link.reset with
      service := { line := l.lines.service, debounced := false, timer := if l.lines.service then some 1000 else none } } ∧
    t.pending = s.pending ∧ t.setup.armed = false ∧ (∀ i, vget t.setup.straps i = l.safe.getLsbD i.val) ∧
    t.setup.failsafeList = ((List.finRange 8).filter fun i => l.safe.getLsbD i.val).drop 1 ∧
    t.setup.failsafeTimer = (if t.setup.failsafeList = [] then none else some 5000) ∧
    ∀ i : Fin 8,
      let first := decide (((List.finRange 8).filter fun j => l.safe.getLsbD j.val).head? = some i)
      vget t.setup.failsafeMade i = first ∧
      t.fan i = { Fan.reset with
        output := first, startCount := if first then 1 else 0
        flow := { line := l.lines.flow.getLsbD i.val, debounced := false
                  timer := if l.lines.flow.getLsbD i.val then some 1000 else none } }) ∧
  (∀ (i : Fin 8) (rest : List (Fin 8)) (t : Nat) (s : State), s.setup.failsafeTimer = some t → t ≤ s.time.clock →
    s.setup.failsafeList = i :: rest →
    exec .failsafeTimerExpiry s = .next ((s.setFan i { s.fan i with
      output := true, startCount := min 65535 ((s.fan i).startCount + 1) }).setSetup { s.setup with
        failsafeList := rest, failsafeMade := vset s.setup.failsafeMade i true
        failsafeTimer := if rest = [] then none else some (s.time.clock + 5000) }))

/-! ## Channels and the estimation pipeline -/

/-- A sample step: section A is stepped with the fed value, section B with section A's output, both outputs rounded with ties
away from zero and held to the 16-bit range, both histories shifted, and section B's output added to the window (R25 to R28). -/
def Obligations.SampleStepFiltersTheValue : Prop :=
  ∀ (c : Channel) (p : Profile) (s : Int),
    let accA := p.a.b0 * s + p.a.b1 * c.secA.x1 + p.a.b2 * c.secA.x2 - p.a.a1 * c.secA.y1 - p.a.a2 * c.secA.y2
    let outA := max (-32768) (min 32767 (roundAway accA 4096))
    let accB := p.b.b0 * outA + p.b.b1 * c.secB.x1 + p.b.b2 * c.secB.x2 - p.b.a1 * c.secB.y1 - p.b.a2 * c.secB.y2
    let outB := max (-32768) (min 32767 (roundAway accB 4096))
    (c.stepFilter p s).secA = { x1 := s, x2 := c.secA.x1, y1 := outA, y2 := c.secA.y1 } ∧
    (c.stepFilter p s).secB = { x1 := outA, x2 := c.secB.x1, y1 := outB, y2 := c.secB.y1 } ∧
    (c.stepFilter p s).windowSum = c.windowSum + outB ∧ (c.stepFilter p s).windowCount = c.windowCount + 1 ∧
    (c.secA.saturates p.a s = true ↔ roundAway accA 4096 < -32768 ∨ 32767 < roundAway accA 4096) ∧
    (c.secB.saturates p.b outA = true ↔ roundAway accB 4096 < -32768 ∨ 32767 < roundAway accB 4096)

/-- The default rounding gives the nearest integer, and at a tie the one further from zero (00_scope.md, Rounding). -/
def Obligations.DefaultRoundingIsNearestTiesAway : Prop :=
  ∀ (a : Int) (d : Nat), 0 < d →
    2 * |a - roundAway a d * d| ≤ d ∧ (2 * |a - roundAway a d * d| = d → |a| < |roundAway a d * d|)

/-- The excess is the mean less the baseline in whole filtered units, B divided by 256 and rounded to the nearest integer with
ties away from zero, from the baseline as it stands before the completion (R33). -/
def Obligations.ExcessUsesTheWholeBaseline : Prop :=
  ∀ (c : Channel) (m : Int),
    (∃ b : Int, c.excessOf m = m - b ∧ 2 * |c.baseline - b * 256| ≤ 256 ∧
      (2 * |c.baseline - b * 256| = 256 → |c.baseline| < |b * 256|) ∧
      (-8388608 ≤ c.baseline → c.baseline ≤ 8388352 → -32768 ≤ b ∧ b ≤ 32767 ∧
        (-32768 ≤ m → m ≤ 32767 → -65535 ≤ c.excessOf m ∧ c.excessOf m ≤ 65535))) ∧
    (c.baseline = 384 → c.excessOf m = m - 2) ∧ (c.baseline = -384 → c.excessOf m = m + 2) ∧
    c.completeWindow.excess = some (c.excessOf c.windowMean) ∧ c.completeWindow.baseline = c.baseline

/-- The raw concentration of an excess e is e times the gain over 2 to the scale shift, rounded to the nearest integer with ties
away from zero (R34). The reading is the raw concentration clamped into 0 to 1000; below -50 NEGATIVE occurs, above 1000 OVER
occurs, and each such completion is an occurrence that clears the flag's seen mark (R35). -/
def Obligations.ReadingIsClampedWithItsFlags : Prop :=
  ∀ (c : Channel) (raw : Int),
    (raw < 0 → readingOf raw = 0) ∧ (1000 < raw → readingOf raw = 1000) ∧
    (0 ≤ raw → raw ≤ 1000 → (readingOf raw : Int) = raw) ∧ readingOf raw ≤ 1000 ∧
    c.completeWindow.reading = some (readingOf (c.concentration (c.excessOf c.windowMean))) ∧
    (∀ e : Int,
      2 * |e * c.cfg.gain - c.concentration e * 2 ^ c.cfg.shift| ≤ 2 ^ c.cfg.shift ∧
      (2 * |e * c.cfg.gain - c.concentration e * 2 ^ c.cfg.shift| = 2 ^ c.cfg.shift →
        |e * c.cfg.gain| < |c.concentration e * 2 ^ c.cfg.shift|)) ∧
    ∀ k : Fin 5, vget (c.completionFlags raw).flags k =
      if (k = 2 ∧ raw < -50) ∨ (k = 3 ∧ 1000 < raw) then { set := true, seen := false } else vget c.flags k

/-- The baseline step's coefficient k is chosen by whether gas is present, c_raw at the track limit or above, and whether delta
is greater than 0 (R37). The step is k times delta over 65536, rounded to the nearest integer with ties toward zero, and is added
to B. It never passes the mean, a delta of 0 gives 0, and it is 0 whenever k times the magnitude of delta is 32768 or less, as
for k = 655 and every magnitude up to 50 (R38). -/
def Obligations.BaselineStepRoundsTiesTowardZero : Prop :=
  ∀ (c : Channel) (m raw : Int),
    let delta := 256 * m - c.baseline
    let k := c.cfg.trackCoefficient raw delta
    let moved := (c.trackBaseline m raw).baseline
    let step := moved - c.baseline
    (raw < c.cfg.trackLimit → 0 < delta → k = c.cfg.cnu) ∧ (raw < c.cfg.trackLimit → delta ≤ 0 → k = c.cfg.cnd) ∧
    (c.cfg.trackLimit ≤ raw → 0 < delta → k = c.cfg.cku) ∧ (c.cfg.trackLimit ≤ raw → delta ≤ 0 → k = c.cfg.ckd) ∧
    (k ≤ 65535 →
      2 * |k * delta - step * 65536| ≤ 65536 ∧
      (2 * |k * delta - step * 65536| = 65536 → |step * 65536| < |k * delta|) ∧
      |step| ≤ |delta| ∧
      (c.baseline ≤ 256 * m → c.baseline ≤ moved ∧ moved ≤ 256 * m) ∧
      (256 * m ≤ c.baseline → 256 * m ≤ moved ∧ moved ≤ c.baseline) ∧
      (delta = 0 → step = 0) ∧
      (k * |delta| ≤ 32768 → step = 0) ∧
      (k = 655 → |delta| ≤ 50 → step = 0))

/-- A valid sample of a channel outside a loop fault, whose window it does not fill: the code and s = code - 800 are taken, the
out-of-range count becomes 0, and s is fed, with a preload first where one is pending (R3, R4, R7). No zone is told of it before
the window completes (R32). Which instants are sampled is the model's reading of R3, log entry 6. -/
def Obligations.ValidSampleIsFed : Prop :=
  ∀ (i : Fin 16) (code : BitVec 12) (s : State), s.samples i = true → 400 ≤ code.toNat → code.toNat ≤ 4080 →
    (s.chan i).state ≠ .fault .loopOpen → (s.chan i).state ≠ .fault .loopOver →
    (s.chan i).windowCount + 1 < (s.chan i).cfg.window →
    let v : Int := (code.toNat : Int) - 800
    let taken : Channel := { s.chan i with
      lastCode := some code.toNat, sampledAt := some s.time.clock, oorCount := 0, lastValid := some v }
    let ready : Channel := if (s.chan i).preload then
      { taken with secA := ⟨v, v, v, v⟩, secB := ⟨v, v, v, v⟩, preload := false } else taken
    let p := s.profile (s.chan i).cfg.profile
    Leads (.sampleEvent i code) s (s.setChan i { ready.stepFilter p v with
      flags := ((ready.occurIf (ready.secA.saturates p.a v) .sectionA).occurIf
        (ready.secB.saturates p.b (ready.outputA p v)) .sectionB).flags })

/-- A valid sample that fills the window completes it, and so does an out-of-range one, the first or second of its run, that feeds
the last valid input in its place (R5). The mean is the window sum over N, nearest, ties away from zero (R29); the results are
computed, the NEGATIVE and OVER flags occur, and the channel's own tests act by its state: the end of warm-up, the baseline step
with the drift test, an armed span, the bump test, the recovery test (R8, R10, R31, R32, R39, R159, R162, R164). The channel's own
notices are the TEST RESULT of a span or of a passed bump, before the CHANNEL CHANGE of a changed state (R12, R166); that they
stand before those of the hand-overs is the model's choice, log entry 4. The completion of an enabled member of an active zone has
the zone sense anew after the channel's own tests: its sight, voted reading, gas level and hold timer are those that its members
then give (R11, R32, R45). A completion of the traced channel builds its record (R198, R199). A span of K passes where e is above
0 and K times 2^S over e, nearest, ties away from zero, lies in 1 to 65535, and fails elsewhere (R159). Which instants are sampled
is the model's reading of R3, log entry 6. -/
def Obligations.WindowCompletionActsByState : Prop :=
  (∀ (i : Fin 16) (code : BitVec 12) (taken : Channel) (v : Int) (s : State), s.samples i = true →
    (s.chan i).state ≠ .fault .loopOpen → (s.chan i).state ≠ .fault .loopOver →
    (s.chan i).windowCount + 1 = (s.chan i).cfg.window →
    ((400 ≤ code.toNat ∧ code.toNat ≤ 4080 ∧ v = (code.toNat : Int) - 800 ∧ taken = { s.chan i with
        lastCode := some code.toNat, sampledAt := some s.time.clock, oorCount := 0, lastValid := some v }) ∨
      ((code.toNat < 400 ∨ 4080 < code.toNat) ∧ (s.chan i).oorCount + 1 < 3 ∧ (s.chan i).preload = false ∧
        (s.chan i).lastValid = some v ∧ taken = { s.chan i with
          lastCode := some code.toNat, sampledAt := some s.time.clock
          oorDir := if code.toNat < 400 then .low else .high, oorCount := (s.chan i).oorCount + 1
          flags := vset (s.chan i).flags 4 { set := true, seen := false } })) →
    let fed := taken.fed (s.profile (s.chan i).cfg.profile) v
    ∃ m : Int, 2 * |fed.windowSum - m * fed.cfg.window| ≤ fed.cfg.window ∧
      (2 * |fed.windowSum - m * fed.cfg.window| = fed.cfg.window → |fed.windowSum| < |m * fed.cfg.window|) ∧
      let e := fed.excessOf m
      let raw := fed.concentration e
      let done := ({ fed with
        lastMean := some m, excess := some e, cRaw := some raw, reading := some (readingOf raw), windowCompleted := true
        warmupWindow := true, windowSum := 0, windowCount := 0 } : Channel).completionFlags raw
      let clock := s.time.clock
      let result : Channel × List NoticeBody :=
        match (s.chan i).state with
        | .warmup =>
          if (s.chan i).timer = none then ({ done with state := .tracking, timer := none }, [.channelChange i .tracking])
          else (done, [])
        | .tracking =>
          let b := done.baseline + done.cfg.baselineStep done.baseline m raw
          if (done.cfg.zeroBand * 256 : Int) < |b| then
            ({ done with baseline := b, state := .fault .drift, timer := none }, [.channelChange i (.fault .drift)])
          else ({ done with baseline := b }, [])
        | .hold =>
          match done.armedSpan with
          | none => (done, [])
          | some k =>
            match spanGain k done.cfg.shift e with
            | some g =>
              ({ done with cfg := { done.cfg with gain := g }, armedSpan := none }, [.testResult i (.spanPass g)])
            | none => ({ done with armedSpan := none }, [.testResult i (.spanFail e)])
        | .bump =>
          if done.cfg.bumpLevel ≤ readingOf raw then
            ({ done with
              state := .recover, timer := some (clock + 600000), bumpTimer := none, bumpPeak := none, armedSpan := none },
              [.testResult i (.bumpPass (readingOf raw)), .channelChange i .recover])
          else ({ done with bumpPeak := some (max (done.bumpPeak.getD 0) (readingOf raw)) }, [])
        | .recover =>
          if raw < done.cfg.trackLimit then ({ done with state := .tracking, timer := none }, [.channelChange i .tracking])
          else (done, [])
        | .fault _ => (done, [])
        | .off => (done, [])
      ∃ t, exec (.sampleEvent i code) s = .next t ∧ t.chan i = result.1 ∧
        CascadeKeeps (result.2.foldl State.notice (s.setChan i result.1)) t ∧
        (s.link.traceChannel = some i →
          t.link.traceBuffer = some {
            room := s.time.room, channel := i, mean := m, baseline := result.1.baseline, excess := e, cRaw := raw
            reading := readingOf raw, state := result.1.state, flags := result.1.flags.map FlagMark.set
            index := s.link.traceIndex
            coefficient := (s.profile (s.chan i).cfg.profile).coefficient s.link.traceIndex
            gap := s.link.traceBuffer.isSome } ∧
          t.link.traceIndex = if s.link.traceIndex = 9 then 0 else s.link.traceIndex + 1) ∧
        (s.link.traceChannel ≠ some i →
          t.link.traceBuffer = s.link.traceBuffer ∧ t.link.traceIndex = s.link.traceIndex) ∧
        ZonesKept (s.setChan i result.1) t (MemberOf s i)) ∧
  (∀ (k shift : Nat) (e : Int),
    (e ≤ 0 → spanGain k shift e = none) ∧
    (0 < e → ∃ c : Nat, 2 * |(k : Int) * 2 ^ shift - c * e| ≤ e ∧
      (2 * |(k : Int) * 2 ^ shift - c * e| = e → (k : Int) * 2 ^ shift < c * e) ∧
      spanGain k shift e = if 1 ≤ c ∧ c ≤ 65535 then some c else none))

/-- Outside a loop fault, the first and second out-of-range samples of a run count, set LOOP HOLD and feed the last valid input,
or nothing while preload is pending; the third puts the channel into FAULT with the cause of its own direction, the window
discarded (R4, R5, R13). In FAULT with a loop cause nothing is fed: a valid sample adds 1 to the valid run, and the one that
brings it to N puts the channel into WARMUP; an out-of-range sample restarts the run, and the third of a run sets the cause again
from its own direction, with a CHANNEL CHANGE notice where that is another one (R6, R7). Where the channel comes into a fault, or
out of one, its active zone senses anew; no other zone does (R45). Which instants are sampled is the model's reading of R3, log
entry 6. -/
def Obligations.LoopFaultsBeginAndEnd : Prop :=
  (∀ (i : Fin 16) (code : BitVec 12) (s : State), s.samples i = true → code.toNat < 400 ∨ 4080 < code.toNat →
    (s.chan i).state ≠ .fault .loopOpen → (s.chan i).state ≠ .fault .loopOver →
    let counted : Channel := { s.chan i with
      lastCode := some code.toNat, sampledAt := some s.time.clock
      oorDir := if code.toNat < 400 then .low else .high, oorCount := (s.chan i).oorCount + 1
      flags := vset (s.chan i).flags 4 { set := true, seen := false } }
    let cause : FaultCause := if code.toNat < 400 then .loopOpen else .loopOver
    ((s.chan i).oorCount + 1 < 3 → (s.chan i).preload = true ∨ (s.chan i).lastValid = none →
      Leads (.sampleEvent i code) s (s.setChan i counted)) ∧
    (∀ v, (s.chan i).oorCount + 1 < 3 → (s.chan i).preload = false → (s.chan i).lastValid = some v →
      (s.chan i).windowCount + 1 < (s.chan i).cfg.window →
      Leads (.sampleEvent i code) s (s.setChan i (counted.fed (s.profile (s.chan i).cfg.profile) v))) ∧
    (3 ≤ (s.chan i).oorCount + 1 →
      Leads (.sampleEvent i code) s
        ((((abortNotices i (s.chan i) .loop).foldl State.notice s).setChan i { counted with
          state := .fault cause, timer := none, oorCount := 0, validRun := 0, windowSum := 0, windowCount := 0
          bumpTimer := none, bumpPeak := none, armedSpan := none }).notice (.channelChange i (.fault cause)))
        (fun z => (∀ c, (s.chan i).state ≠ .fault c) ∧ MemberOf s i z))) ∧
  (∀ (i : Fin 16) (code : BitVec 12) (s : State), s.samples i = true →
    (s.chan i).state = .fault .loopOpen ∨ (s.chan i).state = .fault .loopOver →
    (400 ≤ code.toNat → code.toNat ≤ 4080 →
      let taken : Channel := { s.chan i with
        lastCode := some code.toNat, sampledAt := some s.time.clock, oorCount := 0
        lastValid := some ((code.toNat : Int) - 800) }
      ((s.chan i).validRun + 1 < (s.chan i).cfg.window →
        Leads (.sampleEvent i code) s (s.setChan i { taken with validRun := (s.chan i).validRun + 1 })) ∧
      ((s.chan i).cfg.window ≤ (s.chan i).validRun + 1 →
        Leads (.sampleEvent i code) s ((s.setChan i { taken with
          state := .warmup, timer := startTimer s.time.clock (1000 * (s.chan i).cfg.warmup), preload := true, reading := none
          windowSum := 0, windowCount := 0, lastValid := none, warmupWindow := false, validRun := 0 }).notice
          (.channelChange i .warmup)) (MemberOf s i))) ∧
    (code.toNat < 400 ∨ 4080 < code.toNat → (s.chan i).oorCount + 1 < 3 →
      Leads (.sampleEvent i code) s (s.setChan i { s.chan i with
        lastCode := some code.toNat, sampledAt := some s.time.clock
        oorDir := if code.toNat < 400 then .low else .high, oorCount := (s.chan i).oorCount + 1, validRun := 0 })) ∧
    (code.toNat < 400 ∨ 4080 < code.toNat → 3 ≤ (s.chan i).oorCount + 1 →
      let cause : FaultCause := if code.toNat < 400 then .loopOpen else .loopOver
      let again := s.setChan i { s.chan i with
        lastCode := some code.toNat, sampledAt := some s.time.clock
        oorDir := if code.toNat < 400 then .low else .high, oorCount := 0, validRun := 0, state := .fault cause }
      Leads (.sampleEvent i code) s
        (if (s.chan i).state = .fault cause then again else again.notice (.channelChange i (.fault cause)))))

/-- The expiries of a channel's timers (R9, R10, R160, R163): HOLD ends in TRACKING with an armed span aborted, RECOVER in FAULT
with cause NO-RECOVERY, BUMP in FAULT with cause BUMP-FAIL and the bump peak reported, WARMUP in TRACKING once a window has
completed. The active zone of the channel whose state changes senses anew, no other does, and no zone's coupling or spill changes
(R45). That what is due may be taken late is the model's choice, log entry 1. -/
def Obligations.ChannelTimersExpire : Prop :=
  ∀ (i : Fin 16) (t : Nat) (s : State), t ≤ s.time.clock →
    ((s.chan i).state = .warmup → (s.chan i).timer = some t →
      ((s.chan i).warmupWindow = true → Leads (.warmupExpiry i) s
        ((s.setChan i { s.chan i with state := .tracking, timer := none }).notice (.channelChange i .tracking)) (MemberOf s i)) ∧
      ((s.chan i).warmupWindow = false →
        exec (.warmupExpiry i) s = .next (s.setChan i { s.chan i with timer := none }))) ∧
    ((s.chan i).state = .hold → (s.chan i).timer = some t → Leads (.holdLimitExpiry i) s
      (((match (s.chan i).armedSpan with
        | some k => s.notice (.testResult i (.spanAborted k))
        | none => s).setChan i { s.chan i with
        state := .tracking, timer := none, bumpTimer := none, bumpPeak := none, armedSpan := none }).notice
        (.channelChange i .tracking)) (MemberOf s i)) ∧
    ((s.chan i).state = .recover → (s.chan i).timer = some t → Leads (.recoverLimitExpiry i) s
      ((s.setChan i { s.chan i with state := .fault .noRecovery, timer := none }).notice
        (.channelChange i (.fault .noRecovery))) (MemberOf s i)) ∧
    ((s.chan i).state = .bump → (s.chan i).bumpTimer = some t → Leads (.bumpTimerExpiry i) s
      (((s.notice (.testResult i (.bumpFail (s.chan i).bumpPeak))).setChan i { s.chan i with
        state := .fault .bumpFail, timer := none, bumpTimer := none, bumpPeak := none, armedSpan := none }).notice
        (.channelChange i (.fault .bumpFail))) (MemberOf s i))

/-! ## Zones -/

/-- At the hold timer's expiry the gas level falls by one, and a new hold starts at once with the full hold time where the new
level is 1 or above and the voted reading lies below its threshold less the hysteresis; otherwise the timer is stopped (R49). At
the linger timer's the coupling becomes false (R52); at a change of the debounced EQZ the value changes, is handed to the alarm
unit, and sets every active zone's coupling, at once where it became active or the zone's linger time is 0 (R51, R52). The gas
level rises at once to the highest level whose threshold the reading meets, the hold timer stopped; at or below it the level
stays, and the hold timer runs while the reading lies below the level's threshold less the hysteresis (R48, R49); without a voted
reading the hold timer stops, its time discarded, and the level stays (R50). What a zone's own timer or EQZ does not name stays as
it was, and so does the gas level and the hold timer of every other zone. That what is due may be taken late is the model's
choice, log entry 1. -/
def Obligations.ZoneTimersEqzAndGasLevel : Prop :=
  ((∀ (z : Fin 6) (t : Nat) (s : State), (s.zone z).active = true → t ≤ s.time.clock →
    ((s.zone z).holdTimer = some t →
      let level := (s.zone z).gas.val - 1
      let threshold := if level = 1 then (s.zone z).cfg.t1 else (s.zone z).cfg.t2
      let below := level ≠ 0 ∧ ∃ v, (s.zone z).voted = some v ∧ v + (s.zone z).cfg.hysteresis < threshold
      ∃ u, exec (.zoneHoldExpiry z) s = .next u ∧ CascadeKeeps s u ∧ (u.zone z).gas.val = level ∧
        (below → (u.zone z).holdTimer = startTimer s.time.clock (1000 * (s.zone z).cfg.hold)) ∧
        (¬below → (u.zone z).holdTimer = none) ∧
        (u.zone z).sight = (s.zone z).sight ∧ (u.zone z).voted = (s.zone z).voted ∧
        (u.zone z).coupling = (s.zone z).coupling ∧ (u.zone z).lingerTimer = (s.zone z).lingerTimer ∧
        (u.zone z).spill = (s.zone z).spill ∧ ∀ y, y ≠ z → SenseKept (s.zone y) (u.zone y)) ∧
    ((s.zone z).lingerTimer = some t →
      ∃ u, exec (.lingerExpiry z) s = .next u ∧ CascadeKeeps s u ∧ (u.zone z).coupling = false ∧
        (u.zone z).lingerTimer = none ∧
        ∀ y, SenseKept { s.zone y with
          coupling := (s.zone y).coupling && decide (y ≠ z), lingerTimer := if y = z then none else (s.zone y).lingerTimer }
          (u.zone y))) ∧
  (∀ (t : Nat) (s : State), s.eqz.timer = some t → t ≤ s.time.clock →
    ∃ u, exec .eqzDebounce s = .next u ∧
      CascadeKeeps { s with eqz := { s.eqz with debounced := !s.eqz.debounced, timer := none } } u ∧
      u.alarm.eqz = !s.eqz.debounced ∧
      (∀ z, SenseKept { s.zone z with coupling := (u.zone z).coupling, lingerTimer := (u.zone z).lingerTimer } (u.zone z)) ∧
      (∀ z, (s.zone z).active = false → SenseKept (s.zone z) (u.zone z)) ∧
      ∀ z, (s.zone z).active = true →
        (s.eqz.debounced = false → (u.zone z).coupling = true ∧ (u.zone z).lingerTimer = none) ∧
        (s.eqz.debounced = true → (s.zone z).cfg.linger = 0 →
          (u.zone z).coupling = false ∧ (u.zone z).lingerTimer = none) ∧
        (s.eqz.debounced = true → (s.zone z).cfg.linger ≠ 0 →
          (u.zone z).coupling = (s.zone z).coupling ∧
          (u.zone z).lingerTimer = some (s.time.clock + 1000 * (s.zone z).cfg.linger)))) ∧
  (∀ (z : Zone) (clock v : Nat), z.voted = some v → z.cfg.t1 < z.cfg.t2 → z.cfg.t2 < z.cfg.t3 → 0 < z.cfg.hold →
    let met : Nat := if z.cfg.t3 ≤ v then 3 else if z.cfg.t2 ≤ v then 2 else if z.cfg.t1 ≤ v then 1 else 0
    let threshold : Nat := if z.gas = 1 then z.cfg.t1 else if z.gas = 2 then z.cfg.t2 else z.cfg.t3
    (z.gas.val < met → (z.settleGas clock).gas.val = met ∧ (z.settleGas clock).holdTimer = none) ∧
    (met ≤ z.gas.val → (z.settleGas clock).gas = z.gas ∧
      (z.gas = 0 ∨ threshold ≤ v + z.cfg.hysteresis → (z.settleGas clock).holdTimer = none) ∧
      (z.gas ≠ 0 → v + z.cfg.hysteresis < threshold →
        (z.settleGas clock).holdTimer = some (z.holdTimer.getD (clock + 1000 * z.cfg.hold))))) ∧
  (∀ (z : Zone) (clock : Nat), z.voted = none → z.settleGas clock = { z with holdTimer := none })

/-- A zone senses its members: the sight by its vote, how many are healthy and whether one is failed (R46), and the voted reading,
the highest of the healthy ones' or, with vote SECOND and two of them, the second highest (R47). A member whose state changes,
here at the end of its recovery limit, has its active zone sense anew (R45). The demand is the highest that applies (R54), and a
fan is available as R56 says. An evaluation that starts at sight senses, takes the demand, and, where that differs from the one
before, allocates as many fans as the demand needs, with SHORTFALL where they fall short (R45, R55, R57): each fan added then
carries the zone's claim, each one dropped does not, and every other claim stays (R58, R59, R72). Allocation leaves a zone the
first fans that may be claimed: as many as it needs and are available, all of them available, in fan order, with the fans it
already had kept as far as they are available and needed, the earlier before the later (R57). That what is due may be taken late
is the model's choice, log entry 1. -/
def Obligations.AllocationTakesAvailableFansInOrder : Prop :=
  (∀ (order claims : List (Fin 8)) (n : Nat) (available : Fin 8 → Bool), order.Nodup → claims.Sublist order →
    let result := allocated order claims n available
    result.Sublist order ∧ (∀ f ∈ result, available f = true) ∧
    result.length = min n (order.filter available).length ∧
    (∀ f ∈ (claims.filter available).take n, f ∈ result) ∧
    (∀ f ∈ result, f ∉ (claims.filter available).take n →
      ∀ g ∈ order, available g = true → g ∉ result → order.idxOf f < order.idxOf g)) ∧
  (∀ (z : Fin 6) (s : State),
    let members := (List.finRange 16).filter fun i => (s.chan i).cfg.enabled && decide ((s.chan i).cfg.zone = some z)
    let readings := (members.filter fun i => decide ((s.chan i).state = .tracking)).filterMap fun i => (s.chan i).reading
    let failed := ∃ i ∈ members, ∃ cause, (s.chan i).state = .fault cause
    let vote := (s.zone z).cfg.vote
    ((s.sense z).sight = some .seeing ↔ (vote = .max ∧ 1 ≤ readings.length) ∨ (vote = .second ∧ 2 ≤ readings.length)) ∧
    ((s.sense z).sight = some .degraded ↔ vote = .second ∧ readings.length = 1) ∧
    ((s.sense z).sight = some .blind ↔ readings = [] ∧ failed) ∧
    ((s.sense z).sight = some .paused ↔ readings = [] ∧ ¬failed) ∧
    (readings = [] → (s.sense z).voted = none) ∧
    (vote = .max → readings ≠ [] → ∃ v ∈ readings, (s.sense z).voted = some v ∧ ∀ x ∈ readings, x ≤ v) ∧
    (∀ r, readings = [r] → (s.sense z).voted = some r) ∧
    (vote = .second → 2 ≤ readings.length → ∃ top v rest, readings.Perm (top :: v :: rest) ∧ v ≤ top ∧
      (∀ x ∈ rest, x ≤ v) ∧ (s.sense z).voted = some v)) ∧
  (∀ (i : Fin 16) (z : Fin 6) (t : Nat) (s : State), (s.chan i).state = .recover → (s.chan i).timer = some t →
    t ≤ s.time.clock → (s.chan i).cfg.enabled = true → (s.chan i).cfg.zone = some z → (s.zone z).active = true →
    let sensed := (s.setChan i { s.chan i with state := .fault .noRecovery, timer := none }).sense z
    ∃ u, exec (.recoverLimitExpiry i) s = .next u ∧ (u.zone z).sight = sensed.sight ∧ (u.zone z).voted = sensed.voted ∧
      (u.zone z).gas = sensed.gas ∧ (u.zone z).holdTimer = sensed.holdTimer) ∧
  (∀ (z : Zone) (regime : Regime),
    let purge := 2 ≤ z.gas.val ∨ z.sight = some .paused ∨ z.sight = some .blind ∨ regime = .critical
    let boost := 1 ≤ z.gas.val ∨ (z.cfg.coupled = true ∧ z.coupling = true) ∨ z.spill = true
    (z.demandUnder regime = .purge ↔ purge) ∧ (z.demandUnder regime = .boost ↔ ¬purge ∧ boost) ∧
    (z.demandUnder regime = .base ↔ ¬purge ∧ ¬boost ∧ z.cfg.baseFloor = .base) ∧
    (z.demandUnder regime = .idle ↔ ¬purge ∧ ¬boost ∧ z.cfg.baseFloor = .idle)) ∧
  (∀ (w : Work) (z : Fin 6),
    let sensed := w.st.sense z
    let demand := sensed.demandUnder w.st.alarm.regime
    let n := match demand with
      | .idle => sensed.cfg.needIdle | .base => sensed.cfg.needBase | .boost => sensed.cfg.needBoost
      | .purge => sensed.cfg.needPurge
    let claims := allocated sensed.cfg.order sensed.claims n fun i => (w.st.fan i).available w.st.alarm.regime
    let after := (w.evaluateSight z).st
    (sensed.demand = some demand → after.zone z = sensed ∧ ∀ i, after.fan i = w.st.fan i) ∧
    (sensed.demand ≠ some demand →
      after.zone z = { sensed with demand := some demand, claims := claims, shortfall := decide (claims.length < n) } ∧
      (sensed.cfg.order.Nodup → sensed.claims.Sublist sensed.cfg.order → ∀ i,
        (i ∈ claims → i ∉ sensed.claims → vget (after.fan i).claims.zones z = true) ∧
        (i ∈ sensed.claims → i ∉ claims → vget (after.fan i).claims.zones z = false) ∧
        ((i ∈ claims ↔ i ∈ sensed.claims) → vget (after.fan i).claims.zones z = vget (w.st.fan i).claims.zones z) ∧
        (∀ y, y ≠ z → vget (after.fan i).claims.zones y = vget (w.st.fan i).claims.zones y) ∧
        (after.fan i).claims.manual = (w.st.fan i).claims.manual))) ∧
  (∀ (f : Fan) (regime : Regime), f.available regime = true ↔
    f.cfg.present = true ∧ (f.state = .proving ∨ f.state = .running ∨
      ((f.state = .idle ∨ f.state = .waiting ∨ f.state = .coasting) ∧ ¬(regime = .critical ∧ f.cfg.rating = .ordinary))))

/-! ## Fans -/

/-- A proving fan whose proving timer expires, and a running fan whose flow-loss timer expires, enter FAULT with the detail, the
output off, no claim, and the retry timer running for the coast time (R80, R81). At the retry timer's expiry a fan with a retry
left spends it and enters IDLE, from where it goes on as its owed exercise and the zones that miss it claim it, and with no claim
stays there (R57, R84, R91); that it tests for the owed exercise before the zones take its availability, and so takes the exercise
also where a zone misses it, is the model's choice, log entry 4. One without a retry left enters LOCKOUT with cause RETRIES, its
output off, without a claim and with every timer of its state stopped (R82). In IDLE and LOCKOUT the flow-note timer starts where
the debounced flow is present, and the flow-clear timer runs on while it is absent and FLOW NOTE active (R95). No zone senses
anew, for a fan tells it of its availability alone (R45). That what is due may be taken late is the model's choice, log entry 1.
-/
def Obligations.FanFaultsAndRetries : Prop :=
  ∀ (i : Fin 8) (t : Nat) (s : State), t ≤ s.time.clock →
    let noting : Option Nat := if (s.fan i).flow.debounced then some (s.time.clock + 10000) else none
    let clearing : Option Nat := if (s.fan i).flowNote && !(s.fan i).flow.debounced then (s.fan i).clearTimer else none
    (∀ (c : Instr) (detail : FanFault),
      (c = .provingExpiry i ∧ (s.fan i).state = .proving ∧ (s.fan i).provingTimer = some t ∧ detail = .noProof) ∨
      (c = .flowLossExpiry i ∧ (s.fan i).state = .running ∧ (s.fan i).flowLossTimer = some t ∧ detail = .flowLost) →
      Leads c s ((s.setFan i { s.fan i with
        state := .fault, output := false, lastFault := some detail, claims := .empty, manualDuration := none
        stopPending := false, manualTimer := none, provingTimer := none, minRunTimer := none, coastTimer := none
        flowLossTimer := none, exerciseTimer := none, noteTimer := none, clearTimer := clearing
        retryTimer := startTimer s.time.clock (1000 * (s.fan i).cfg.coast)
        offTime := if (s.fan i).output then some s.time.clock else (s.fan i).offTime }).notice
        (.fanChange i .fault (some detail)))) ∧
    ((s.fan i).state = .fault → (s.fan i).retryTimer = some t →
      (∀ n, (s.fan i).retriesLeft = n + 1 →
        let idle := (s.setFan i { s.fan i with
          state := .idle, retryTimer := none, retriesLeft := n, noteTimer := noting, clearTimer := clearing }).notice
          (.fanChange i .idle none)
        ∃ u, exec (.retryExpiry i) s = .next u ∧ Settles idle u ∧
          (FanLaw s → DerivedLaw s → ClaimLaw s → Freed idle i u)) ∧
      ((s.fan i).retriesLeft = 0 →
        Leads (.retryExpiry i) s ((s.setFan i { s.fan i with
          state := .lockout .retries, output := false, claims := .empty, manualDuration := none, stopPending := false
          manualTimer := none, provingTimer := none, minRunTimer := none, coastTimer := none, retryTimer := none
          flowLossTimer := none, exerciseTimer := none, noteTimer := noting, clearTimer := clearing
          offTime := if (s.fan i).output then some s.time.clock else (s.fan i).offTime }).notice
          (.fanChange i (.lockout .retries) none))))

/-- At the min-run timer's expiry min-run elapsed becomes yes, and a stop-pending fan coasts, output off, for its coast time (R78,
R79). At the end of its coast a fan with a claim enters WAITING with its request time, and a grant is considered (R74, R79, R108);
one without enters IDLE, where it tests for an owed exercise (R79, R91). The manual timer's expiry removes the MANUAL claim (R86)
and the exercise run timer's the EXERCISE claim (R92); a fan left without a claim stops, coasts or goes back to IDLE as R73 and
R77 say. When the exercise falls due, a running fan takes a new due time and any other owes the exercise, which it takes where it
may (R90, R91). No zone senses anew (R45). That what is due may be taken late is the model's choice, log entry 1. -/
def Obligations.FanTimersExpire : Prop :=
  (∀ (i : Fin 8) (t : Nat) (s : State), t ≤ s.time.clock →
    let noting : Option Nat := if (s.fan i).flow.debounced then some (s.time.clock + 10000) else none
    let clearing : Option Nat := if (s.fan i).flowNote && !(s.fan i).flow.debounced then (s.fan i).clearTimer else none
    ((s.fan i).state = .proving ∨ (s.fan i).state = .running → (s.fan i).minRunTimer = some t →
      ((s.fan i).stopPending = false →
        exec (.minRunExpiry i) s = .next (s.setFan i { s.fan i with
          minRunTimer := none, minRunElapsed := true, noteTimer := none, clearTimer := clearing })) ∧
      ((s.fan i).stopPending = true →
        Leads (.minRunExpiry i) s ((s.setFan i { s.fan i with
          state := .coasting, output := false, minRunElapsed := true, stopPending := false, manualTimer := none
          provingTimer := none, minRunTimer := none, retryTimer := none, flowLossTimer := none, exerciseTimer := none
          coastTimer := startTimer s.time.clock (1000 * (s.fan i).cfg.coast), noteTimer := none, clearTimer := clearing
          offTime := if (s.fan i).output then some s.time.clock else (s.fan i).offTime }).notice
          (.fanChange i .coasting none)))) ∧
    ((s.fan i).state = .coasting → (s.fan i).coastTimer = some t →
      ((s.fan i).claims.none_ = true → ∃ u, exec (.coastExpiry i) s = .next u ∧
        ExerciseTested ((s.setFan i { s.fan i with
          state := .idle, coastTimer := none, retryTimer := none, noteTimer := noting, clearTimer := clearing }).notice
          (.fanChange i .idle none)) i u) ∧
      ((s.fan i).claims.none_ = false → ∃ u, exec (.coastExpiry i) s = .next u ∧
        Considered (((s.setFan i { s.fan i with
          state := .waiting, coastTimer := none, noteTimer := none, clearTimer := clearing }).notice
          (.fanChange i .waiting none)).setArb
          { s.arb with waiting := vset s.arb.waiting i (some s.time.clock) }) u))) ∧
  (∀ (i : Fin 8) (t : Nat) (s : State), t ≤ s.time.clock →
    ((s.fan i).manualTimer = some t → (s.fan i).claims.manual = true →
      let released : Fan := { s.fan i with
        claims := { (s.fan i).claims with manual := false }, manualDuration := none, manualTimer := none }
      ∃ u, exec (.manualTimerExpiry i) s = .next u ∧ Settles (s.setFan i released) u ∧ ClaimEnded s i released u) ∧
    ((s.fan i).exerciseTimer = some t → (s.fan i).claims.exercise = true →
      let released : Fan := { s.fan i with
        claims := { (s.fan i).claims with exercise := false }, exerciseTimer := none }
      ∃ u, exec (.exerciseRunExpiry i) s = .next u ∧ Settles (s.setFan i released) u ∧ ClaimEnded s i released u) ∧
    ((s.fan i).exerciseDue = some t →
      ((s.fan i).state = .running →
        exec (.exerciseDue i) s = .next (s.setFan i { s.fan i with
          exerciseDue := if (s.fan i).cfg.exInterval = 0 then none
            else some (s.time.clock + 3600000 * (s.fan i).cfg.exInterval) })) ∧
      ((s.fan i).state ≠ .running →
        ∃ u, exec (.exerciseDue i) s = .next u ∧
          ExerciseTested (s.setFan i { s.fan i with exerciseDue := none, exerciseOwed := true }) i u)))

/-- A change of the debounced flow (R71): a proving fan that gains flow runs, with its retries, its next exercise and its claims'
timers set (R76); a running fan that loses it starts its flow-loss timer, and one that regains it stops it (R80). In IDLE and
LOCKOUT the flow-note timer starts with 10 s as the flow becomes present and stops as it becomes absent, and in every managed
state the flow-clear timer starts with 10 s as it becomes absent while FLOW NOTE is active, and stops as it becomes present (R95).
FLOW NOTE becomes active at the flow-note timer's expiry, the flow-clear timer starting where the flow is absent, and inactive at
the flow-clear timer's (R95); the change is handed to the alarm unit, where it moves neither the regime nor the permit (R127,
R140, R142), and no other fan moves, and no zone senses anew (R45). What the cleared image holds beside inactive is the model's
choice, log entry 26. That what is due may be taken late is the model's choice, log entry 1. -/
def Obligations.FlowEventsAct : Prop :=
  ∀ (i : Fin 8) (t : Nat) (s : State), t ≤ s.time.clock →
    let still := decide ((s.fan i).state ∈ [.idle, .lockout .manual, .lockout .retries])
    let managed := decide ((s.fan i).state ≠ .unmanaged)
    ((s.fan i).flow.timer = some t →
      (∃ u, exec (.flowDebounce i) s = .next u ∧ CascadeKeeps (s.setFan i { s.fan i with
        flow := { (s.fan i).flow with debounced := !(s.fan i).flow.debounced, timer := none } }) u ∧ ZonesKept s u) ∧
      ((s.fan i).state = .proving → (s.fan i).flow.debounced = false →
        exec (.flowDebounce i) s = .next ((s.setFan i { s.fan i with
          state := .running, flow := { (s.fan i).flow with debounced := true, timer := none }, provingTimer := none
          retriesLeft := (s.fan i).cfg.retries, exerciseOwed := false
          exerciseDue := if (s.fan i).cfg.exInterval = 0 then none
            else some (s.time.clock + 3600000 * (s.fan i).cfg.exInterval)
          manualTimer := if (s.fan i).claims.manual then
            (s.fan i).manualDuration.bind (fun d => startTimer s.time.clock (1000 * d)) else none
          exerciseTimer := if (s.fan i).claims.exercise then
            startTimer s.time.clock (1000 * (s.fan i).cfg.exDuration) else none
          noteTimer := none, clearTimer := none }).notice (.fanChange i .running none))) ∧
      ((s.fan i).state = .running →
        exec (.flowDebounce i) s = .next (s.setFan i { s.fan i with
          flow := { (s.fan i).flow with debounced := !(s.fan i).flow.debounced, timer := none }
          flowLossTimer := if (s.fan i).flow.debounced then
            startTimer s.time.clock (1000 * (s.fan i).cfg.lossTolerance) else none
          noteTimer := none
          clearTimer := if (s.fan i).flowNote && (s.fan i).flow.debounced then some (s.time.clock + 10000) else none })) ∧
      ((s.fan i).state ≠ .running → ((s.fan i).state = .proving → (s.fan i).flow.debounced = true) →
        exec (.flowDebounce i) s = .next (s.setFan i { s.fan i with
          flow := { (s.fan i).flow with debounced := !(s.fan i).flow.debounced, timer := none }
          noteTimer := if still && !(s.fan i).flow.debounced then some (s.time.clock + 10000) else none
          clearTimer := if managed && (s.fan i).flowNote && (s.fan i).flow.debounced then some (s.time.clock + 10000)
            else none }))) ∧
    ((s.fan i).noteTimer = some t →
      ∃ u, exec (.flowNoteExpiry i) s = .next u ∧ FlowNoted s i { s.fan i with
        flowNote := true, noteTimer := none
        clearTimer := if managed && !(s.fan i).flow.debounced then
          (if (s.fan i).flowNote then (s.fan i).clearTimer else some (s.time.clock + 10000)) else none } u) ∧
    ((s.fan i).clearTimer = some t →
      ∃ u, exec (.flowClearExpiry i) s = .next u ∧ FlowNoted s i { s.fan i with
        flowNote := false, clearTimer := none
        noteTimer := if still && (s.fan i).flow.debounced then (s.fan i).noteTimer else none } u)

/-! ## The start arbiter -/

/-- A consideration grants the first eligible fan in grant order: class, then request time, then number; the budget must be open
and no spacing run (R106, R107, R109). When the oldest entry has aged out, W after its grant, it leaves the history; when the
spacing timer expires it stops; at each a grant is considered. A grant is appended to the history, is the last grant, starts the
spacing timer with G, or with 1 ms for a G of 0, and counts a start of its fan (R70, R103, R104, R108 to R110). The granted fan
leaves the waiting set and enters PROVING with its output on and its timers started, or, where its debounced flow is present,
RUNNING (R75, R76); no zone senses anew (R45). That what is due may be taken late is the model's choice, log entry 1. -/
def Obligations.ArbiterGrantsTheFirstEligibleFan : Prop :=
  (∀ (i : Fin 8) (s : State),
    let zoned := ∃ z, vget (s.fan i).claims.zones z = true
    let urgent := s.alarm.regime = .critical ∨ ∃ z, vget (s.fan i).claims.zones z = true ∧ (s.zone z).demand = some .purge
    let manual := (s.fan i).claims.manual = true
    (s.classRank i = 0 ↔ urgent) ∧ (s.classRank i = 1 ↔ ¬urgent ∧ zoned) ∧ (s.classRank i = 2 ↔ ¬urgent ∧ ¬zoned ∧ manual) ∧
    (s.classRank i = 3 ↔ ¬urgent ∧ ¬zoned ∧ ¬manual) ∧
    (s.inhibited i = true ↔ s.alarm.regime = .critical ∧ (s.fan i).cfg.rating = .ordinary)) ∧
  (∀ s : State,
    (∀ i, s.grantChoice = some i →
      s.arb.history.length < s.arb.k ∧ s.arb.spacing = none ∧ (s.requestTime i).isSome = true ∧ s.inhibited i = false ∧
      ∀ j, j ≠ i → (s.requestTime j).isSome = true → s.inhibited j = false →
        s.classRank i < s.classRank j ∨
        (s.classRank i = s.classRank j ∧ ((s.requestTime i).getD 0 < (s.requestTime j).getD 0 ∨
          ((s.requestTime i).getD 0 = (s.requestTime j).getD 0 ∧ i < j)))) ∧
    (s.grantChoice = none →
      s.arb.k ≤ s.arb.history.length ∨ s.arb.spacing ≠ none ∨
      ∀ j, (s.requestTime j).isSome = true → s.inhibited j = true)) ∧
  (∀ (c : Instr) (a : Arbiter) (s : State),
    ((∃ t rest, c = .historyAgeOut ∧ s.arb.history = t :: rest ∧ t + 1000 * s.arb.w ≤ s.time.clock ∧
      a = { s.arb with history := rest }) ∨
     (∃ t, c = .spacingExpiry ∧ s.arb.spacing = some t ∧ t ≤ s.time.clock ∧ a = { s.arb with spacing := none })) →
    ((s.setArb a).grantChoice = none → exec c s = .next (s.setArb a)) ∧
    (∀ i, (s.setArb a).grantChoice = some i →
      ∃ u, exec c s = .next u ∧ CascadeKeeps s u ∧ ZonesKept s u ∧
        u.arb.history = a.history ++ [s.time.clock] ∧ u.arb.lastGrant = some (i, s.time.clock) ∧
        u.arb.spacing = some (s.time.clock + max 1 (1000 * s.arb.g)) ∧
        (u.fan i).startCount = min 65535 ((s.fan i).startCount + 1) ∧
        (∀ j, j ≠ i → (u.fan j).startCount = (s.fan j).startCount) ∧
        (FanLaw s → DerivedLaw s →
          let f := s.fan i
          let clock := s.time.clock
          let proving : Fan := { f with
            state := .proving, output := true, startCount := min 65535 (f.startCount + 1), stopPending := false
            provingTimer := startTimer clock (1000 * f.cfg.proving), minRunTimer := startTimer clock (1000 * f.cfg.minRun)
            minRunElapsed := decide (f.cfg.minRun = 0), coastTimer := none, retryTimer := none, flowNote := false
            noteTimer := none, clearTimer := none }
          u.requestTime i = none ∧
          (f.flow.debounced = false → u.fan i = proving) ∧
          (f.flow.debounced = true → u.fan i = { proving with
            state := .running, provingTimer := none, retriesLeft := f.cfg.retries, exerciseOwed := false
            exerciseDue := if f.cfg.exInterval = 0 then none else some (clock + 3600000 * f.cfg.exInterval)
            manualTimer := if f.claims.manual then f.manualDuration.bind (fun d => startTimer clock (1000 * d)) else none
            exerciseTimer := if f.claims.exercise then startTimer clock (1000 * f.cfg.exDuration) else none }))))

/-! ## Probes -/

/-- The comparator classifies a resistance as SHORT below 100 Ω, WET from 100 Ω to 2 kΩ, DRY from there to 20 kΩ, and OPEN above
(R115); that just 2 kΩ, which the rule gives to both, is DRY, and the unit of the resistance, are the model's choice, log entry
23. A probe's line and its timers: the line event of a probe that is not evaluated changes the line alone (R115, R118); an
evaluated one acts by its state (R119 to R122), and so do the expiries of the wet debounce, the dry debounce, the supervision and
the recovery. A change of its contribution gives the active zone that the probe is mapped to its spill anew, and changes nothing
else that a zone senses (R45, R53). That what is due may be taken late is the model's choice, log entry 1, and so are the two
cases no run reaches, log entry 21. -/
def Obligations.ProbesActByTheirState : Prop :=
  (∀ n, (n < 100000 → classify (.milliohms n) = .shorted) ∧
    (100000 ≤ n → n < 2000000 → classify (.milliohms n) = .wet) ∧
    (2000000 ≤ n → n ≤ 20000000 → classify (.milliohms n) = .dry) ∧
    (20000000 < n → classify (.milliohms n) = .opened)) ∧ classify .unlimited = .opened ∧
  ∀ (p : Fin 8) (x : LineResistance) (t : Nat) (s : State),
    let r := s.probe p
    let c := classify x
    let clock := s.time.clock
    (s.setup.armed = false ∨ r.cfg.present = false →
      exec (.probeLineChange p x) s = .next (s.setProbe p { r with line := c })) ∧
    (c = r.line → exec (.probeLineChange p x) s = .next s) ∧
    (s.setup.armed = true → r.cfg.present = true → c ≠ r.line →
      (r.state = some .dry → c = .wet → Leads (.probeLineChange p x) s (s.setProbe p { r with
        line := c, state := some .wetPending, wetSince := some s.time.room, supervisionTimer := none
        debounceTimer := startTimer clock (1000 * r.cfg.wetDebounce) })) ∧
      (r.state = some .wetPending → c = .dry → Leads (.probeLineChange p x) s (s.setProbe p { r with
        line := c, state := some .dry, wetSince := none, supervisionTimer := none, debounceTimer := none })) ∧
      (r.state = some .wet → c = .dry → Leads (.probeLineChange p x) s (s.setProbe p { r with
        line := c, state := some .drying, supervisionTimer := none
        debounceTimer := startTimer clock (1000 * r.cfg.dryDebounce) })) ∧
      (r.state = some .drying → c = .wet → Leads (.probeLineChange p x) s (s.setProbe p { r with
        line := c, state := some .wet, supervisionTimer := none, debounceTimer := none })) ∧
      (r.state = some .wetPending → c = .wet → Leads (.probeLineChange p x) s (s.setProbe p { r with
        line := c, supervisionTimer := none, debounceTimer := startTimer clock (1000 * r.cfg.wetDebounce) })) ∧
      (r.state = some .drying → c = .dry → Leads (.probeLineChange p x) s (s.setProbe p { r with
        line := c, supervisionTimer := none, debounceTimer := startTimer clock (1000 * r.cfg.dryDebounce) })) ∧
      ((r.state = some .dry ∧ c = .dry) ∨ (r.state = some .wet ∧ c = .wet) →
        Leads (.probeLineChange p x) s (s.setProbe p { r with line := c, supervisionTimer := none })) ∧
      (r.state ≠ some .fault → c.good = false → r.line.good = true →
        Leads (.probeLineChange p x) s (s.setProbe p { r with
          line := c, debounceTimer := none, supervisionTimer := some (clock + 5000) })) ∧
      (r.state ≠ some .fault → c.good = false → r.line.good = false →
        Leads (.probeLineChange p x) s (s.setProbe p { r with line := c })) ∧
      (r.state = some .fault → Leads (.probeLineChange p x) s (s.setProbe p { r with
        line := c, debounceTimer := if c.good then some (clock + 5000) else none }))) ∧
    (t ≤ clock →
      (r.state = some .wetPending → r.debounceTimer = some t → Leads (.wetDebounceExpiry p) s (s.setProbe p { r with
        state := some .wet, debounceTimer := none, contribution := true })
        (spilt := fun z => r.contribution = false ∧ MappedTo s p z)) ∧
      (r.state = some .drying → r.debounceTimer = some t → Leads (.dryDebounceExpiry p) s (s.setProbe p { r with
        state := some .dry, debounceTimer := none, wetSince := none, contribution := false })
        (spilt := fun z => r.contribution = true ∧ MappedTo s p z)) ∧
      (r.state = some .wet ∨ r.state = some .drying → r.supervisionTimer = some t →
        Leads (.supervisionExpiry p) s (s.setProbe p { r with
          state := some .fault, heldSpill := true, detail := detailOf r.line, debounceTimer := none
          supervisionTimer := none })) ∧
      (r.state = some .dry ∨ r.state = some .wetPending → r.supervisionTimer = some t →
        Leads (.supervisionExpiry p) s (s.setProbe p { r with
          state := some .fault, heldSpill := false, wetSince := none, detail := detailOf r.line, debounceTimer := none
          supervisionTimer := none })) ∧
      (r.state = some .fault → r.debounceTimer = some t → r.line = .dry →
        Leads (.recoveryExpiry p) s (s.setProbe p { r with
          state := some .dry, heldSpill := false, detail := none, wetSince := none, contribution := false
          debounceTimer := none }) (spilt := fun z => r.contribution = true ∧ MappedTo s p z)) ∧
      (r.state = some .fault → r.debounceTimer = some t → r.line = .wet →
        Leads (.recoveryExpiry p) s (s.setProbe p { r with
          state := some .wet, heldSpill := false, detail := none, contribution := true, debounceTimer := none
          wetSince := if r.heldSpill then r.wetSince else some s.time.room })
          (spilt := fun z => r.contribution = false ∧ MappedTo s p z)))

/-! ## The failsafe sequence, the slots, the SERVICE line, the clock -/

/-- A PENDING slot that room time has reached fires: it is FREE after a one-shot; a repeating one is PENDING at the first anchor
plus whole intervals after room time, or STALE where that lies beyond 2^48 - 1; no other slot and no clock changes (R174). Whether
its action is performed follows R175's table: UNARMED, every action but MARK is skipped UNARMED; ARMED, a ROTATE of an UNUSED
zone, and a START or an EXERCISE of an absent fan, is skipped NOT PRESENT, a START of a fan in FAULT or LOCKOUT WRONG STATE, and
any other action is performed. A MARK, and an action that is skipped, acts on no block and queues its notice with the outcome
alone; a performed START acts as a FAN START, a ROTATE as the request of that name, with the claims that its allocation leaves
(R63), an EXERCISE on the fan's due time (R175). Every firing queues its SCHEDULE FIRED notice, here without the JUMP mark. No
zone senses anew (R45). That what is due may be taken late is the model's choice, log entry 1. -/
def Obligations.SlotFiresWhenItsTimeComes : Prop :=
  (∀ (k : Fin 8) (r : Slot) (s : State), s.slot k = some r → r.stale = false → r.fire ≤ s.time.room →
    ∃ t, exec (.slotFire k) s = .next t ∧ SlotFired s k r false t ∧ t.time.room = s.time.room ∧ t.time.clock = s.time.clock ∧
      t.chans = s.chans ∧ t.probes = s.probes ∧ t.setup = s.setup ∧ NoticesFollow s.link.notices t.link.notices) ∧
  (∀ (s : State) (z : Fin 6) (i : Fin 8) (d : Nat) (mark : Byte),
    let armed := s.setup.armed = true
    let present := (s.fan i).cfg.present = true
    let stopped := (s.fan i).state = .fault ∨ ∃ cause, (s.fan i).state = .lockout cause
    (¬armed → s.outcomeOf (.rotate z) = .unarmed ∧ s.outcomeOf (.start i d) = .unarmed ∧ s.outcomeOf (.exercise i) = .unarmed) ∧
    (armed → ¬InUse s z → s.outcomeOf (.rotate z) = .notPresent) ∧ (armed → InUse s z → s.outcomeOf (.rotate z) = .performed) ∧
    (armed → ¬present → s.outcomeOf (.start i d) = .notPresent ∧ s.outcomeOf (.exercise i) = .notPresent) ∧
    (armed → present → s.outcomeOf (.exercise i) = .performed) ∧
    (armed → present → stopped → s.outcomeOf (.start i d) = .wrongState) ∧
    (FanLaw s → armed → present → ¬stopped → s.outcomeOf (.start i d) = .performed) ∧
    s.outcomeOf (.mark mark) = .performed)

/-- When the debounced SERVICE rises, nothing else changes. When it falls, every channel in HOLD and BUMP enters RECOVER with its
limit of 600 s and without a test, in whatever order, and no other channel changes (R165, R192). Each of them, and no other, queues
one TEST RESULT, saying TEST ABORTED with the reason SERVICE and whether a span was armed, before its CHANNEL CHANGE (R12, R165,
R166). Just the active zones of these channels sense anew (R45). That what is due may be taken late is the model's choice, log entry
1. -/
def Obligations.ServiceFallEndsEveryTest : Prop :=
  ∀ (t : Nat) (s : State), s.link.service.timer = some t → t ≤ s.time.clock →
    (s.link.service.debounced = false →
      exec .serviceDebounce s = .next (s.setLink { s.link with
        service := { s.link.service with debounced := true, timer := none } })) ∧
    (s.link.service.debounced = true →
      ∃ u, exec .serviceDebounce s = .next u ∧ u.link.service.debounced = false ∧ u.link.service.timer = none ∧
        (∀ i, u.chan i =
          if (s.chan i).state = .hold ∨ (s.chan i).state = .bump then
            { s.chan i with
              state := .recover, timer := some (s.time.clock + 600000), bumpTimer := none, bumpPeak := none
              armedSpan := none }
          else s.chan i) ∧
        (∃ more : List Notice, u.link.notices = more.foldl enqueue s.link.notices ∧
          let queued := fun body : NoticeBody => ({ time := s.time.room, body := body, overflow := false } : Notice)
          let aborted := fun i : Fin 16 => queued (.testResult i (.testAborted .service (s.chan i).armedSpan.isSome))
          let moved := fun i : Fin 16 => queued (.channelChange i .recover)
          (∀ i, (s.chan i).state = .hold ∨ (s.chan i).state = .bump →
            more.count (aborted i) = 1 ∧ more.count (moved i) = 1 ∧ [aborted i, moved i].Sublist more) ∧
          (∀ n ∈ more, ∀ i result, n.body = .testResult i result →
            n = aborted i ∧ ((s.chan i).state = .hold ∨ (s.chan i).state = .bump)) ∧
          ∀ n ∈ more, ∀ i state, n.body = .channelChange i state →
            n = moved i ∧ ((s.chan i).state = .hold ∨ (s.chan i).state = .bump)) ∧
        ZonesKept { s with chans := u.chans } u
          (fun z => ∃ i, ((s.chan i).state = .hold ∨ (s.chan i).state = .bump) ∧ MemberOf s i z) ∧
        u.probes = s.probes ∧ u.time = s.time ∧ u.setup = s.setup ∧ u.profiles = s.profiles)

/-- At each millisecond the interval clock counts, the trim carries into room time, and the conditioned lines are read. It takes
no expiry and fires no slot: those are commands of their own, the model's choice, log entry 1. A level that differs from the
debounced value starts its measurement, or lets it run on, and the debounced level discards it (R51, R71, R167, R168, R192). That
lines are read once a millisecond is the model's choice, log entry 2. -/
def Obligations.MillisecondAdvancesTheClocks : Prop :=
  ∀ (l : Lines) (s : State), ∃ t, exec (.millisecond l) s = .next t ∧
    let sum := s.time.acc + s.time.rate
    (s.time.clock < 2 ^ 48 - 1 → t.time.clock = s.time.clock + 1) ∧
    (sum < 16777216 → t.time.acc = sum ∧ t.time.room = (s.time.room + 1) % 2 ^ 48) ∧
    (16777216 ≤ sum → t.time.acc = sum - 16777216 ∧
      (s.time.sense = .fast → t.time.room = (s.time.room + 2) % 2 ^ 48) ∧
      (s.time.sense = .slow → t.time.room = s.time.room % 2 ^ 48)) ∧
    t.time.rate = s.time.rate ∧ t.time.sense = s.time.sense ∧ t.time.slots = s.time.slots ∧
    t.eqz = { s.eqz with
      line := l.eqz
      timer := if l.eqz = s.eqz.debounced then none else some (s.eqz.timer.getD (t.time.clock + 2000)) } ∧
    t.link = { s.link with service := { s.link.service with
      line := l.service
      timer := if l.service = s.link.service.debounced then none
        else some (s.link.service.timer.getD (t.time.clock + 1000)) } } ∧
    (∀ i : Fin 8, t.fan i = { s.fan i with flow := { (s.fan i).flow with
      line := l.flow.getLsbD i.val
      timer := if l.flow.getLsbD i.val = (s.fan i).flow.debounced then none
        else some ((s.fan i).flow.timer.getD (t.time.clock + 1000)) } }) ∧
    t.chans = s.chans ∧ t.profiles = s.profiles ∧ t.zones = s.zones ∧ t.arb = s.arb ∧ t.probes = s.probes ∧
    t.alarm = s.alarm ∧ t.setup = s.setup

/-! ## The alarm unit's derived values -/

/-- A hand-over of a condition sets its image and acts on its record (R127): a rise creates one or takes a cleared one back
(R129), a change of severity or value changes it (R130, R131), a clear ends it (R132), and a masked key's record stays (R136).
The version moves with the record (R138), and the notices follow in the order ALARM CHANGE, REGIME CHANGE, PERMIT CHANGE, the
first where the record is created, removed, or changed in state or severity (R139, R148). Report order: the report holds each
record of the table once, by reporting severity, highest first, then by raised time, then by key (R137). -/
def Obligations.ReportIsTheTableInReportOrder : Prop :=
  (∀ a : Alarm,
    (∀ k r, (k, r) ∈ a.report ↔ a.record k = some r) ∧ a.report.Nodup ∧
    a.report.Pairwise fun x y =>
      y.2.reporting < x.2.reporting ∨
      (x.2.reporting = y.2.reporting ∧ (x.2.raised < y.2.raised ∨ (x.2.raised = y.2.raised ∧ x.1 < y.1)))) ∧
  (∀ (w : Work) (k : Fin 82) (image : Image),
    let a := w.st.alarm
    let b := (w.takeCondition k image).st.alarm
    let room := w.st.time.room
    let note := fun (q : List Notice) (body : NoticeBody) => enqueue q { time := room, body := body, overflow := false }
    let gas := decide (classOf k = .gas)
    let valueless := decide (classOf k ∈ [.blind, .channelNote, .flowNote])
    let atRise := decide (classOf k ∈ [.spill, .probeFault])
    let peakReading := fun old : Option Nat =>
      match old, image.value with
      | none, new => new
      | some x, none => some x
      | some x, some y => some (max x y)
    (b.image k = image ∧ (∀ j, j ≠ k → b.image j = a.image j ∧ b.record j = a.record j) ∧ b.paused = a.paused ∧ b.eqz = a.eqz) ∧
    (a.masks (classOf k) = true → b.record k = a.record k) ∧
    (a.masks (classOf k) = false → (a.image k).active = false → image.active = true →
      (a.record k = none → b.record k = some {
        state := .activeUnack, severity := image.severity, peak := image.severity, raised := room, cleared := none
        value := if valueless then none else image.value, repeats := 0 }) ∧
      (∀ r, a.record k = some r → r.state = .clearedUnack → b.record k = some { r with
        state := .activeUnack, severity := image.severity, peak := max r.peak image.severity, cleared := none
        value := if valueless then none else if gas then peakReading r.value else image.value
        repeats := min 255 (r.repeats + 1) })) ∧
    (∀ r, a.masks (classOf k) = false → (a.image k).active = true → image.active = true → a.record k = some r →
      let value := if valueless then none else if gas then peakReading r.value else if atRise then r.value else image.value
      (image.severity = r.severity → b.record k = some { r with value := value }) ∧
      (image.severity ≠ r.severity → image.severity ≤ r.peak →
        b.record k = some { r with severity := image.severity, value := value }) ∧
      (image.severity ≠ r.severity → r.peak < image.severity →
        b.record k = some { r with
          state := .activeUnack, severity := image.severity, peak := image.severity, value := value })) ∧
    (∀ r, a.masks (classOf k) = false → (a.image k).active = true → image.active = false → a.record k = some r →
      (classOf k = .channelNote ∨ classOf k = .flowNote → b.record k = none) ∧
      (classOf k ≠ .channelNote → classOf k ≠ .flowNote →
        (r.state = .activeUnack → b.record k = some { r with
          state := .clearedUnack, severity := 0, cleared := some room }) ∧
        (r.state = .activeAck → b.record k = none))) ∧
    b.version = a.version + (if b.record k = a.record k then 0 else 1) ∧
    let q := w.st.link.notices
    let q := if (b.record k).map (fun r => (r.state, r.severity)) = (a.record k).map (fun r => (r.state, r.severity)) then q
      else note q (.alarmChange k ((b.record k).map fun r => (r.state, r.severity)))
    let q := if b.regime = a.regime then q else note q (.regimeChange b.regime)
    let q := if b.permit = a.permit then q else note q (.permitChange b.permit)
    (w.takeCondition k image).st.link.notices = q ∧
    (w.takeCondition k image).st = { w.st with
      alarm := b, link := { w.st.link with notices := q }, choices := (w.takeCondition k image).st.choices })

/-- The permit is the most restrictive that applies, and the regime the highest (R140, R142). PERMIT1 and PERMIT0 give the permit's
code: both low in NORMAL, PERMIT0 high in HOLD-FLOAT, PERMIT1 high in REDUCE, both high in DISCONNECT (R143). ATTN is pulled low
while the notice queue holds a notice (R195). -/
def Obligations.PermitAndRegimeFollowTheTable : Prop :=
  (∀ (a : Alarm) (armed : Bool),
    let gasPeak := fun n : Severity => ∃ z r, a.record (keyGas z) = some r ∧ r.peak = n
    let blind := ∃ z, (a.record (keyBlind z)).isSome = true
    let held := (∃ z, (a.record (keyShortfall z)).isSome = true) ∨ (∃ p, (a.record (keySpill p)).isSome = true) ∨
      (∃ z, vget a.paused z = true) ∨ armed = false
    (permitOf a armed = .disconnect ↔ gasPeak 3) ∧
    (permitOf a armed = .reduce ↔ ¬gasPeak 3 ∧ (gasPeak 2 ∨ blind)) ∧
    (permitOf a armed = .holdFloat ↔ ¬gasPeak 3 ∧ ¬gasPeak 2 ∧ ¬blind ∧ (gasPeak 1 ∨ held)) ∧
    (permitOf a armed = .normal ↔ ¬gasPeak 3 ∧ ¬gasPeak 2 ∧ ¬blind ∧ ¬gasPeak 1 ∧ ¬held) ∧
    let gas := fun n : Severity => ∃ z, (a.image (keyGas z)).active = true ∧ (a.image (keyGas z)).severity = n
    let alarm := gas 2 ∨ ∃ z, (a.image (keyBlind z)).active = true
    let spill := ∃ p, (a.image (keySpill p)).active = true
    (regimeOf a = .critical ↔ gas 3) ∧ (regimeOf a = .gasAlarm ↔ ¬gas 3 ∧ alarm) ∧
    (regimeOf a = .spill ↔ ¬gas 3 ∧ ¬alarm ∧ spill) ∧
    (regimeOf a = .chargeVent ↔ ¬gas 3 ∧ ¬alarm ∧ ¬spill ∧ a.eqz = true) ∧
    (regimeOf a = .normal ↔ ¬gas 3 ∧ ¬alarm ∧ ¬spill ∧ a.eqz = false)) ∧
  (∀ s : State,
    (s.permit1, s.permit0) =
      (match s.alarm.permit with
        | .normal => (false, false)
        | .holdFloat => (false, true)
        | .reduce => (true, false)
        | .disconnect => (true, true)) ∧
    (s.attn = true ↔ s.link.notices ≠ []))

/-! ## The serial link -/

/-- A frame is read back: the bytes that the part's own framing gives for a kind, a tag and a payload of at most 240 bytes,
received one by one by a hunting receiver, leave an ended frame with that kind, that tag, that payload and a matching CRC, and
change nothing else (R188, R189, R202). That an ended frame waits for its check as a step of its own is the model's choice, log
entry 15. -/
def Obligations.FrameBytesAreReadBack : Prop :=
  ∀ (kind tag : Byte) (payload : List Byte) (s : State), payload.length ≤ 240 → s.link.receiver.frame = none →
    ∃ f : FrameIn,
      (frameBytes kind tag payload).foldl State.takeByte s = s.setReceiver { frame := none, ended := some f } ∧
      f.kind = kind ∧ f.tag = tag ∧ f.payload = payload ∧ f.crcMatches = true ∧
      f.busyAtSync = s.link.outstanding.isSome ∧
      ∀ (b : Byte) (u : State), exec (.receivedByte b) u = .next (u.takeByte b)

/-- A received frame that carries a well-formed request's kind, tag and payload acts as that request does once the frame has been
checked, and where no request is outstanding it leaves one reply so (R190, R191, R201). A frame whose kind the table does not
name is answered UNKNOWN KIND whatever its payload; one of the table's kinds whose payload is that of no request of its kind,
having another length than the request's fields take, is answered BAD LENGTH (R191). A request row as the taking of a request,
and the layout of SCHEDULE's fields, are the model's, log entries 10 and 15. -/
def Obligations.FramedRequestActsAsItsCommand : Prop :=
  (∀ (c : Instr) (kind tag : Byte) (f : FrameIn) (s : State), requestOf c = some (kind, tag) → wellFormed c = true →
    s.link.receiver.ended = some f → f.crcMatches = true → f.busyAtSync = false →
    f.kind = kind → f.tag = tag → f.payload = requestPayload c →
    ∃ t, exec .frameReceived s = .next t ∧ exec c s.frameChecked = .next t ∧
      t.link.receiver = { s.link.receiver with ended := none } ∧
      (s.link.outstanding = none → ∃ r, t.link.outstanding = some r ∧ r.kind = kind + 0x80 ∧ r.tag = tag)) ∧
  (∀ (f : FrameIn) (s : State), s.link.receiver.ended = some f → f.crcMatches = true → f.busyAtSync = false →
    f.kind.toNat < 0x80 → s.link.outstanding = none →
    (f.kind ∉ requestKinds → exec .frameReceived s = .next
      (s.frameChecked.sendReply { kind := f.kind + 0x80, tag := f.tag, payload := [1, 0] })) ∧
    (f.kind ∈ requestKinds → (∀ c, requestOf c = some (f.kind, f.tag) → requestPayload c ≠ f.payload) →
      exec .frameReceived s = .next
        (s.frameChecked.sendReply { kind := f.kind + 0x80, tag := f.tag, payload := [2, 0] })))

/-- The receiver's other events (R189, R190): a mismatching CRC, a frame of the part's own kinds and one begun while a request was
outstanding discard the ended frame with no reply; a bad length byte, a gap of more than 20 ms, a framing fault and a break end the
frame in progress. The transmitter (R190, R199): the end of a reply ends its request; the end of a trace frame lets a waiting reply
begin; with the transmitter free and no reply waiting, the buffered trace record begins its frame and the buffer is emptied. A
record built for the selected channel holds the results of its last completion, its baseline, state and flags and the next
coefficient, replaces an unsent one with the GAP mark, and the index walks 0 to 9, section A's b0, b1, b2, a1, a2, then section B's
(R198, R199). That an ended frame waits for its check as a step of its own is the model's choice, log entry 15, and so is how soon
after the transmitter is free a trace frame begins, log entry 1. -/
def Obligations.LinkEventsActOnTheirFrames : Prop :=
  (∀ (f : FrameIn) (s : State),
    (s.link.receiver.ended = some f → f.crcMatches = false →
      exec .crcMismatch s = .next (s.setReceiver { s.link.receiver with ended := none })) ∧
    (s.link.receiver.ended = some f → f.crcMatches = true → 0x80 ≤ f.kind.toNat ∨ f.busyAtSync = true →
      exec .frameReceived s = .next (s.setReceiver { s.link.receiver with ended := none })) ∧
    (s.link.receiver.frame = some f → (∃ len : Byte, f.bytes = [len] ∧ (len.toNat < 2 ∨ 242 < len.toNat)) →
      exec .badLengthByte s = .next (s.setReceiver { s.link.receiver with frame := none })) ∧
    (s.link.receiver.frame = some f → f.lastAt + 20 < s.time.clock →
      exec .interbyteGap s = .next (s.setReceiver { s.link.receiver with frame := none })) ∧
    exec .framingFault s = .next (s.setReceiver { s.link.receiver with frame := none }) ∧
    exec .breakLine s = .next (s.setReceiver { s.link.receiver with frame := none })) ∧
  (∀ s : State,
    (s.link.transmitter = .reply →
      exec .frameSent s = .next (s.setLink { s.link with outstanding := none, transmitter := .free })) ∧
    (∀ r, s.link.transmitter = .trace r →
      exec .frameSent s = .next (s.setLink { s.link with
        transmitter := if s.link.outstanding = none then .free else .reply })) ∧
    (∀ r, s.link.transmitter = .free → s.link.outstanding = none → s.link.traceBuffer = some r →
      exec .traceFrameSend s = .next (s.setLink { s.link with transmitter := .trace r, traceBuffer := none })) ∧
    (∀ i, s.link.traceChannel = some i →
      ∃ r : TraceRecord, s.buildTrace i = s.setLink { s.link with
          traceBuffer := some r, traceIndex := if s.link.traceIndex = 9 then 0 else s.link.traceIndex + 1 } ∧
        r.gap = s.link.traceBuffer.isSome ∧ r.channel = i ∧ r.index = s.link.traceIndex ∧ r.room = s.time.room ∧
        (∀ m, (s.chan i).lastMean = some m → r.mean = m) ∧ (∀ e, (s.chan i).excess = some e → r.excess = e) ∧
        (∀ raw, (s.chan i).cRaw = some raw → r.cRaw = raw) ∧ (∀ v, (s.chan i).reading = some v → r.reading = v) ∧
        (∀ k, vget r.flags k = (vget (s.chan i).flags k).set) ∧
        r.baseline = (s.chan i).baseline ∧ r.state = (s.chan i).state ∧
        r.coefficient = (s.profile (s.chan i).cfg.profile).coefficient s.link.traceIndex)) ∧
  (∀ p : Profile, (List.finRange 10).map p.coefficient =
    [p.a.b0, p.a.b1, p.a.b2, p.a.a1, p.a.a2, p.b.b0, p.b.b1, p.b.b2, p.b.a1, p.b.a2])

/-! ## Invariants of every step -/

/-- Every step keeps the notice queue at 32 notices or fewer (R193), room time, the accumulator and the rate in their ranges
(R168), and every channel's reading, bump peak and output history in theirs (R27, R35). -/
def Obligations.EveryStepKeepsTheRanges : Prop :=
  ∀ s t : State, step s = .next t →
    (NoticeLaw s → NoticeLaw t) ∧ (TimeLaw s → TimeLaw t) ∧
    ((∀ i, ChannelLaw (s.chan i)) → ∀ i, ChannelLaw (t.chan i))

/-- Every step keeps the fans' law: an output is on only in PROVING, in RUNNING, or at a made failsafe start of a strap-run fan
while UNARMED, the waiting set holds just the fans in WAITING, and just the present fans of an ARMED part are managed (R69, R70,
R105). It keeps the claims' law too: zones are active while ARMED and used, and at their reset values otherwise (R43, R44, R65,
R66); a fan carries a zone's claim just while it stands in the zone's claim list, which is a part of the zone's order and holds
available fans, as many as the zone's demand needs and its order has, with SHORTFALL where they fall short (R57, R58, R66); and
the claims go with the fan's state, with its stop-pending in PROVING and RUNNING (R72, R73, R77). And it keeps what an active zone
shows: the sight and the voted reading that its members give (R46, R47), a spill just while a present probe mapped to it
contributes (R53), and the demand that these, its gas level and coupling, and the regime in force give (R45, R54). That every
hand-over of a step is taken before the step ends is read from R127, R141 and R148, log entry 4. -/
def Obligations.EveryStepKeepsTheFanLaw : Prop :=
  ∀ s t : State, FanLaw s → step s = .next t → FanLaw t ∧ (ClaimLaw s → ClaimLaw t ∧ (ZoneLaw s → ZoneLaw t))

/-- Every step keeps the start history within its K places, and empty while the part is UNARMED (R103, R113). And from a state in
which nothing is left to be done at once, it leaves nothing: a fan is left waiting only while the budget is used up, the spacing
timer runs or CRITICAL inhibits it, so that each event that may let a fan start, a change of regime among them, has had a grant
considered (R107 to R109, R141); and a fan in IDLE is left owing an exercise only under GAS-ALARM or CRITICAL, so that a fall of
the regime below GAS-ALARM has had every owed exercise tested (R91, R141). That every hand-over of a step is taken before the step
ends is read from R127, R141 and R148, log entry 4. -/
def Obligations.EveryStepKeepsTheStartBudget : Prop :=
  ∀ s t : State, FanLaw s → step s = .next t → (ArbiterLaw s → ArbiterLaw t) ∧ (ClaimLaw s → PromptLaw s → PromptLaw t)

/-- Every step leaves the regime and the permit as the images and the records give them (R140, R142, R148). -/
def Obligations.EveryStepDerivesRegimeAndPermit : Prop :=
  ∀ s t : State, DerivedLaw s → step s = .next t → DerivedLaw t

/-- Every step keeps the alarm table with the images: no record of a masked class, and for any other key an ACTIVE record just
while its condition is active (R129, R132, R136, R151). From a state in which the zones and fans agree it keeps the images with
the blocks too: whatever event moves a channel, a zone, a probe or a fan, its conditions are raised and cleared with it, each with
the severity and the value of its class (R12, R16, R51, R61, R94, R95, R123). That a clear leaves its image with severity 0 and no
value is the model's choice, log entry 26. -/
def Obligations.EveryStepKeepsTheAlarmTable : Prop :=
  ∀ s t : State, step s = .next t →
    (TableLaw s.alarm → TableLaw t.alarm) ∧ (FanLaw s → ClaimLaw s → ImageLaw s → ImageLaw t)

/-- Every step keeps each probe's spill contribution with its state, and a state in just the evaluated probes (R118 to R122). -/
def Obligations.EveryStepKeepsTheProbeLaw : Prop :=
  ∀ s t : State, ProbeLaw s → step s = .next t → ProbeLaw t

/-- The state after reset obeys every law above. -/
def Obligations.ResetObeysEveryLaw : Prop :=
  NoticeLaw State.reset ∧ TimeLaw State.reset ∧ (∀ i, ChannelLaw (State.reset.chan i)) ∧ FanLaw State.reset ∧
  ClaimLaw State.reset ∧ ZoneLaw State.reset ∧ ArbiterLaw State.reset ∧ PromptLaw State.reset ∧ DerivedLaw State.reset ∧
  TableLaw State.reset.alarm ∧
  ImageLaw State.reset ∧ ProbeLaw State.reset

end
end

