-- ==== Sys2Proof/Laws/State.lean ====
section
/-! SUPPORT. The small lemmas of the tables and of each update of the state: one for each field, true by unfolding. -/

namespace Sys2Proof.Machine

/-! ## Tables -/

@[simp] theorem vget_vset_same {α : Type} {n : Nat} (v : Vector α n) (i : Fin n) (x : α) : vget (vset v i x) i = x := by
  simp [vget, vset]

theorem vget_vset {α : Type} {n : Nat} (v : Vector α n) (i j : Fin n) (x : α) :
    vget (vset v i x) j = if i = j then x else vget v j := by
  simp [vget, vset, Vector.getElem_set, Fin.ext_iff]

@[simp] theorem vget_vset_ne {α : Type} {n : Nat} (v : Vector α n) {i j : Fin n} (x : α) (h : i ≠ j) :
    vget (vset v i x) j = vget v j := by
  simp [vget_vset, h]

@[simp] theorem vget_replicate {α : Type} (n : Nat) (x : α) (i : Fin n) : vget (Vector.replicate n x) i = x := by simp [vget]

@[simp] theorem vget_ofFn {α : Type} {n : Nat} (f : Fin n → α) (i : Fin n) : vget (Vector.ofFn f) i = f i := by simp [vget]

@[simp] theorem vget_map {α β : Type} {n : Nat} (f : α → β) (v : Vector α n) (i : Fin n) :
    vget (v.map f) i = f (vget v i) := by simp [vget]

theorem vec_ext {α : Type} {n : Nat} {v w : Vector α n} (h : ∀ i, vget v i = vget w i) : v = w := by
  ext i hi
  exact h ⟨i, hi⟩

@[simp] theorem vset_vget {α : Type} {n : Nat} (v : Vector α n) (i : Fin n) : vset v i (vget v i) = v := by
  apply vec_ext
  intro j
  rw [vget_vset]
  split
  · subst_vars; rfl
  · rfl

/-! ## Updates of the state -/

@[simp] theorem State.setChan_chans (s : State) (i : Fin 16) (c : Channel) : (s.setChan i c).chans = vset s.chans i c := rfl
@[simp] theorem State.setChan_profiles (s : State) (i : Fin 16) (c : Channel) : (s.setChan i c).profiles = s.profiles := rfl
@[simp] theorem State.setChan_zones (s : State) (i : Fin 16) (c : Channel) : (s.setChan i c).zones = s.zones := rfl
@[simp] theorem State.setChan_eqz (s : State) (i : Fin 16) (c : Channel) : (s.setChan i c).eqz = s.eqz := rfl
@[simp] theorem State.setChan_fans (s : State) (i : Fin 16) (c : Channel) : (s.setChan i c).fans = s.fans := rfl
@[simp] theorem State.setChan_arb (s : State) (i : Fin 16) (c : Channel) : (s.setChan i c).arb = s.arb := rfl
@[simp] theorem State.setChan_probes (s : State) (i : Fin 16) (c : Channel) : (s.setChan i c).probes = s.probes := rfl
@[simp] theorem State.setChan_alarm (s : State) (i : Fin 16) (c : Channel) : (s.setChan i c).alarm = s.alarm := rfl
@[simp] theorem State.setChan_time (s : State) (i : Fin 16) (c : Channel) : (s.setChan i c).time = s.time := rfl
@[simp] theorem State.setChan_setup (s : State) (i : Fin 16) (c : Channel) : (s.setChan i c).setup = s.setup := rfl
@[simp] theorem State.setChan_link (s : State) (i : Fin 16) (c : Channel) : (s.setChan i c).link = s.link := rfl
@[simp] theorem State.setChan_pending (s : State) (i : Fin 16) (c : Channel) : (s.setChan i c).pending = s.pending := rfl
@[simp] theorem State.setChan_choices (s : State) (i : Fin 16) (c : Channel) : (s.setChan i c).choices = s.choices := rfl
@[simp] theorem State.setChan_chan_same (s : State) (i : Fin 16) (c : Channel) : (s.setChan i c).chan i = c := vget_vset_same ..
theorem State.setChan_chan (s : State) (i : Fin 16) (c : Channel) (j : Fin 16) : (s.setChan i c).chan j = if i = j then c else s.chan j := vget_vset ..
@[simp] theorem State.setChan_zone (s : State) (i : Fin 16) (c : Channel) (j : Fin 6) : (s.setChan i c).zone j = s.zone j := rfl
@[simp] theorem State.setChan_fan (s : State) (i : Fin 16) (c : Channel) (j : Fin 8) : (s.setChan i c).fan j = s.fan j := rfl
@[simp] theorem State.setChan_probe (s : State) (i : Fin 16) (c : Channel) (j : Fin 8) : (s.setChan i c).probe j = s.probe j := rfl
@[simp] theorem State.setChan_profile (s : State) (i : Fin 16) (c : Channel) (j : Fin 4) : (s.setChan i c).profile j = s.profile j := rfl

@[simp] theorem State.setZone_chans (s : State) (z : Fin 6) (r : Zone) : (s.setZone z r).chans = s.chans := rfl
@[simp] theorem State.setZone_profiles (s : State) (z : Fin 6) (r : Zone) : (s.setZone z r).profiles = s.profiles := rfl
@[simp] theorem State.setZone_zones (s : State) (z : Fin 6) (r : Zone) : (s.setZone z r).zones = vset s.zones z r := rfl
@[simp] theorem State.setZone_eqz (s : State) (z : Fin 6) (r : Zone) : (s.setZone z r).eqz = s.eqz := rfl
@[simp] theorem State.setZone_fans (s : State) (z : Fin 6) (r : Zone) : (s.setZone z r).fans = s.fans := rfl
@[simp] theorem State.setZone_arb (s : State) (z : Fin 6) (r : Zone) : (s.setZone z r).arb = s.arb := rfl
@[simp] theorem State.setZone_probes (s : State) (z : Fin 6) (r : Zone) : (s.setZone z r).probes = s.probes := rfl
@[simp] theorem State.setZone_alarm (s : State) (z : Fin 6) (r : Zone) : (s.setZone z r).alarm = s.alarm := rfl
@[simp] theorem State.setZone_time (s : State) (z : Fin 6) (r : Zone) : (s.setZone z r).time = s.time := rfl
@[simp] theorem State.setZone_setup (s : State) (z : Fin 6) (r : Zone) : (s.setZone z r).setup = s.setup := rfl
@[simp] theorem State.setZone_link (s : State) (z : Fin 6) (r : Zone) : (s.setZone z r).link = s.link := rfl
@[simp] theorem State.setZone_pending (s : State) (z : Fin 6) (r : Zone) : (s.setZone z r).pending = s.pending := rfl
@[simp] theorem State.setZone_choices (s : State) (z : Fin 6) (r : Zone) : (s.setZone z r).choices = s.choices := rfl
@[simp] theorem State.setZone_chan (s : State) (z : Fin 6) (r : Zone) (j : Fin 16) : (s.setZone z r).chan j = s.chan j := rfl
@[simp] theorem State.setZone_zone_same (s : State) (z : Fin 6) (r : Zone) : (s.setZone z r).zone z = r := vget_vset_same ..
theorem State.setZone_zone (s : State) (z : Fin 6) (r : Zone) (j : Fin 6) : (s.setZone z r).zone j = if z = j then r else s.zone j := vget_vset ..
@[simp] theorem State.setZone_fan (s : State) (z : Fin 6) (r : Zone) (j : Fin 8) : (s.setZone z r).fan j = s.fan j := rfl
@[simp] theorem State.setZone_probe (s : State) (z : Fin 6) (r : Zone) (j : Fin 8) : (s.setZone z r).probe j = s.probe j := rfl
@[simp] theorem State.setZone_profile (s : State) (z : Fin 6) (r : Zone) (j : Fin 4) : (s.setZone z r).profile j = s.profile j := rfl

@[simp] theorem State.setFan_chans (s : State) (f : Fin 8) (r : Fan) : (s.setFan f r).chans = s.chans := rfl
@[simp] theorem State.setFan_profiles (s : State) (f : Fin 8) (r : Fan) : (s.setFan f r).profiles = s.profiles := rfl
@[simp] theorem State.setFan_zones (s : State) (f : Fin 8) (r : Fan) : (s.setFan f r).zones = s.zones := rfl
@[simp] theorem State.setFan_eqz (s : State) (f : Fin 8) (r : Fan) : (s.setFan f r).eqz = s.eqz := rfl
@[simp] theorem State.setFan_fans (s : State) (f : Fin 8) (r : Fan) : (s.setFan f r).fans = vset s.fans f r := rfl
@[simp] theorem State.setFan_arb (s : State) (f : Fin 8) (r : Fan) : (s.setFan f r).arb = s.arb := rfl
@[simp] theorem State.setFan_probes (s : State) (f : Fin 8) (r : Fan) : (s.setFan f r).probes = s.probes := rfl
@[simp] theorem State.setFan_alarm (s : State) (f : Fin 8) (r : Fan) : (s.setFan f r).alarm = s.alarm := rfl
@[simp] theorem State.setFan_time (s : State) (f : Fin 8) (r : Fan) : (s.setFan f r).time = s.time := rfl
@[simp] theorem State.setFan_setup (s : State) (f : Fin 8) (r : Fan) : (s.setFan f r).setup = s.setup := rfl
@[simp] theorem State.setFan_link (s : State) (f : Fin 8) (r : Fan) : (s.setFan f r).link = s.link := rfl
@[simp] theorem State.setFan_pending (s : State) (f : Fin 8) (r : Fan) : (s.setFan f r).pending = s.pending := rfl
@[simp] theorem State.setFan_choices (s : State) (f : Fin 8) (r : Fan) : (s.setFan f r).choices = s.choices := rfl
@[simp] theorem State.setFan_chan (s : State) (f : Fin 8) (r : Fan) (j : Fin 16) : (s.setFan f r).chan j = s.chan j := rfl
@[simp] theorem State.setFan_zone (s : State) (f : Fin 8) (r : Fan) (j : Fin 6) : (s.setFan f r).zone j = s.zone j := rfl
@[simp] theorem State.setFan_fan_same (s : State) (f : Fin 8) (r : Fan) : (s.setFan f r).fan f = r := vget_vset_same ..
theorem State.setFan_fan (s : State) (f : Fin 8) (r : Fan) (j : Fin 8) : (s.setFan f r).fan j = if f = j then r else s.fan j := vget_vset ..
@[simp] theorem State.setFan_probe (s : State) (f : Fin 8) (r : Fan) (j : Fin 8) : (s.setFan f r).probe j = s.probe j := rfl
@[simp] theorem State.setFan_profile (s : State) (f : Fin 8) (r : Fan) (j : Fin 4) : (s.setFan f r).profile j = s.profile j := rfl

@[simp] theorem State.setProbe_chans (s : State) (p : Fin 8) (r : Probe) : (s.setProbe p r).chans = s.chans := rfl
@[simp] theorem State.setProbe_profiles (s : State) (p : Fin 8) (r : Probe) : (s.setProbe p r).profiles = s.profiles := rfl
@[simp] theorem State.setProbe_zones (s : State) (p : Fin 8) (r : Probe) : (s.setProbe p r).zones = s.zones := rfl
@[simp] theorem State.setProbe_eqz (s : State) (p : Fin 8) (r : Probe) : (s.setProbe p r).eqz = s.eqz := rfl
@[simp] theorem State.setProbe_fans (s : State) (p : Fin 8) (r : Probe) : (s.setProbe p r).fans = s.fans := rfl
@[simp] theorem State.setProbe_arb (s : State) (p : Fin 8) (r : Probe) : (s.setProbe p r).arb = s.arb := rfl
@[simp] theorem State.setProbe_probes (s : State) (p : Fin 8) (r : Probe) : (s.setProbe p r).probes = vset s.probes p r := rfl
@[simp] theorem State.setProbe_alarm (s : State) (p : Fin 8) (r : Probe) : (s.setProbe p r).alarm = s.alarm := rfl
@[simp] theorem State.setProbe_time (s : State) (p : Fin 8) (r : Probe) : (s.setProbe p r).time = s.time := rfl
@[simp] theorem State.setProbe_setup (s : State) (p : Fin 8) (r : Probe) : (s.setProbe p r).setup = s.setup := rfl
@[simp] theorem State.setProbe_link (s : State) (p : Fin 8) (r : Probe) : (s.setProbe p r).link = s.link := rfl
@[simp] theorem State.setProbe_pending (s : State) (p : Fin 8) (r : Probe) : (s.setProbe p r).pending = s.pending := rfl
@[simp] theorem State.setProbe_choices (s : State) (p : Fin 8) (r : Probe) : (s.setProbe p r).choices = s.choices := rfl
@[simp] theorem State.setProbe_chan (s : State) (p : Fin 8) (r : Probe) (j : Fin 16) : (s.setProbe p r).chan j = s.chan j := rfl
@[simp] theorem State.setProbe_zone (s : State) (p : Fin 8) (r : Probe) (j : Fin 6) : (s.setProbe p r).zone j = s.zone j := rfl
@[simp] theorem State.setProbe_fan (s : State) (p : Fin 8) (r : Probe) (j : Fin 8) : (s.setProbe p r).fan j = s.fan j := rfl
@[simp] theorem State.setProbe_probe_same (s : State) (p : Fin 8) (r : Probe) : (s.setProbe p r).probe p = r := vget_vset_same ..
theorem State.setProbe_probe (s : State) (p : Fin 8) (r : Probe) (j : Fin 8) : (s.setProbe p r).probe j = if p = j then r else s.probe j := vget_vset ..
@[simp] theorem State.setProbe_profile (s : State) (p : Fin 8) (r : Probe) (j : Fin 4) : (s.setProbe p r).profile j = s.profile j := rfl

@[simp] theorem State.setProfile_chans (s : State) (p : Fin 4) (r : Profile) : (s.setProfile p r).chans = s.chans := rfl
@[simp] theorem State.setProfile_profiles (s : State) (p : Fin 4) (r : Profile) : (s.setProfile p r).profiles = vset s.profiles p r := rfl
@[simp] theorem State.setProfile_zones (s : State) (p : Fin 4) (r : Profile) : (s.setProfile p r).zones = s.zones := rfl
@[simp] theorem State.setProfile_eqz (s : State) (p : Fin 4) (r : Profile) : (s.setProfile p r).eqz = s.eqz := rfl
@[simp] theorem State.setProfile_fans (s : State) (p : Fin 4) (r : Profile) : (s.setProfile p r).fans = s.fans := rfl
@[simp] theorem State.setProfile_arb (s : State) (p : Fin 4) (r : Profile) : (s.setProfile p r).arb = s.arb := rfl
@[simp] theorem State.setProfile_probes (s : State) (p : Fin 4) (r : Profile) : (s.setProfile p r).probes = s.probes := rfl
@[simp] theorem State.setProfile_alarm (s : State) (p : Fin 4) (r : Profile) : (s.setProfile p r).alarm = s.alarm := rfl
@[simp] theorem State.setProfile_time (s : State) (p : Fin 4) (r : Profile) : (s.setProfile p r).time = s.time := rfl
@[simp] theorem State.setProfile_setup (s : State) (p : Fin 4) (r : Profile) : (s.setProfile p r).setup = s.setup := rfl
@[simp] theorem State.setProfile_link (s : State) (p : Fin 4) (r : Profile) : (s.setProfile p r).link = s.link := rfl
@[simp] theorem State.setProfile_pending (s : State) (p : Fin 4) (r : Profile) : (s.setProfile p r).pending = s.pending := rfl
@[simp] theorem State.setProfile_choices (s : State) (p : Fin 4) (r : Profile) : (s.setProfile p r).choices = s.choices := rfl
@[simp] theorem State.setProfile_chan (s : State) (p : Fin 4) (r : Profile) (j : Fin 16) : (s.setProfile p r).chan j = s.chan j := rfl
@[simp] theorem State.setProfile_zone (s : State) (p : Fin 4) (r : Profile) (j : Fin 6) : (s.setProfile p r).zone j = s.zone j := rfl
@[simp] theorem State.setProfile_fan (s : State) (p : Fin 4) (r : Profile) (j : Fin 8) : (s.setProfile p r).fan j = s.fan j := rfl
@[simp] theorem State.setProfile_probe (s : State) (p : Fin 4) (r : Profile) (j : Fin 8) : (s.setProfile p r).probe j = s.probe j := rfl
@[simp] theorem State.setProfile_profile_same (s : State) (p : Fin 4) (r : Profile) : (s.setProfile p r).profile p = r := vget_vset_same ..
theorem State.setProfile_profile (s : State) (p : Fin 4) (r : Profile) (j : Fin 4) : (s.setProfile p r).profile j = if p = j then r else s.profile j := vget_vset ..

@[simp] theorem State.setArb_chans (s : State) (a : Arbiter) : (s.setArb a).chans = s.chans := rfl
@[simp] theorem State.setArb_profiles (s : State) (a : Arbiter) : (s.setArb a).profiles = s.profiles := rfl
@[simp] theorem State.setArb_zones (s : State) (a : Arbiter) : (s.setArb a).zones = s.zones := rfl
@[simp] theorem State.setArb_eqz (s : State) (a : Arbiter) : (s.setArb a).eqz = s.eqz := rfl
@[simp] theorem State.setArb_fans (s : State) (a : Arbiter) : (s.setArb a).fans = s.fans := rfl
@[simp] theorem State.setArb_arb (s : State) (a : Arbiter) : (s.setArb a).arb = a := rfl
@[simp] theorem State.setArb_probes (s : State) (a : Arbiter) : (s.setArb a).probes = s.probes := rfl
@[simp] theorem State.setArb_alarm (s : State) (a : Arbiter) : (s.setArb a).alarm = s.alarm := rfl
@[simp] theorem State.setArb_time (s : State) (a : Arbiter) : (s.setArb a).time = s.time := rfl
@[simp] theorem State.setArb_setup (s : State) (a : Arbiter) : (s.setArb a).setup = s.setup := rfl
@[simp] theorem State.setArb_link (s : State) (a : Arbiter) : (s.setArb a).link = s.link := rfl
@[simp] theorem State.setArb_pending (s : State) (a : Arbiter) : (s.setArb a).pending = s.pending := rfl
@[simp] theorem State.setArb_choices (s : State) (a : Arbiter) : (s.setArb a).choices = s.choices := rfl
@[simp] theorem State.setArb_chan (s : State) (a : Arbiter) (j : Fin 16) : (s.setArb a).chan j = s.chan j := rfl
@[simp] theorem State.setArb_zone (s : State) (a : Arbiter) (j : Fin 6) : (s.setArb a).zone j = s.zone j := rfl
@[simp] theorem State.setArb_fan (s : State) (a : Arbiter) (j : Fin 8) : (s.setArb a).fan j = s.fan j := rfl
@[simp] theorem State.setArb_probe (s : State) (a : Arbiter) (j : Fin 8) : (s.setArb a).probe j = s.probe j := rfl
@[simp] theorem State.setArb_profile (s : State) (a : Arbiter) (j : Fin 4) : (s.setArb a).profile j = s.profile j := rfl

@[simp] theorem State.setAlarm_chans (s : State) (a : Alarm) : (s.setAlarm a).chans = s.chans := rfl
@[simp] theorem State.setAlarm_profiles (s : State) (a : Alarm) : (s.setAlarm a).profiles = s.profiles := rfl
@[simp] theorem State.setAlarm_zones (s : State) (a : Alarm) : (s.setAlarm a).zones = s.zones := rfl
@[simp] theorem State.setAlarm_eqz (s : State) (a : Alarm) : (s.setAlarm a).eqz = s.eqz := rfl
@[simp] theorem State.setAlarm_fans (s : State) (a : Alarm) : (s.setAlarm a).fans = s.fans := rfl
@[simp] theorem State.setAlarm_arb (s : State) (a : Alarm) : (s.setAlarm a).arb = s.arb := rfl
@[simp] theorem State.setAlarm_probes (s : State) (a : Alarm) : (s.setAlarm a).probes = s.probes := rfl
@[simp] theorem State.setAlarm_alarm (s : State) (a : Alarm) : (s.setAlarm a).alarm = a := rfl
@[simp] theorem State.setAlarm_time (s : State) (a : Alarm) : (s.setAlarm a).time = s.time := rfl
@[simp] theorem State.setAlarm_setup (s : State) (a : Alarm) : (s.setAlarm a).setup = s.setup := rfl
@[simp] theorem State.setAlarm_link (s : State) (a : Alarm) : (s.setAlarm a).link = s.link := rfl
@[simp] theorem State.setAlarm_pending (s : State) (a : Alarm) : (s.setAlarm a).pending = s.pending := rfl
@[simp] theorem State.setAlarm_choices (s : State) (a : Alarm) : (s.setAlarm a).choices = s.choices := rfl
@[simp] theorem State.setAlarm_chan (s : State) (a : Alarm) (j : Fin 16) : (s.setAlarm a).chan j = s.chan j := rfl
@[simp] theorem State.setAlarm_zone (s : State) (a : Alarm) (j : Fin 6) : (s.setAlarm a).zone j = s.zone j := rfl
@[simp] theorem State.setAlarm_fan (s : State) (a : Alarm) (j : Fin 8) : (s.setAlarm a).fan j = s.fan j := rfl
@[simp] theorem State.setAlarm_probe (s : State) (a : Alarm) (j : Fin 8) : (s.setAlarm a).probe j = s.probe j := rfl
@[simp] theorem State.setAlarm_profile (s : State) (a : Alarm) (j : Fin 4) : (s.setAlarm a).profile j = s.profile j := rfl

@[simp] theorem State.setTime_chans (s : State) (t : Timebase) : (s.setTime t).chans = s.chans := rfl
@[simp] theorem State.setTime_profiles (s : State) (t : Timebase) : (s.setTime t).profiles = s.profiles := rfl
@[simp] theorem State.setTime_zones (s : State) (t : Timebase) : (s.setTime t).zones = s.zones := rfl
@[simp] theorem State.setTime_eqz (s : State) (t : Timebase) : (s.setTime t).eqz = s.eqz := rfl
@[simp] theorem State.setTime_fans (s : State) (t : Timebase) : (s.setTime t).fans = s.fans := rfl
@[simp] theorem State.setTime_arb (s : State) (t : Timebase) : (s.setTime t).arb = s.arb := rfl
@[simp] theorem State.setTime_probes (s : State) (t : Timebase) : (s.setTime t).probes = s.probes := rfl
@[simp] theorem State.setTime_alarm (s : State) (t : Timebase) : (s.setTime t).alarm = s.alarm := rfl
@[simp] theorem State.setTime_time (s : State) (t : Timebase) : (s.setTime t).time = t := rfl
@[simp] theorem State.setTime_setup (s : State) (t : Timebase) : (s.setTime t).setup = s.setup := rfl
@[simp] theorem State.setTime_link (s : State) (t : Timebase) : (s.setTime t).link = s.link := rfl
@[simp] theorem State.setTime_pending (s : State) (t : Timebase) : (s.setTime t).pending = s.pending := rfl
@[simp] theorem State.setTime_choices (s : State) (t : Timebase) : (s.setTime t).choices = s.choices := rfl
@[simp] theorem State.setTime_chan (s : State) (t : Timebase) (j : Fin 16) : (s.setTime t).chan j = s.chan j := rfl
@[simp] theorem State.setTime_zone (s : State) (t : Timebase) (j : Fin 6) : (s.setTime t).zone j = s.zone j := rfl
@[simp] theorem State.setTime_fan (s : State) (t : Timebase) (j : Fin 8) : (s.setTime t).fan j = s.fan j := rfl
@[simp] theorem State.setTime_probe (s : State) (t : Timebase) (j : Fin 8) : (s.setTime t).probe j = s.probe j := rfl
@[simp] theorem State.setTime_profile (s : State) (t : Timebase) (j : Fin 4) : (s.setTime t).profile j = s.profile j := rfl

@[simp] theorem State.setSetup_chans (s : State) (c : Setup) : (s.setSetup c).chans = s.chans := rfl
@[simp] theorem State.setSetup_profiles (s : State) (c : Setup) : (s.setSetup c).profiles = s.profiles := rfl
@[simp] theorem State.setSetup_zones (s : State) (c : Setup) : (s.setSetup c).zones = s.zones := rfl
@[simp] theorem State.setSetup_eqz (s : State) (c : Setup) : (s.setSetup c).eqz = s.eqz := rfl
@[simp] theorem State.setSetup_fans (s : State) (c : Setup) : (s.setSetup c).fans = s.fans := rfl
@[simp] theorem State.setSetup_arb (s : State) (c : Setup) : (s.setSetup c).arb = s.arb := rfl
@[simp] theorem State.setSetup_probes (s : State) (c : Setup) : (s.setSetup c).probes = s.probes := rfl
@[simp] theorem State.setSetup_alarm (s : State) (c : Setup) : (s.setSetup c).alarm = s.alarm := rfl
@[simp] theorem State.setSetup_time (s : State) (c : Setup) : (s.setSetup c).time = s.time := rfl
@[simp] theorem State.setSetup_setup (s : State) (c : Setup) : (s.setSetup c).setup = c := rfl
@[simp] theorem State.setSetup_link (s : State) (c : Setup) : (s.setSetup c).link = s.link := rfl
@[simp] theorem State.setSetup_pending (s : State) (c : Setup) : (s.setSetup c).pending = s.pending := rfl
@[simp] theorem State.setSetup_choices (s : State) (c : Setup) : (s.setSetup c).choices = s.choices := rfl
@[simp] theorem State.setSetup_chan (s : State) (c : Setup) (j : Fin 16) : (s.setSetup c).chan j = s.chan j := rfl
@[simp] theorem State.setSetup_zone (s : State) (c : Setup) (j : Fin 6) : (s.setSetup c).zone j = s.zone j := rfl
@[simp] theorem State.setSetup_fan (s : State) (c : Setup) (j : Fin 8) : (s.setSetup c).fan j = s.fan j := rfl
@[simp] theorem State.setSetup_probe (s : State) (c : Setup) (j : Fin 8) : (s.setSetup c).probe j = s.probe j := rfl
@[simp] theorem State.setSetup_profile (s : State) (c : Setup) (j : Fin 4) : (s.setSetup c).profile j = s.profile j := rfl

@[simp] theorem State.setLink_chans (s : State) (l : Link) : (s.setLink l).chans = s.chans := rfl
@[simp] theorem State.setLink_profiles (s : State) (l : Link) : (s.setLink l).profiles = s.profiles := rfl
@[simp] theorem State.setLink_zones (s : State) (l : Link) : (s.setLink l).zones = s.zones := rfl
@[simp] theorem State.setLink_eqz (s : State) (l : Link) : (s.setLink l).eqz = s.eqz := rfl
@[simp] theorem State.setLink_fans (s : State) (l : Link) : (s.setLink l).fans = s.fans := rfl
@[simp] theorem State.setLink_arb (s : State) (l : Link) : (s.setLink l).arb = s.arb := rfl
@[simp] theorem State.setLink_probes (s : State) (l : Link) : (s.setLink l).probes = s.probes := rfl
@[simp] theorem State.setLink_alarm (s : State) (l : Link) : (s.setLink l).alarm = s.alarm := rfl
@[simp] theorem State.setLink_time (s : State) (l : Link) : (s.setLink l).time = s.time := rfl
@[simp] theorem State.setLink_setup (s : State) (l : Link) : (s.setLink l).setup = s.setup := rfl
@[simp] theorem State.setLink_link (s : State) (l : Link) : (s.setLink l).link = l := rfl
@[simp] theorem State.setLink_pending (s : State) (l : Link) : (s.setLink l).pending = s.pending := rfl
@[simp] theorem State.setLink_choices (s : State) (l : Link) : (s.setLink l).choices = s.choices := rfl
@[simp] theorem State.setLink_chan (s : State) (l : Link) (j : Fin 16) : (s.setLink l).chan j = s.chan j := rfl
@[simp] theorem State.setLink_zone (s : State) (l : Link) (j : Fin 6) : (s.setLink l).zone j = s.zone j := rfl
@[simp] theorem State.setLink_fan (s : State) (l : Link) (j : Fin 8) : (s.setLink l).fan j = s.fan j := rfl
@[simp] theorem State.setLink_probe (s : State) (l : Link) (j : Fin 8) : (s.setLink l).probe j = s.probe j := rfl
@[simp] theorem State.setLink_profile (s : State) (l : Link) (j : Fin 4) : (s.setLink l).profile j = s.profile j := rfl

@[simp] theorem State.setSlot_time (s : State) (k : Fin 8) (r : Option Slot) :
    (s.setSlot k r).time = { s.time with slots := vset s.time.slots k r } := rfl
@[simp] theorem State.setSlot_slot_same (s : State) (k : Fin 8) (r : Option Slot) : (s.setSlot k r).slot k = r := vget_vset_same ..
theorem State.setSlot_slot (s : State) (k : Fin 8) (r : Option Slot) (j : Fin 8) : (s.setSlot k r).slot j = if k = j then r else s.slot j := vget_vset ..

/-! ## Work -/

@[simp] theorem State.begin_st (s : State) : s.begin.st = s := rfl
@[simp] theorem State.begin_out (s : State) : s.begin.out = [] := rfl
@[simp] theorem Work.map_st (w : Work) (f : State → State) : (w.map f).st = f w.st := rfl
@[simp] theorem Work.map_out (w : Work) (f : State → State) : (w.map f).out = w.out := rfl
@[simp] theorem Work.post_st (w : Work) (h : Handover) : (w.post h).st = w.st := rfl
@[simp] theorem Work.post_out (w : Work) (h : Handover) : (w.post h).out = w.out ++ [h] := rfl
@[simp] theorem Work.postAll_st (w : Work) (hs : List Handover) : (w.postAll hs).st = w.st := rfl
@[simp] theorem Work.postAll_out (w : Work) (hs : List Handover) : (w.postAll hs).out = w.out ++ hs := rfl
@[simp] theorem Work.notice_st (w : Work) (b : NoticeBody) : (w.notice b).st = w.st.notice b := rfl
@[simp] theorem Work.notice_out (w : Work) (b : NoticeBody) : (w.notice b).out = w.out := rfl

theorem Work.ext {w v : Work} (hs : w.st = v.st) (ho : w.out = v.out) : w = v := by
  cases w; cases v; simp_all

end Sys2Proof.Machine
end

