-- ==== Sys2Proof/Laws/Calm.lean ====
section
/-! SUPPORT. What the shared operations of zones, fans, the arbiter and the alarm unit can do, said once for each: none of them
reaches past `CascadeKeeps`, and none makes a hand-over that a channel, EQZ or a probe makes. -/

namespace Sys2Proof.Machine

/-! ## The relations -/

theorem FanKept.refl (f : Fan) : FanKept f f := ⟨rfl, rfl, rfl, rfl, rfl, id, id, id⟩
theorem FanKept.trans {f g h : Fan} (a : FanKept f g) (b : FanKept g h) : FanKept f h :=
  ⟨b.1.trans a.1, b.2.trans a.2, b.3.trans a.3, b.4.trans a.4, b.5.trans a.5, b.6 ∘ a.6, b.7 ∘ a.7, b.8 ∘ a.8⟩
theorem ZoneKept.refl (z : Zone) : ZoneKept z z := ⟨rfl, rfl⟩
theorem ZoneKept.trans {x y z : Zone} (a : ZoneKept x y) (b : ZoneKept y z) : ZoneKept x z := ⟨b.1.trans a.1, b.2.trans a.2⟩
theorem SenseKept.refl (z : Zone) : SenseKept z z := ⟨rfl, rfl, rfl, rfl, rfl, rfl, rfl⟩
theorem SenseKept.trans {x y z : Zone} (a : SenseKept x y) (b : SenseKept y z) : SenseKept x z :=
  ⟨b.1.trans a.1, b.2.trans a.2, b.3.trans a.3, b.4.trans a.4, b.5.trans a.5, b.6.trans a.6, b.7.trans a.7⟩

theorem NoticesFollow.refl (q : List Notice) : NoticesFollow q q := ⟨[], rfl⟩
theorem NoticesFollow.trans {p q r : List Notice} (a : NoticesFollow p q) (b : NoticesFollow q r) : NoticesFollow p r := by
  obtain ⟨m, rfl⟩ := a
  obtain ⟨n, rfl⟩ := b
  exact ⟨m ++ n, by simp⟩

theorem CascadeKeeps.refl (s : State) : CascadeKeeps s s :=
  ⟨rfl, rfl, rfl, rfl, rfl, rfl, rfl, rfl, rfl, rfl, rfl, rfl, rfl, rfl, rfl, rfl, rfl, rfl, fun _ => .refl _, fun _ => .refl _, .refl _⟩
theorem CascadeKeeps.trans {s t u : State} (a : CascadeKeeps s t) (b : CascadeKeeps t u) : CascadeKeeps s u :=
  ⟨b.1.trans a.1, b.2.trans a.2, b.3.trans a.3, b.4.trans a.4, b.5.trans a.5, b.6.trans a.6, b.7.trans a.7, b.8.trans a.8,
   b.9.trans a.9, b.10.trans a.10, b.11.trans a.11, b.12.trans a.12, b.13.trans a.13, b.14.trans a.14, b.15.trans a.15,
   b.16.trans a.16, b.17.trans a.17, b.18.trans a.18, fun z => (a.19 z).trans (b.19 z), fun i => (a.20 i).trans (b.20 i), a.21.trans b.21⟩

/-- A hand-over that zones, fans and the alarm unit make; the others come from a channel, from EQZ or from a probe. -/
def Handover.quiet : Handover → Bool
  | .condition _ _ => true
  | .paused _ _ => true
  | .critical _ => true
  | .availability _ => true
  | .toArbiter => true
  | .toFans _ => true
  | .eqz _ => false
  | .member _ => false
  | .coupling _ _ => false
  | .spill _ => false
  | .completion _ => false

/-- Work that a cascade may do at one of its hand-overs. -/
structure Calm (w v : Work) : Prop where
  keeps : CascadeKeeps w.st v.st
  sense : ∀ z, SenseKept (w.st.zone z) (v.st.zone z)
  eqzImage : v.st.alarm.eqz = w.st.alarm.eqz
  traceIndex : v.st.link.traceIndex = w.st.link.traceIndex
  traceBuffer : v.st.link.traceBuffer = w.st.link.traceBuffer
  out : ∃ new, v.out = w.out ++ new ∧ ∀ h ∈ new, h.quiet = true

theorem Calm.refl (w : Work) : Calm w w :=
  ⟨.refl _, fun _ => .refl _, rfl, rfl, rfl, [], by simp, by simp⟩

theorem Calm.trans {u v w : Work} (a : Calm u v) (b : Calm v w) : Calm u w := by
  obtain ⟨na, ha, qa⟩ := a.out
  obtain ⟨nb, hb, qb⟩ := b.out
  refine ⟨a.keeps.trans b.keeps, fun z => (a.sense z).trans (b.sense z), b.eqzImage.trans a.eqzImage,
    b.traceIndex.trans a.traceIndex, b.traceBuffer.trans a.traceBuffer, na ++ nb, by rw [hb, ha, List.append_assoc], ?_⟩
  intro h hm
  rcases List.mem_append.1 hm with h1 | h1
  · exact qa h h1
  · exact qb h h1

/-! ## State updates -/

theorem calm_post (w : Work) {h : Handover} (q : h.quiet = true) : Calm w (w.post h) :=
  ⟨.refl _, fun _ => .refl _, rfl, rfl, rfl, [h], rfl, by simpa using q⟩

theorem calm_postAll (w : Work) {hs : List Handover} (q : ∀ h ∈ hs, h.quiet = true) : Calm w (w.postAll hs) :=
  ⟨.refl _, fun _ => .refl _, rfl, rfl, rfl, hs, rfl, q⟩

theorem calm_map (w : Work) {f : State → State} (keeps : CascadeKeeps w.st (f w.st))
    (sense : ∀ z, SenseKept (w.st.zone z) ((f w.st).zone z)) (eqzImage : (f w.st).alarm.eqz = w.st.alarm.eqz)
    (i : (f w.st).link.traceIndex = w.st.link.traceIndex) (b : (f w.st).link.traceBuffer = w.st.link.traceBuffer) :
    Calm w (w.map f) := ⟨keeps, sense, eqzImage, i, b, [], by simp, by simp⟩

theorem calm_notice (w : Work) (b : NoticeBody) : Calm w (w.notice b) :=
  calm_map w ⟨rfl, rfl, rfl, rfl, rfl, rfl, rfl, rfl, rfl, rfl, rfl, rfl, rfl, rfl, rfl, rfl, rfl, rfl, fun _ => .refl _,
    fun _ => .refl _, [_], rfl⟩ (fun _ => .refl _) rfl rfl rfl

theorem calm_noticeAll (bs : List NoticeBody) (w : Work) : Calm w (w.noticeAll bs) := by
  induction bs generalizing w with
  | nil => exact .refl w
  | cons b bs ih => exact (calm_notice w b).trans (ih (w.notice b))

theorem calm_setFan (w : Work) (i : Fin 8) {g : State → Fan} (h : FanKept (w.st.fan i) (g w.st)) :
    Calm w (w.map fun s => s.setFan i (g s)) := by
  refine calm_map w ⟨rfl, rfl, rfl, rfl, rfl, rfl, rfl, rfl, rfl, rfl, rfl, rfl, rfl, rfl, rfl, rfl, rfl, rfl,
    fun _ => .refl _, fun j => ?_, .refl _⟩ (fun _ => .refl _) rfl rfl rfl
  rw [State.setFan_fan]
  split
  · subst_vars; exact h
  · exact .refl _

theorem calm_setZone (w : Work) (z : Fin 6) {g : State → Zone} (k : ZoneKept (w.st.zone z) (g w.st))
    (h : SenseKept (w.st.zone z) (g w.st)) : Calm w (w.map fun s => s.setZone z (g s)) := by
  refine calm_map w ⟨rfl, rfl, rfl, rfl, rfl, rfl, rfl, rfl, rfl, rfl, rfl, rfl, rfl, rfl, rfl, rfl, rfl, rfl,
    fun y => ?_, fun _ => .refl _, .refl _⟩ (fun y => ?_) rfl rfl rfl
  all_goals
    rw [State.setZone_zone]
    split
    · subst_vars; assumption
    · exact .refl _

theorem calm_setArb (w : Work) {g : State → Arbiter} (k : (g w.st).k = w.st.arb.k) (ww : (g w.st).w = w.st.arb.w)
    (gg : (g w.st).g = w.st.arb.g) : Calm w (w.map fun s => s.setArb (g s)) :=
  calm_map w ⟨rfl, rfl, rfl, rfl, rfl, rfl, rfl, rfl, rfl, rfl, rfl, rfl, k, ww, gg, rfl, rfl, rfl, fun _ => .refl _,
    fun _ => .refl _, .refl _⟩ (fun _ => .refl _) rfl rfl rfl

theorem calm_setAlarm (w : Work) {g : State → Alarm} (m : (g w.st).maskChannelNote = w.st.alarm.maskChannelNote)
    (n : (g w.st).maskFlowNote = w.st.alarm.maskFlowNote) (l : (g w.st).lampTimer = w.st.alarm.lampTimer)
    (e : (g w.st).eqz = w.st.alarm.eqz) : Calm w (w.map fun s => s.setAlarm (g s)) :=
  calm_map w ⟨rfl, rfl, rfl, rfl, rfl, rfl, rfl, rfl, rfl, rfl, rfl, rfl, rfl, rfl, rfl, m, n, l, fun _ => .refl _,
    fun _ => .refl _, .refl _⟩ (fun _ => .refl _) e rfl rfl

theorem calm_foldl {α : Type} (f : Work → α → Work) (h : ∀ w a, Calm w (f w a)) (xs : List α) (w : Work) :
    Calm w (xs.foldl f w) := by
  induction xs generalizing w with
  | nil => exact .refl w
  | cons x xs ih => exact (h w x).trans (ih (f w x))

theorem calm_forEachOpen {α : Type} (w : Work) (xs : List α) {f : Work → α → Work} (h : ∀ w a, Calm w (f w a)) :
    Calm w (w.forEachOpen xs f) :=
  (calm_map w ⟨rfl, rfl, rfl, rfl, rfl, rfl, rfl, rfl, rfl, rfl, rfl, rfl, rfl, rfl, rfl, rfl, rfl, rfl,
    fun _ => .refl _, fun _ => .refl _, .refl _⟩ (fun _ => .refl _) rfl rfl rfl).trans (calm_foldl f h _ _)

theorem Calm.ite {w : Work} {p : Prop} [Decidable p] {a b : Work} (ha : p → Calm w a) (hb : ¬p → Calm w b) :
    Calm w (if p then a else b) := by
  split
  · exact ha ‹_›
  · exact hb ‹_›

/-! ## Fans and the start arbiter -/

theorem calm_handCondition (w : Work) (k : Fin 82) (was is : Bool) (now : Image) : Calm w (w.handCondition k was is now) :=
  .ite (fun _ => .refl w) fun _ => calm_post w rfl

theorem FanKept.remeasure {f g : Fan} (h : FanKept f g) (before : Fan) (clock : Nat) : FanKept f (g.remeasure before clock) :=
  h.trans ⟨rfl, rfl, rfl, rfl, rfl, id, id, id⟩

/-- A fan's change of record changes nothing else but through its notice and its hand-overs. -/
theorem calm_moveFan (w : Work) (i : Fin 8) {f : Fan} (h : FanKept (w.st.fan i) f) : Calm w (w.moveFan i f) := by
  unfold Work.moveFan
  have put : Calm w (w.map fun s => s.setFan i (f.remeasure (w.st.fan i) w.st.clock)) :=
    calm_setFan w i (g := fun _ => f.remeasure (w.st.fan i) w.st.clock) (h.remeasure _ _)
  refine Calm.ite (fun _ => ?_) (fun _ => ?_)
  rotate_left
  · refine .trans ?_ (calm_forEachOpen _ _ fun w z => calm_post w (by rfl))
    refine .trans (.trans ?_ (calm_handCondition ..)) (calm_handCondition ..)
    exact .ite (fun _ => put) fun _ => put.trans (calm_notice _ _)
  · refine .trans (.trans ?_ (calm_handCondition ..)) (calm_handCondition ..)
    exact .ite (fun _ => put) fun _ => put.trans (calm_notice _ _)

theorem FanKept.running (f : Fan) (c : Nat) : FanKept f (f.running c) := ⟨rfl, rfl, rfl, rfl, rfl, fun _ => rfl, id, fun _ => rfl⟩
theorem FanKept.proving (f : Fan) (c : Nat) : FanKept f (f.proving c) := ⟨rfl, rfl, rfl, rfl, rfl, fun _ => rfl, id, id⟩
theorem FanKept.coasting (f : Fan) (c : Nat) : FanKept f (f.coasting c) := ⟨rfl, rfl, rfl, rfl, rfl, fun _ => rfl, id, id⟩

theorem calm_enterRunning (w : Work) (i : Fin 8) : Calm w (w.enterRunning i) := calm_moveFan w i (.running _ _)

theorem calm_enterProving (w : Work) (i : Fin 8) : Calm w (w.enterProving i) :=
  (calm_moveFan w i (.proving _ _)).trans (.ite (fun _ => calm_enterRunning _ _) fun _ => .refl _)

theorem calm_enterCoasting (w : Work) (i : Fin 8) : Calm w (w.enterCoasting i) := calm_moveFan w i (.coasting _ _)

theorem calm_stopOrCoast (w : Work) (i : Fin 8) : Calm w (w.stopOrCoast i) :=
  .ite (fun _ => calm_enterCoasting w i) fun _ => calm_setFan w i ⟨rfl, rfl, rfl, rfl, rfl, id, id, id⟩

theorem calm_grant (w : Work) (i : Fin 8) : Calm w (w.grant i) :=
  ((calm_setArb w (g := fun s => s.arb.granted i s.clock) rfl rfl rfl).trans
    (calm_setFan _ i (g := fun s => { s.fan i with startCount := countStart (s.fan i).startCount })
      ⟨rfl, rfl, rfl, rfl, rfl, id, id, id⟩)).trans (calm_enterProving _ i)

theorem calm_consider (w : Work) : Calm w w.consider := by
  unfold Work.consider
  split
  · exact calm_grant w _
  · exact .refl w

theorem calm_enterWaiting (w : Work) (i : Fin 8) : Calm w (w.enterWaiting i) := by
  unfold Work.enterWaiting
  refine .trans (.trans ?_ (calm_setArb _ (by rfl) (by rfl) (by rfl))) (calm_consider _)
  exact calm_moveFan w i ⟨rfl, rfl, rfl, rfl, rfl, fun _ => rfl, id, id⟩

theorem calm_leaveWaiting (w : Work) (i : Fin 8) : Calm w (w.map fun s => s.leaveWaiting i) :=
  calm_setArb w (g := fun s => { s.arb with waiting := vset s.arb.waiting i none }) rfl rfl rfl

theorem calm_testExercise (w : Work) (i : Fin 8) : Calm w (w.testExercise i) :=
  .ite (fun _ => (calm_setFan w i (g := fun s =>
      { s.fan i with exerciseOwed := false, claims := (s.fan i).claims.add .exercise }) ⟨rfl, rfl, rfl, rfl, rfl, id, fun _ => rfl, fun _ => rfl⟩).trans
    (calm_enterWaiting _ i)) fun _ => .refl w

theorem calm_enterIdle (w : Work) (i : Fin 8) : Calm w (w.enterIdle i) := by
  unfold Work.enterIdle
  refine .trans ?_ (calm_testExercise _ i)
  exact calm_moveFan w i ⟨rfl, rfl, rfl, rfl, rfl, fun _ => rfl, id, id⟩

/-- A zone's claim on a fan. -/
theorem calm_addClaim (w : Work) (i : Fin 8) (z : Fin 6) : Calm w (w.addClaim i (.zone z)) := by
  unfold Work.addClaim
  refine .ite (fun _ => .refl w) fun _ => ?_
  have added : Calm w (w.map fun s => s.setFan i { s.fan i with claims := (s.fan i).claims.add (.zone z) }) :=
    calm_setFan w i ⟨rfl, rfl, rfl, rfl, rfl, id, id, id⟩
  have cleared : ∀ v : Work, Calm v (v.map fun s => s.setFan i { s.fan i with stopPending := false }) :=
    fun v => calm_setFan v i ⟨rfl, rfl, rfl, rfl, rfl, id, id, id⟩
  split
  · exact added.trans (calm_enterWaiting _ i)
  · exact added.trans (calm_consider _)
  · exact added.trans (cleared _)
  · exact added.trans (cleared _)
  all_goals exact added

/-- A zone's release of a fan. -/
theorem calm_removeClaim (w : Work) (i : Fin 8) (z : Fin 6) : Calm w (w.removeClaim i (.zone z)) := by
  unfold Work.removeClaim
  refine .ite (fun _ => .refl w) fun _ => ?_
  have removed : Calm w (w.map fun s => s.setFan i ((s.fan i).withoutClaim (.zone z))) :=
    calm_setFan w i ⟨rfl, rfl, rfl, rfl, rfl, id, id, id⟩
  refine .ite (fun _ => ?_) fun _ => ?_
  · split
    · exact (removed.trans (calm_leaveWaiting _ i)).trans (calm_enterIdle _ i)
    · exact removed.trans (calm_stopOrCoast _ i)
    · exact removed.trans (calm_stopOrCoast _ i)
    all_goals exact removed
  · split
    · exact removed.trans (calm_consider _)
    all_goals exact removed

/-! ## Zones -/

theorem calm_allocate (w : Work) (z : Fin 6) : Calm w (w.allocate z) := by
  unfold Work.allocate
  refine .trans (.trans ?_ (calm_foldl _ (fun v f => calm_removeClaim v f z) _ _))
    (calm_foldl _ (fun v f => calm_addClaim v f z) _ _)
  exact calm_setZone w z ⟨rfl, rfl⟩ ⟨rfl, rfl, rfl, rfl, rfl, rfl, rfl⟩

theorem quiet_changedImage (k : Fin 82) (a b : Image) : ∀ h ∈ changedImage k a b, h.quiet = true := by
  intro h hm
  unfold changedImage at hm
  split at hm <;> simp_all [Handover.quiet]

theorem calm_endEvaluation (w : Work) (z : Fin 6) (before : Zone) : Calm w (w.endEvaluation z before) := by
  unfold Work.endEvaluation
  refine .trans (calm_postAll w ?_) (.ite (fun _ => .refl _) fun _ => calm_notice _ _)
  intro h hm
  simp only [List.mem_append] at hm
  rcases hm with ((hm | hm) | hm) | hm
  · exact quiet_changedImage _ _ _ h hm
  · exact quiet_changedImage _ _ _ h hm
  · exact quiet_changedImage _ _ _ h hm
  · split at hm <;> simp_all [Handover.quiet]

theorem calm_demandStep (w : Work) (z : Fin 6) (always : Bool) : Calm w (w.demandStep z always) := by
  unfold Work.demandStep
  have set : ∀ d, Calm w (w.map fun s => s.setZone z { w.st.zone z with demand := d }) :=
    fun d => calm_setZone w z ⟨rfl, rfl⟩ ⟨rfl, rfl, rfl, rfl, rfl, rfl, rfl⟩
  exact .ite (fun _ => (set _).trans (calm_allocate _ z)) fun _ => set _

/-- An evaluation that starts at the demand, of a zone whose record the event has not changed. -/
theorem calm_evaluateDemand (w : Work) (z : Fin 6) (always : Bool) : Calm w (w.evaluateDemand z (w.st.zone z) always) :=
  ((calm_setZone w z (g := fun _ => w.st.zone z) (.refl _) (.refl _)).trans (calm_demandStep _ z always)).trans
    (calm_endEvaluation _ z _)

/-- An evaluation that starts at allocation, of a zone whose record the event has not changed. -/
theorem calm_evaluateAllocation (w : Work) (z : Fin 6) : Calm w (w.evaluateAllocation z (w.st.zone z)) :=
  ((calm_setZone w z (g := fun _ => w.st.zone z) (.refl _) (.refl _)).trans (calm_allocate _ z)).trans
    (calm_endEvaluation _ z _)

theorem calm_ifActive (w : Work) (z : Fin 6) {f : Work → Work} (h : Calm w (f w)) : Calm w (w.ifActive z f) :=
  .ite (fun _ => h) fun _ => .refl w

/-! ## The alarm unit -/

theorem calm_handRegime (w : Work) (old new : Regime) : Calm w (w.handRegime old new) :=
  ((calm_forEachOpen w _ fun w z => calm_post w (by rfl)).trans (calm_post _ (by rfl))).trans (calm_post _ (by rfl))

theorem calm_alarmPass (w : Work) (changed : Bool) (notes : List NoticeBody) : Calm w (w.alarmPass changed notes) := by
  unfold Work.alarmPass
  have noted : ∀ bs : List NoticeBody, ∀ a : Alarm, a.maskChannelNote = w.st.alarm.maskChannelNote →
      a.maskFlowNote = w.st.alarm.maskFlowNote → a.lampTimer = w.st.alarm.lampTimer → a.eqz = w.st.alarm.eqz →
      Calm w ((w.map fun s => s.setAlarm a).noticeAll bs) :=
    fun bs a m n l e => (calm_setAlarm w (g := fun _ => a) m n l e).trans (calm_noticeAll bs _)
  refine .ite (fun _ => ?_) fun _ => ?_
  · exact noted _ _ rfl rfl rfl rfl
  · refine .trans ?_ (calm_handRegime _ _ _)
    exact noted _ _ rfl rfl rfl rfl

theorem calm_takeCondition (w : Work) (k : Fin 82) (image : Image) : Calm w (w.takeCondition k image) := by
  unfold Work.takeCondition
  refine .trans ?_ (calm_alarmPass _ _ _)
  exact calm_setAlarm w rfl rfl rfl rfl

theorem calm_takePaused (w : Work) (z : Fin 6) (yes : Bool) : Calm w (w.takePaused z yes) :=
  (calm_setAlarm w (g := fun s => { s.alarm with paused := vset s.alarm.paused z yes }) rfl rfl rfl rfl).trans
    (calm_alarmPass _ _ _)

theorem calm_takeRegimeAtFans (w : Work) (fell : Bool) : Calm w (w.takeRegimeAtFans fell) :=
  .ite (fun _ => calm_forEachOpen w _ fun w i => calm_testExercise w i) fun _ => .refl w

/-! ## Hand-overs -/

/-- Taking a hand-over of a zone, a fan or the alarm unit is calm. -/
theorem calm_take (w : Work) {h : Handover} (q : h.quiet = true) : Calm w (w.take h) := by
  cases h with
  | condition k image => exact calm_takeCondition w k image
  | paused z yes => exact calm_takePaused w z yes
  | critical z => exact calm_ifActive w z (f := fun w => w.evaluateDemand z (w.st.zone z) true) (calm_evaluateDemand w z true)
  | availability z => exact calm_ifActive w z (f := fun w => w.evaluateAllocation z (w.st.zone z)) (calm_evaluateAllocation w z)
  | toArbiter => exact calm_consider w
  | toFans fell => exact calm_takeRegimeAtFans w fell
  | eqz _ => simp [Handover.quiet] at q
  | member _ => simp [Handover.quiet] at q
  | coupling _ _ => simp [Handover.quiet] at q
  | spill _ => simp [Handover.quiet] at q
  | completion _ => simp [Handover.quiet] at q

/-- A cascade of such hand-overs is calm from its first to its last. -/
theorem settle_calm (fuel : Nat) (w : Work) (q : ∀ h ∈ w.out, h.quiet = true) :
    CascadeKeeps w.st (w.settle fuel).st ∧ (∀ z, SenseKept (w.st.zone z) ((w.settle fuel).st.zone z)) ∧
    (w.settle fuel).st.alarm.eqz = w.st.alarm.eqz ∧ (w.settle fuel).st.link.traceIndex = w.st.link.traceIndex ∧
    (w.settle fuel).st.link.traceBuffer = w.st.link.traceBuffer ∧ (∀ h ∈ (w.settle fuel).out, h.quiet = true) := by
  induction fuel generalizing w with
  | zero => exact ⟨.refl _, fun _ => .refl _, rfl, rfl, rfl, q⟩
  | succ fuel ih =>
    unfold Work.settle
    split
    · exact ⟨.refl _, fun _ => .refl _, rfl, rfl, rfl, q⟩
    · rename_i h rest ho
      have hc := calm_take { w with out := rest } (q h (by simp [ho]))
      obtain ⟨new, hn, qn⟩ := hc.out
      have := ih _ (by
        intro x hx
        rw [hn] at hx
        rcases List.mem_append.1 hx with hx | hx
        · exact q x (by simp only [ho]; exact List.mem_cons_of_mem _ hx)
        · exact qn x hx)
      exact ⟨hc.keeps.trans this.1, fun z => (hc.sense z).trans (this.2.1 z), this.2.2.1.trans hc.eqzImage,
        this.2.2.2.1.trans hc.traceIndex, this.2.2.2.2.1.trans hc.traceBuffer, this.2.2.2.2.2⟩

end Sys2Proof.Machine
end

