-- ==== Sys2Proof/Laws/Cascade.lean ====
section
/-! SUPPORT. What the cascade of hand-overs at the end of a step can do, said once: `settle_keeps` for any cascade,
`settle_calm` for one that no channel, no EQZ and no probe feeds, and `settle_nil` for none. -/

namespace Sys2Proof.Machine

theorem Calm.state {w v : Work} (h : Calm w v) : CascadeKeeps w.st v.st := h.keeps

/-- A change of one zone's record that keeps its configuration and its activity. -/
theorem keeps_setZone (s : State) (z : Fin 6) {r : Zone} (h : ZoneKept (s.zone z) r) : CascadeKeeps s (s.setZone z r) := by
  refine ⟨rfl, rfl, rfl, rfl, rfl, rfl, rfl, rfl, rfl, rfl, rfl, rfl, rfl, rfl, rfl, rfl, rfl, rfl, fun y => ?_,
    fun _ => .refl _, .refl _⟩
  rw [State.setZone_zone]
  split
  · subst_vars; exact h
  · exact .refl _

theorem ZoneKept.settleGas (z : Zone) (clock : Nat) : ZoneKept z (z.settleGas clock) := by
  unfold Zone.settleGas
  split
  · exact ⟨rfl, rfl⟩
  · split
    · exact ⟨rfl, rfl⟩
    · split
      · exact ⟨rfl, rfl⟩
      · split <;> exact ⟨rfl, rfl⟩

theorem ZoneKept.sense (s : State) (z : Fin 6) : ZoneKept (s.zone z) (s.sense z) := by
  unfold State.sense
  refine .trans ?_ (.settleGas _ _)
  exact ⟨rfl, rfl⟩

theorem Zone.settleGas_sight (z : Zone) (clock : Nat) : (z.settleGas clock).sight = z.sight := by
  unfold Zone.settleGas
  split
  · rfl
  · split
    · rfl
    · split
      · rfl
      · split <;> rfl

theorem Zone.settleGas_voted (z : Zone) (clock : Nat) : (z.settleGas clock).voted = z.voted := by
  unfold Zone.settleGas
  split
  · rfl
  · split
    · rfl
    · split
      · rfl
      · split <;> rfl

theorem State.sense_sight (s : State) (z : Fin 6) : (s.sense z).sight =
    some (sightOf (s.zone z).cfg.vote (s.healthyReadings z) ((s.members z).any fun i => (s.chan i).failed)) :=
  Zone.settleGas_sight _ _

theorem State.sense_voted (s : State) (z : Fin 6) : (s.sense z).voted = votedOf (s.zone z).cfg.vote (s.healthyReadings z) :=
  Zone.settleGas_voted _ _

/-- A zone's spill is whether a present probe mapped to it contributes. -/
theorem State.spillIn_iff (s : State) (z : Fin 6) : s.spillIn z = true ↔ SpillIn s z := by
  simp [State.spillIn, SpillIn, and_assoc]

theorem ZoneKept.couple (z : Zone) (active : Bool) (clock : Nat) : ZoneKept z (z.couple active clock) := by
  unfold Zone.couple
  split
  · exact ⟨rfl, rfl⟩
  · split <;> exact ⟨rfl, rfl⟩

theorem keeps_evaluateSight (w : Work) (z : Fin 6) : CascadeKeeps w.st (w.evaluateSight z).st :=
  ((keeps_setZone w.st z (.sense _ _)).trans
    (calm_demandStep (w.map fun s => s.setZone z (s.sense z)) z false).keeps).trans (calm_endEvaluation _ z _).keeps

/-- What an evaluation that starts at sight has sensed, it keeps. -/
theorem evaluateSight_sensed (w : Work) (z : Fin 6) : SenseKept (w.st.sense z) ((w.evaluateSight z).st.zone z) := by
  have h := ((calm_demandStep (w.map fun s => s.setZone z (s.sense z)) z false).trans (calm_endEvaluation _ z (w.st.zone z))).sense z
  simpa [Work.evaluateSight] using h

theorem keeps_evaluateDemand (w : Work) (z : Fin 6) {r : Zone} (always : Bool) (h : ZoneKept (w.st.zone z) r) :
    CascadeKeeps w.st (w.evaluateDemand z r always).st :=
  ((keeps_setZone w.st z h).trans (calm_demandStep (w.map fun s => s.setZone z r) z always).keeps).trans (calm_endEvaluation _ z _).keeps

theorem keeps_evaluateAllocation (w : Work) (z : Fin 6) {r : Zone} (h : ZoneKept (w.st.zone z) r) :
    CascadeKeeps w.st (w.evaluateAllocation z r).st :=
  ((keeps_setZone w.st z h).trans (calm_allocate (w.map fun s => s.setZone z r) z).keeps).trans (calm_endEvaluation _ z _).keeps

theorem keeps_takeCoupling (w : Work) (z : Fin 6) (active : Bool) : CascadeKeeps w.st (w.takeCoupling z active).st := by
  unfold Work.takeCoupling
  dsimp only
  split
  · exact keeps_setZone _ z (.couple _ _ _)
  · exact keeps_evaluateDemand w z false (.couple _ _ _)

theorem keeps_takeSpill (w : Work) (z : Fin 6) : CascadeKeeps w.st (w.takeSpill z).st := by
  unfold Work.takeSpill
  dsimp only
  split
  · exact .refl _
  · exact keeps_evaluateDemand w z false ⟨rfl, rfl⟩

theorem keeps_takeEqz (w : Work) (active : Bool) : CascadeKeeps w.st (w.takeEqz active).st :=
  CascadeKeeps.trans (t := w.st.setAlarm { w.st.alarm with eqz := active })
    ⟨rfl, rfl, rfl, rfl, rfl, rfl, rfl, rfl, rfl, rfl, rfl, rfl, rfl, rfl, rfl, rfl, rfl, rfl, fun _ => .refl _,
      fun _ => .refl _, .refl _⟩ (calm_alarmPass (w.map fun s => s.setAlarm { s.alarm with eqz := active }) false []).keeps

theorem keeps_buildTrace (s : State) (i : Fin 16) : CascadeKeeps s (s.buildTrace i) := by
  unfold State.buildTrace
  split
  · exact ⟨rfl, rfl, rfl, rfl, rfl, rfl, rfl, rfl, rfl, rfl, rfl, rfl, rfl, rfl, rfl, rfl, rfl, rfl, fun _ => .refl _,
      fun _ => .refl _, .refl _⟩
  · exact .refl _

theorem keeps_ifActive (w : Work) (z : Fin 6) {f : Work → Work} (h : CascadeKeeps w.st (f w).st) :
    CascadeKeeps w.st (w.ifActive z f).st := by
  unfold Work.ifActive
  split
  · exact h
  · exact .refl _

/-- Whatever the hand-over, taking it leaves alone what `CascadeKeeps` says. -/
theorem take_keeps (w : Work) (h : Handover) : CascadeKeeps w.st (w.take h).st := by
  cases h with
  | condition k image => exact (calm_takeCondition w k image).keeps
  | paused z yes => exact (calm_takePaused w z yes).keeps
  | eqz active => exact keeps_takeEqz w active
  | member z => exact keeps_ifActive w z (f := fun w => w.evaluateSight z) (keeps_evaluateSight w z)
  | coupling z active => exact keeps_ifActive w z (f := fun w => w.takeCoupling z active) (keeps_takeCoupling w z active)
  | spill z => exact keeps_ifActive w z (f := fun w => w.takeSpill z) (keeps_takeSpill w z)
  | critical z => exact (calm_take w (h := .critical z) rfl).keeps
  | availability z => exact (calm_take w (h := .availability z) rfl).keeps
  | toArbiter => exact (calm_consider w).keeps
  | toFans fell => exact (calm_takeRegimeAtFans w fell).keeps
  | completion i => exact keeps_buildTrace w.st i

/-- Whatever hand-overs a step has made, the cascade leaves alone what `CascadeKeeps` says. -/
theorem settle_keeps (fuel : Nat) (w : Work) : CascadeKeeps w.st (w.settle fuel).st := by
  induction fuel generalizing w with
  | zero => exact .refl _
  | succ fuel ih =>
    unfold Work.settle
    split
    · exact .refl _
    · rename_i h rest _
      exact (take_keeps { w with out := rest } h).trans (ih ({ w with out := rest }.take h))

/-- With no hand-over made, there is nothing to take. -/
theorem settle_nil (fuel : Nat) {w : Work} (h : w.out = []) : w.settle fuel = w := by
  cases fuel with
  | zero => rfl
  | succ fuel => unfold Work.settle; split <;> simp_all

theorem finish_keeps (w : Work) : CascadeKeeps w.st w.finish := settle_keeps _ w

theorem finish_nil {w : Work} (h : w.out = []) : w.finish = w.st := by
  unfold Work.finish; rw [settle_nil _ h]

/-- A step's cascade leaves alone what its own work has written. -/
theorem does_keeps (s : State) (f : Work → Work) : CascadeKeeps (f s.begin).st (s.does f) := finish_keeps _

/-- Work that makes no hand-over is the whole of its step. -/
theorem does_quiet (s : State) {f : Work → Work} (h : (f s.begin).out = []) : s.does f = (f s.begin).st := finish_nil h

/-! ## Replies -/

theorem sendReply_outstanding (s : State) (r : Reply) : (s.sendReply r).link.outstanding = some r := rfl

/-- A taken request: it acts, and its reply is outstanding. -/
theorem takeRequest_taken {kind tag : Byte} {act : State → Answer} {s : State} (h : s.link.outstanding = none) :
    takeRequest kind tag act s = (act s).st.sendReply ((act s).reply kind tag) := by
  simp [takeRequest, h]

/-- While a request is outstanding, no other is taken. -/
theorem takeRequest_busy {kind tag : Byte} {act : State → Answer} {s : State} {r : Reply}
    (h : s.link.outstanding = some r) : takeRequest kind tag act s = s := by
  simp [takeRequest, h]

end Sys2Proof.Machine
end

