-- ==== Sys2Proof/Laws/Rest.lean ====
section
/-! SUPPORT. A cascade leaves a resting fan alone: `settle_rests`. -/

namespace Sys2Proof.Machine

/-- A fan's record and its request are as they were. -/
def SameFan (i : Fin 8) (w v : Work) : Prop := v.st.fan i = w.st.fan i ∧ v.st.requestTime i = w.st.requestTime i

theorem SameFan.refl (i : Fin 8) (w : Work) : SameFan i w w := ⟨rfl, rfl⟩
theorem SameFan.trans {i : Fin 8} {u v w : Work} (a : SameFan i u v) (b : SameFan i v w) : SameFan i u w :=
  ⟨b.1.trans a.1, b.2.trans a.2⟩

theorem FanRests.refl (s : State) (i : Fin 8) : FanRests s s i := fun h _ => ⟨h, rfl, fun _ h => h⟩

theorem FanRests.trans {s t u : State} {i : Fin 8} (a : FanRests s t i) (b : FanRests t u i) : FanRests s u i := by
  intro h r
  obtain ⟨h1, e1, c1⟩ := a h r
  have r1 : (t.fan i).state.resting = true := by rw [e1]; exact r
  obtain ⟨h2, e2, c2⟩ := b h1 r1
  refine ⟨h2, ?_, fun p q => c2 ?_ (c1 p q)⟩
  · rw [e2, e1]
  · rw [e1]; exact p

theorem SameFan.rests {i : Fin 8} {w v : Work} (h : SameFan i w v) : FanRests w.st v.st i := by
  intro r _
  rw [h.1, h.2]
  exact ⟨r, rfl, fun _ h => h⟩

section
variable (i : Fin 8)

/-- A change of the state that reaches neither the fan nor its request. -/
theorem same_map (w : Work) {f : State → State} (h : (f w.st).fans = w.st.fans) (k : (f w.st).arb = w.st.arb) :
    SameFan i w (w.map f) := by
  refine ⟨?_, ?_⟩
  · change vget (f w.st).fans i = _; rw [h]; rfl
  · change vget (f w.st).arb.waiting i = _; rw [k]; rfl

theorem same_notice (w : Work) (b : NoticeBody) : SameFan i w (w.notice b) := same_map i w rfl rfl

theorem same_noticeAll (bs : List NoticeBody) (w : Work) : SameFan i w (w.noticeAll bs) := by
  induction bs generalizing w with
  | nil => exact .refl i w
  | cons b bs ih => exact (same_notice i w b).trans (ih (w.notice b))

theorem same_foldl {α : Type} (f : Work → α → Work) (h : ∀ w a, SameFan i w (f w a)) (xs : List α) (w : Work) :
    SameFan i w (xs.foldl f w) := by
  induction xs generalizing w with
  | nil => exact .refl i w
  | cons x xs ih => exact (h w x).trans (ih (f w x))

theorem same_forEachOpen {α : Type} (w : Work) (xs : List α) {f : Work → α → Work} (h : ∀ w a, SameFan i w (f w a)) :
    SameFan i w (w.forEachOpen xs f) :=
  (same_map i w (f := fun s => { s with choices := s.choices + drawsFor xs }) rfl rfl).trans (same_foldl i f h _ _)

theorem same_post (w : Work) (h : Handover) : SameFan i w (w.post h) := ⟨rfl, rfl⟩

theorem same_handCondition (w : Work) (k : Fin 82) (was is : Bool) (now : Image) :
    SameFan i w (w.handCondition k was is now) := by
  unfold Work.handCondition
  split
  · exact .refl i w
  · exact same_post i w _

theorem same_setFan (w : Work) {j : Fin 8} (ne : i ≠ j) (g : State → Fan) : SameFan i w (w.map fun s => s.setFan j (g s)) := by
  refine ⟨?_, rfl⟩
  change (w.st.setFan j (g w.st)).fan i = _
  rw [State.setFan_fan, if_neg]
  intro h; exact ne h.symm

theorem same_setWaiting (w : Work) {j : Fin 8} (ne : i ≠ j) {g : State → Arbiter} {x : Option Nat}
    (h : (g w.st).waiting = vset w.st.arb.waiting j x) : SameFan i w (w.map fun s => s.setArb (g s)) := by
  refine ⟨rfl, ?_⟩
  change vget (g w.st).waiting i = _
  rw [h, vget_vset, if_neg (fun h => ne h.symm)]
  rfl

theorem same_moveFan (w : Work) {j : Fin 8} (ne : i ≠ j) (f : Fan) : SameFan i w (w.moveFan j f) := by
  unfold Work.moveFan
  have put := same_setFan i w ne fun _ => f.remeasure (w.st.fan j) w.st.clock
  have noted : ∀ v, SameFan i w v → ∀ (p : Prop) [Decidable p] (b : NoticeBody),
      SameFan i w (if p then v else v.notice b) := by
    intro v h p _ b
    split
    · exact h
    · exact h.trans (same_notice i v b)
  dsimp only
  split
  · exact ((noted _ put _ _).trans (same_handCondition i _ _ _ _ _)).trans (same_handCondition i _ _ _ _ _)
  · exact (((noted _ put _ _).trans (same_handCondition i _ _ _ _ _)).trans (same_handCondition i _ _ _ _ _)).trans
      (same_forEachOpen i _ _ fun w z => same_post i w _)

theorem same_enterProving (w : Work) {j : Fin 8} (ne : i ≠ j) : SameFan i w (w.enterProving j) := by
  unfold Work.enterProving
  dsimp only
  split
  · exact (same_moveFan i w ne _).trans (same_moveFan i _ ne _)
  · exact same_moveFan i w ne _

theorem same_stopOrCoast (w : Work) {j : Fin 8} (ne : i ≠ j) : SameFan i w (w.stopOrCoast j) := by
  unfold Work.stopOrCoast
  split
  · exact same_moveFan i w ne _
  · exact same_setFan i w ne fun s => { s.fan j with stopPending := true }

theorem same_grant (w : Work) {j : Fin 8} (ne : i ≠ j) : SameFan i w (w.grant j) :=
  ((same_setWaiting i w ne (g := fun s => s.arb.granted j s.clock) rfl).trans
    (same_setFan i _ ne fun s => { s.fan j with startCount := countStart (s.fan j).startCount })).trans
    (same_enterProving i _ ne)

theorem mem_insertSorted {α : Type} (before : α → α → Bool) (x y : α) (xs : List α) :
    y ∈ insertSorted before x xs ↔ y = x ∨ y ∈ xs := by
  induction xs with
  | nil => simp [insertSorted]
  | cons z zs ih =>
    unfold insertSorted
    split
    · simp
    · simp [ih]; tauto

theorem mem_sortBy {α : Type} (before : α → α → Bool) (y : α) (xs : List α) : y ∈ sortBy before xs ↔ y ∈ xs := by
  induction xs with
  | nil => simp [sortBy]
  | cons x xs ih => simp [sortBy, mem_insertSorted, ih]

/-- A grant goes to a fan that waits. -/
theorem grantChoice_waits {s : State} {j : Fin 8} (h : s.grantChoice = some j) : (s.requestTime j).isSome = true := by
  unfold State.grantChoice at h
  split at h
  · have := List.mem_of_find?_eq_some h
    unfold State.grantOrder at this
    rw [mem_sortBy] at this
    simpa [State.waitingFans] using this
  · cases h

theorem rests_consider (w : Work) : FanRests w.st w.consider.st i := by
  unfold Work.consider
  split
  · rename_i j hj
    by_cases ne : i = j
    · subst ne
      intro h
      have waits := grantChoice_waits hj
      rw [h] at waits
      cases waits
    · exact (same_grant i w ne).rests
  · exact .refl _ i

theorem rests_enterWaiting (w : Work) {j : Fin 8} (ne : i ≠ j) : FanRests w.st (w.enterWaiting j).st i :=
  ((same_moveFan i w ne _).trans (same_setWaiting i _ ne rfl)).rests.trans (rests_consider i _)

theorem rests_testExercise (w : Work) (j : Fin 8) : FanRests w.st (w.testExercise j).st i := by
  unfold Work.testExercise
  split
  · rename_i h
    by_cases ne : i = j
    · subst ne
      intro _ r
      simp [State.takesExercise] at h
      simp [h.1.1.1, FanState.resting] at r
    · exact (same_setFan i w ne _).rests.trans (rests_enterWaiting i _ ne)
  · exact .refl _ i

theorem rests_enterIdle (w : Work) {j : Fin 8} (ne : i ≠ j) : FanRests w.st (w.enterIdle j).st i :=
  (same_moveFan i w ne _).rests.trans (rests_testExercise i _ j)

/-- A change of a coasting fan's claims. -/
theorem rests_claims (w : Work) (c : Claims) (t : (w.st.fan i).takesClaims = true) :
    FanRests w.st (w.st.setFan i { w.st.fan i with claims := c }) i := by
  intro h _
  refine ⟨h, ?_, fun f => by rw [f] at t; cases t⟩
  rw [State.setFan_fan, if_pos rfl]

theorem rests_addClaim (w : Work) (j : Fin 8) (z : Fin 6) : FanRests w.st (w.addClaim j (.zone z)).st i := by
  unfold Work.addClaim
  dsimp only
  split
  · exact .refl _ i
  · rename_i guard
    have takes : (w.st.fan j).takesClaims = true := by
      cases h : (w.st.fan j).takesClaims <;> simp_all
    by_cases ne : i = j
    · subst ne
      split
      all_goals rename_i h
      all_goals first
        | exact rests_claims i w ((w.st.fan i).claims.add (.zone z)) takes
        | (intro _ r; rw [h] at r; cases r)
    · have added := same_setFan i w ne fun s => { s.fan j with claims := (s.fan j).claims.add (.zone z) }
      split
      · exact added.rests.trans (rests_enterWaiting i _ ne)
      · exact added.rests.trans (rests_consider i _)
      · exact (added.trans (same_setFan i _ ne fun s => { s.fan j with stopPending := false })).rests
      · exact (added.trans (same_setFan i _ ne fun s => { s.fan j with stopPending := false })).rests
      all_goals exact added.rests

theorem empty_has (src : Source) : Claims.empty.has src = false := by
  cases src with
  | zone z => revert z; decide
  | manual => rfl
  | exercise => rfl

/-- A claim taken from a resting fan. -/
theorem rests_withoutZone (w : Work) (z : Fin 6) (has : (w.st.fan i).claims.has (.zone z) = true) :
    FanRests w.st (w.st.setFan i ((w.st.fan i).withoutClaim (.zone z))) i := by
  intro h _
  refine ⟨h, ?_, fun _ e => ?_⟩
  · rw [State.setFan_fan, if_pos rfl]; rfl
  · rw [e, empty_has] at has; cases has

theorem rests_removeClaim (w : Work) (j : Fin 8) (z : Fin 6) : FanRests w.st (w.removeClaim j (.zone z)).st i := by
  unfold Work.removeClaim
  dsimp only
  split
  · exact .refl _ i
  · rename_i guard
    have has : (w.st.fan j).claims.has (.zone z) = true := by
      cases h : (w.st.fan j).claims.has (.zone z) <;> simp_all
    by_cases ne : i = j
    · subst ne
      split
      all_goals
        split
        all_goals rename_i h
        all_goals first
          | exact rests_withoutZone i w z has
          | (intro _ r; rw [h] at r; cases r)
    · have removed := same_setFan i w ne fun s => (s.fan j).withoutClaim (.zone z)
      split
      · split
        · exact (removed.trans (same_setWaiting i _ ne rfl)).rests.trans (rests_enterIdle i _ ne)
        · exact (removed.trans (same_stopOrCoast i _ ne)).rests
        · exact (removed.trans (same_stopOrCoast i _ ne)).rests
        all_goals exact removed.rests
      · split
        · exact removed.rests.trans (rests_consider i _)
        all_goals exact removed.rests

theorem rests_foldl {α : Type} (f : Work → α → Work) (h : ∀ w a, FanRests w.st (f w a).st i) (xs : List α) (w : Work) :
    FanRests w.st (xs.foldl f w).st i := by
  induction xs generalizing w with
  | nil => exact .refl _ i
  | cons x xs ih => exact (h w x).trans (ih (f w x))

theorem rests_forEachOpen {α : Type} (w : Work) (xs : List α) {f : Work → α → Work}
    (h : ∀ w a, FanRests w.st (f w a).st i) : FanRests w.st (w.forEachOpen xs f).st i :=
  (same_map i w (f := fun s => { s with choices := s.choices + drawsFor xs }) rfl rfl).rests.trans (rests_foldl i f h _ _)

theorem rests_allocate (w : Work) (z : Fin 6) : FanRests w.st (w.allocate z).st i := by
  have set : ∀ r : Zone, FanRests w.st (w.map fun s => s.setZone z r).st i :=
    fun r => (same_map i w (f := fun s => s.setZone z r) rfl rfl).rests
  exact ((set _).trans (rests_foldl i _ (fun v f => rests_removeClaim i v f z) _ _)).trans
    (rests_foldl i _ (fun v f => rests_addClaim i v f z) _ _)

theorem same_endEvaluation (w : Work) (z : Fin 6) (before : Zone) : SameFan i w (w.endEvaluation z before) := by
  unfold Work.endEvaluation
  dsimp only
  split
  · exact ⟨rfl, rfl⟩
  · exact ⟨rfl, rfl⟩

theorem rests_demandStep (w : Work) (z : Fin 6) (always : Bool) : FanRests w.st (w.demandStep z always).st i := by
  unfold Work.demandStep
  dsimp only
  split
  · exact (same_map i w (f := fun s => s.setZone z _) rfl rfl).rests.trans (rests_allocate i _ z)
  · exact (same_map i w (f := fun s => s.setZone z _) rfl rfl).rests

theorem rests_evaluateSight (w : Work) (z : Fin 6) : FanRests w.st (w.evaluateSight z).st i :=
  ((same_map i w (f := fun s => s.setZone z (s.sense z)) rfl rfl).rests.trans (rests_demandStep i _ z false)).trans
    (same_endEvaluation i _ z _).rests

theorem rests_evaluateDemand (w : Work) (z : Fin 6) (r : Zone) (always : Bool) :
    FanRests w.st (w.evaluateDemand z r always).st i :=
  ((same_map i w (f := fun s => s.setZone z r) rfl rfl).rests.trans (rests_demandStep i _ z always)).trans
    (same_endEvaluation i _ z _).rests

theorem rests_evaluateAllocation (w : Work) (z : Fin 6) (r : Zone) : FanRests w.st (w.evaluateAllocation z r).st i :=
  ((same_map i w (f := fun s => s.setZone z r) rfl rfl).rests.trans (rests_allocate i _ z)).trans
    (same_endEvaluation i _ z _).rests

theorem rests_ifActive (w : Work) (z : Fin 6) {f : Work → Work} (h : FanRests w.st (f w).st i) :
    FanRests w.st (w.ifActive z f).st i := by
  unfold Work.ifActive
  split
  · exact h
  · exact .refl _ i

theorem rests_takeCoupling (w : Work) (z : Fin 6) (active : Bool) : FanRests w.st (w.takeCoupling z active).st i := by
  unfold Work.takeCoupling
  dsimp only
  split
  · exact (same_map i w (f := fun s => s.setZone z _) rfl rfl).rests
  · exact rests_evaluateDemand i w z _ _

theorem rests_takeSpill (w : Work) (z : Fin 6) : FanRests w.st (w.takeSpill z).st i := by
  unfold Work.takeSpill
  dsimp only
  split
  · exact .refl _ i
  · exact rests_evaluateDemand i w z _ _

theorem same_alarmPass (w : Work) (changed : Bool) (notes : List NoticeBody) : SameFan i w (w.alarmPass changed notes) := by
  unfold Work.alarmPass
  have noted : ∀ (bs : List NoticeBody) (a : Alarm), SameFan i w ((w.map fun s => s.setAlarm a).noticeAll bs) :=
    fun bs a => (same_map i w (f := fun s => s.setAlarm a) rfl rfl).trans (same_noticeAll i bs _)
  dsimp only
  split
  · exact noted _ _
  · have handed : ∀ (v : Work) (old new : Regime), SameFan i v (v.handRegime old new) := fun v _ _ =>
      ((same_forEachOpen i v _ fun w z => same_post i w _).trans (same_post i _ _)).trans (same_post i _ _)
    exact (noted _ _).trans (handed _ _ _)

theorem same_takeAlarm (w : Work) (a : Alarm) (changed : Bool) (notes : List NoticeBody) :
    SameFan i w ((w.map fun s => s.setAlarm a).alarmPass changed notes) :=
  (same_map i w (f := fun s => s.setAlarm a) rfl rfl).trans (same_alarmPass i _ _ _)

theorem rests_take (w : Work) (h : Handover) : FanRests w.st (w.take h).st i := by
  cases h with
  | condition k image => exact (same_takeAlarm i w _ _ _).rests
  | paused z yes =>
    exact (same_takeAlarm i w { w.st.alarm with paused := vset w.st.alarm.paused z yes } false []).rests
  | eqz active => exact (same_takeAlarm i w { w.st.alarm with eqz := active } false []).rests
  | member z => exact rests_ifActive i w z (f := fun w => w.evaluateSight z) (rests_evaluateSight i w z)
  | coupling z active =>
    exact rests_ifActive i w z (f := fun w => w.takeCoupling z active) (rests_takeCoupling i w z active)
  | spill z => exact rests_ifActive i w z (f := fun w => w.takeSpill z) (rests_takeSpill i w z)
  | critical z =>
    exact rests_ifActive i w z (f := fun w => w.evaluateDemand z (w.st.zone z) true) (rests_evaluateDemand i w z _ true)
  | availability z =>
    exact rests_ifActive i w z (f := fun w => w.evaluateAllocation z (w.st.zone z)) (rests_evaluateAllocation i w z _)
  | toArbiter => exact rests_consider i w
  | toFans fell =>
    change FanRests w.st (w.takeRegimeAtFans fell).st i
    unfold Work.takeRegimeAtFans
    split
    · exact rests_forEachOpen i w _ fun w j => rests_testExercise i w j
    · exact .refl _ i
  | completion c =>
    refine SameFan.rests (v := w.map fun s => s.buildTrace c) (same_map i w ?_ ?_)
    all_goals unfold State.buildTrace; split <;> rfl

theorem settle_rests_at (fuel : Nat) (w : Work) : FanRests w.st (w.settle fuel).st i := by
  induction fuel generalizing w with
  | zero => exact .refl _ i
  | succ fuel ih =>
    unfold Work.settle
    split
    · exact .refl _ i
    · rename_i h rest _
      exact (rests_take i { w with out := rest } h).trans (ih ({ w with out := rest }.take h))

end

/-- A cascade leaves every resting fan at rest. -/
theorem settle_rests (fuel : Nat) (w : Work) : CascadeRests w.st (w.settle fuel).st := fun i => settle_rests_at i fuel w

theorem does_rests (s : State) (f : Work → Work) : CascadeRests (f s.begin).st (s.does f) := settle_rests _ _

theorem CascadeRests.refl (s : State) : CascadeRests s s := fun i => FanRests.refl s i

end Sys2Proof.Machine
end

