-- ==== Sys2Proof/Laws/Grant.lean ====
section
/-! SUPPORT. No cascade makes a grant while the spacing timer runs: `settle_ungranted`. -/

namespace Sys2Proof.Machine

/-- What only a grant, an ageing-out or a spacing expiry changes. -/
def SameGrants (w v : Work) : Prop :=
  v.st.arb.history = w.st.arb.history ∧ v.st.arb.spacing = w.st.arb.spacing ∧ v.st.arb.lastGrant = w.st.arb.lastGrant ∧
  ∀ i, (v.st.fan i).startCount = (w.st.fan i).startCount

theorem SameGrants.refl (w : Work) : SameGrants w w := ⟨rfl, rfl, rfl, fun _ => rfl⟩
theorem SameGrants.trans {u v w : Work} (a : SameGrants u v) (b : SameGrants v w) : SameGrants u w :=
  ⟨b.1.trans a.1, b.2.1.trans a.2.1, b.2.2.1.trans a.2.2.1, fun i => (b.2.2.2 i).trans (a.2.2.2 i)⟩

theorem Ungranted.refl (s : State) : Ungranted s s := fun _ => ⟨rfl, rfl, rfl, fun _ => rfl⟩

theorem Ungranted.trans {s t u : State} (a : Ungranted s t) (b : Ungranted t u) : Ungranted s u := by
  intro h
  obtain ⟨a1, a2, a3, a4⟩ := a h
  obtain ⟨b1, b2, b3, b4⟩ := b (by rw [a2]; exact h)
  exact ⟨b1.trans a1, b2.trans a2, b3.trans a3, fun i => (b4 i).trans (a4 i)⟩

theorem SameGrants.un {w v : Work} (h : SameGrants w v) : Ungranted w.st v.st := fun _ => h

/-- A change of the state that reaches neither a fan nor the arbiter. -/
theorem grants_map (w : Work) {f : State → State} (h : (f w.st).fans = w.st.fans) (k : (f w.st).arb = w.st.arb) :
    SameGrants w (w.map f) := by
  refine ⟨?_, ?_, ?_, fun i => ?_⟩
  · change (f w.st).arb.history = _; rw [k]
  · change (f w.st).arb.spacing = _; rw [k]
  · change (f w.st).arb.lastGrant = _; rw [k]
  · change (vget (f w.st).fans i).startCount = _; rw [h]; rfl

theorem grants_setFan (w : Work) (j : Fin 8) (g : State → Fan) (h : (g w.st).startCount = (w.st.fan j).startCount) :
    SameGrants w (w.map fun s => s.setFan j (g s)) := by
  refine ⟨rfl, rfl, rfl, fun i => ?_⟩
  change ((w.st.setFan j (g w.st)).fan i).startCount = _
  rw [State.setFan_fan]
  split
  · subst_vars; exact h
  · rfl

theorem grants_setWaiting (w : Work) {g : State → Arbiter} (h : (g w.st).history = w.st.arb.history)
    (k : (g w.st).spacing = w.st.arb.spacing) (l : (g w.st).lastGrant = w.st.arb.lastGrant) :
    SameGrants w (w.map fun s => s.setArb (g s)) := ⟨h, k, l, fun _ => rfl⟩

theorem grants_notice (w : Work) (b : NoticeBody) : SameGrants w (w.notice b) := grants_map w rfl rfl

theorem grants_noticeAll (bs : List NoticeBody) (w : Work) : SameGrants w (w.noticeAll bs) := by
  induction bs generalizing w with
  | nil => exact .refl w
  | cons b bs ih => exact (grants_notice w b).trans (ih (w.notice b))

theorem grants_foldl {α : Type} (f : Work → α → Work) (h : ∀ w a, SameGrants w (f w a)) (xs : List α) (w : Work) :
    SameGrants w (xs.foldl f w) := by
  induction xs generalizing w with
  | nil => exact .refl w
  | cons x xs ih => exact (h w x).trans (ih (f w x))

theorem grants_forEachOpen {α : Type} (w : Work) (xs : List α) {f : Work → α → Work} (h : ∀ w a, SameGrants w (f w a)) :
    SameGrants w (w.forEachOpen xs f) :=
  (grants_map w (f := fun s => { s with choices := s.choices + drawsFor xs }) rfl rfl).trans (grants_foldl f h _ _)

theorem grants_post (w : Work) (h : Handover) : SameGrants w (w.post h) := ⟨rfl, rfl, rfl, fun _ => rfl⟩

theorem grants_handCondition (w : Work) (k : Fin 82) (was is : Bool) (now : Image) :
    SameGrants w (w.handCondition k was is now) := by
  unfold Work.handCondition
  split
  · exact .refl w
  · exact grants_post w _

theorem grants_moveFan (w : Work) (j : Fin 8) (f : Fan) (h : f.startCount = (w.st.fan j).startCount) :
    SameGrants w (w.moveFan j f) := by
  unfold Work.moveFan
  have put := grants_setFan w j (fun _ => f.remeasure (w.st.fan j) w.st.clock) h
  have noted : ∀ v, SameGrants w v → ∀ (p : Prop) [Decidable p] (b : NoticeBody),
      SameGrants w (if p then v else v.notice b) := by
    intro v h p _ b
    split
    · exact h
    · exact h.trans (grants_notice v b)
  dsimp only
  split
  · exact ((noted _ put _ _).trans (grants_handCondition _ _ _ _ _)).trans (grants_handCondition _ _ _ _ _)
  · exact (((noted _ put _ _).trans (grants_handCondition _ _ _ _ _)).trans (grants_handCondition _ _ _ _ _)).trans
      (grants_forEachOpen _ _ fun w z => grants_post w _)

theorem grants_stopOrCoast (w : Work) (j : Fin 8) : SameGrants w (w.stopOrCoast j) := by
  unfold Work.stopOrCoast
  split
  · exact grants_moveFan w j _ rfl
  · exact grants_setFan w j (fun s => { s.fan j with stopPending := true }) rfl

/-- While the spacing timer runs, a consideration grants nothing. -/
theorem consider_spaced {w : Work} (h : w.st.arb.spacing.isSome = true) : w.consider = w := by
  have none : w.st.grantChoice = none := by
    unfold State.grantChoice
    rw [if_neg]
    intro ⟨_, e⟩
    rw [e] at h; cases h
  unfold Work.consider
  rw [none]

theorem ungranted_consider (w : Work) : Ungranted w.st w.consider.st := by
  intro h
  rw [consider_spaced h]
  exact ⟨rfl, rfl, rfl, fun _ => rfl⟩

theorem ungranted_enterWaiting (w : Work) (j : Fin 8) : Ungranted w.st (w.enterWaiting j).st :=
  ((grants_moveFan w j { w.st.fan j with state := .waiting, coastTimer := none } rfl).trans
    (grants_setWaiting _ (g := fun s => { s.arb with waiting := vset s.arb.waiting j (some s.clock) }) rfl rfl rfl)).un.trans
    (ungranted_consider _)

theorem ungranted_testExercise (w : Work) (j : Fin 8) : Ungranted w.st (w.testExercise j).st := by
  unfold Work.testExercise
  split
  · exact (grants_setFan w j _ (by rfl)).un.trans (ungranted_enterWaiting _ j)
  · exact .refl _

theorem ungranted_enterIdle (w : Work) (j : Fin 8) : Ungranted w.st (w.enterIdle j).st :=
  (grants_moveFan w j { w.st.fan j with state := .idle, coastTimer := none, retryTimer := none } rfl).un.trans
    (ungranted_testExercise _ j)

theorem ungranted_addClaim (w : Work) (j : Fin 8) (src : Source) : Ungranted w.st (w.addClaim j src).st := by
  unfold Work.addClaim
  dsimp only
  split
  · exact .refl _
  · have added := grants_setFan w j (fun s => { s.fan j with claims := (s.fan j).claims.add src }) rfl
    have cleared : ∀ v : Work, SameGrants v (v.map fun s => s.setFan j { s.fan j with stopPending := false }) :=
      fun v => grants_setFan v j (fun s => { s.fan j with stopPending := false }) rfl
    split
    · exact added.un.trans (ungranted_enterWaiting _ j)
    · exact added.un.trans (ungranted_consider _)
    · exact (added.trans (cleared _)).un
    · exact (added.trans (cleared _)).un
    all_goals exact added.un

theorem ungranted_removeClaim (w : Work) (j : Fin 8) (src : Source) : Ungranted w.st (w.removeClaim j src).st := by
  unfold Work.removeClaim
  dsimp only
  split
  · exact .refl _
  · have removed := grants_setFan w j (fun s => (s.fan j).withoutClaim src) (by cases src <;> rfl)
    split
    · split
      · exact (removed.trans (grants_setWaiting _
            (g := fun s => { s.arb with waiting := vset s.arb.waiting j none }) rfl rfl rfl)).un.trans (ungranted_enterIdle _ j)
      · exact (removed.trans (grants_stopOrCoast _ j)).un
      · exact (removed.trans (grants_stopOrCoast _ j)).un
      all_goals exact removed.un
    · split
      · exact removed.un.trans (ungranted_consider _)
      all_goals exact removed.un

theorem ungranted_foldl {α : Type} (f : Work → α → Work) (h : ∀ w a, Ungranted w.st (f w a).st) (xs : List α) (w : Work) :
    Ungranted w.st (xs.foldl f w).st := by
  induction xs generalizing w with
  | nil => exact .refl _
  | cons x xs ih => exact (h w x).trans (ih (f w x))

theorem ungranted_forEachOpen {α : Type} (w : Work) (xs : List α) {f : Work → α → Work}
    (h : ∀ w a, Ungranted w.st (f w a).st) : Ungranted w.st (w.forEachOpen xs f).st :=
  (grants_map w (f := fun s => { s with choices := s.choices + drawsFor xs }) rfl rfl).un.trans (ungranted_foldl f h _ _)

theorem ungranted_allocate (w : Work) (z : Fin 6) : Ungranted w.st (w.allocate z).st := by
  have set : ∀ r : Zone, Ungranted w.st (w.map fun s => s.setZone z r).st :=
    fun r => (grants_map w (f := fun s => s.setZone z r) rfl rfl).un
  exact ((set _).trans (ungranted_foldl _ (fun v f => ungranted_removeClaim v f (.zone z)) _ _)).trans
    (ungranted_foldl _ (fun v f => ungranted_addClaim v f (.zone z)) _ _)

theorem grants_endEvaluation (w : Work) (z : Fin 6) (before : Zone) : SameGrants w (w.endEvaluation z before) := by
  unfold Work.endEvaluation
  dsimp only
  split
  · exact ⟨rfl, rfl, rfl, fun _ => rfl⟩
  · exact ⟨rfl, rfl, rfl, fun _ => rfl⟩

theorem ungranted_demandStep (w : Work) (z : Fin 6) (always : Bool) : Ungranted w.st (w.demandStep z always).st := by
  unfold Work.demandStep
  dsimp only
  split
  · exact (grants_map w (f := fun s => s.setZone z _) rfl rfl).un.trans (ungranted_allocate _ z)
  · exact (grants_map w (f := fun s => s.setZone z _) rfl rfl).un

theorem ungranted_evaluateSight (w : Work) (z : Fin 6) : Ungranted w.st (w.evaluateSight z).st :=
  ((grants_map w (f := fun s => s.setZone z (s.sense z)) rfl rfl).un.trans (ungranted_demandStep _ z false)).trans
    (grants_endEvaluation _ z _).un

theorem ungranted_evaluateDemand (w : Work) (z : Fin 6) (r : Zone) (always : Bool) :
    Ungranted w.st (w.evaluateDemand z r always).st :=
  ((grants_map w (f := fun s => s.setZone z r) rfl rfl).un.trans (ungranted_demandStep _ z always)).trans
    (grants_endEvaluation _ z _).un

theorem ungranted_evaluateAllocation (w : Work) (z : Fin 6) (r : Zone) :
    Ungranted w.st (w.evaluateAllocation z r).st :=
  ((grants_map w (f := fun s => s.setZone z r) rfl rfl).un.trans (ungranted_allocate _ z)).trans
    (grants_endEvaluation _ z _).un

theorem ungranted_ifActive (w : Work) (z : Fin 6) {f : Work → Work} (h : Ungranted w.st (f w).st) :
    Ungranted w.st (w.ifActive z f).st := by
  unfold Work.ifActive
  split
  · exact h
  · exact .refl _

theorem ungranted_takeCoupling (w : Work) (z : Fin 6) (active : Bool) : Ungranted w.st (w.takeCoupling z active).st := by
  unfold Work.takeCoupling
  dsimp only
  split
  · exact (grants_map w (f := fun s => s.setZone z _) rfl rfl).un
  · exact ungranted_evaluateDemand w z _ _

theorem ungranted_takeSpill (w : Work) (z : Fin 6) : Ungranted w.st (w.takeSpill z).st := by
  unfold Work.takeSpill
  dsimp only
  split
  · exact .refl _
  · exact ungranted_evaluateDemand w z _ _

theorem grants_alarmPass (w : Work) (changed : Bool) (notes : List NoticeBody) : SameGrants w (w.alarmPass changed notes) := by
  unfold Work.alarmPass
  have noted : ∀ (bs : List NoticeBody) (a : Alarm), SameGrants w ((w.map fun s => s.setAlarm a).noticeAll bs) :=
    fun bs a => (grants_map w (f := fun s => s.setAlarm a) rfl rfl).trans (grants_noticeAll bs _)
  have handed : ∀ (v : Work) (old new : Regime), SameGrants v (v.handRegime old new) := fun v _ _ =>
    ((grants_forEachOpen v _ fun w z => grants_post w _).trans (grants_post _ _)).trans (grants_post _ _)
  dsimp only
  split
  · exact noted _ _
  · exact (noted _ _).trans (handed _ _ _)

theorem grants_takeAlarm (w : Work) (a : Alarm) (changed : Bool) (notes : List NoticeBody) :
    SameGrants w ((w.map fun s => s.setAlarm a).alarmPass changed notes) :=
  (grants_map w (f := fun s => s.setAlarm a) rfl rfl).trans (grants_alarmPass _ _ _)

theorem ungranted_take (w : Work) (h : Handover) : Ungranted w.st (w.take h).st := by
  cases h with
  | condition k image => exact (grants_takeAlarm w _ _ _).un
  | paused z yes =>
    exact (grants_takeAlarm w { w.st.alarm with paused := vset w.st.alarm.paused z yes } false []).un
  | eqz active => exact (grants_takeAlarm w { w.st.alarm with eqz := active } false []).un
  | member z => exact ungranted_ifActive w z (f := fun w => w.evaluateSight z) (ungranted_evaluateSight w z)
  | coupling z active =>
    exact ungranted_ifActive w z (f := fun w => w.takeCoupling z active) (ungranted_takeCoupling w z active)
  | spill z => exact ungranted_ifActive w z (f := fun w => w.takeSpill z) (ungranted_takeSpill w z)
  | critical z =>
    exact ungranted_ifActive w z (f := fun w => w.evaluateDemand z (w.st.zone z) true) (ungranted_evaluateDemand w z _ true)
  | availability z =>
    exact ungranted_ifActive w z (f := fun w => w.evaluateAllocation z (w.st.zone z)) (ungranted_evaluateAllocation w z _)
  | toArbiter => exact ungranted_consider w
  | toFans fell =>
    change Ungranted w.st (w.takeRegimeAtFans fell).st
    unfold Work.takeRegimeAtFans
    split
    · exact ungranted_forEachOpen w _ fun w j => ungranted_testExercise w j
    · exact .refl _
  | completion c =>
    refine SameGrants.un (v := w.map fun s => s.buildTrace c) (grants_map w ?_ ?_)
    all_goals unfold State.buildTrace; split <;> rfl

theorem settle_ungranted (fuel : Nat) (w : Work) : Ungranted w.st (w.settle fuel).st := by
  induction fuel generalizing w with
  | zero => exact .refl _
  | succ fuel ih =>
    unfold Work.settle
    split
    · exact .refl _
    · rename_i h rest _
      exact (ungranted_take { w with out := rest } h).trans (ih ({ w with out := rest }.take h))

end Sys2Proof.Machine
end

