-- ==== Sys2Proof/Laws/Reach.lean ====
section
/-! SUPPORT. What reaches the zones in a cascade, said once: `settle_zones`; and with it what a step's whole cascade does,
`settle_settles`. -/

namespace Sys2Proof.Machine

/-! ## The relation -/

theorem ZonesKept.of_sense {u t : State} (h : ∀ z, SenseKept (u.zone z) (t.zone z)) : ZonesKept u t := fun z =>
  ⟨False.elim, fun _ => ⟨(h z).sight, (h z).voted, (h z).gas, (h z).holdTimer⟩, (h z).coupling, (h z).lingerTimer, False.elim,
   fun _ => (h z).spill⟩

theorem ZonesKept.refl (s : State) : ZonesKept s s := .of_sense fun _ => .refl _

theorem ZonesKept.sense {u t : State} (h : ZonesKept u t) (z : Fin 6) : SenseKept (u.zone z) (t.zone z) :=
  have ⟨a, b, c, d⟩ := (h z).unsensed id
  ⟨a, b, c, d, (h z).coupling, (h z).lingerTimer, (h z).unspilled id⟩

/-- Sensing nothing further leaves what was sensed. -/
theorem ZonesKept.then {u v t : State} {told spilt : Fin 6 → Prop} (a : ZonesKept u v told spilt)
    (h : ∀ z, SenseKept (v.zone z) (t.zone z)) : ZonesKept u t told spilt := fun z =>
  ⟨fun p => have ⟨x1, x2, x3, x4⟩ := (a z).sensed p
     ⟨(h z).sight.trans x1, (h z).voted.trans x2, (h z).gas.trans x3, (h z).holdTimer.trans x4⟩,
   fun p => have ⟨x1, x2, x3, x4⟩ := (a z).unsensed p
     ⟨(h z).sight.trans x1, (h z).voted.trans x2, (h z).gas.trans x3, (h z).holdTimer.trans x4⟩,
   (h z).coupling.trans (a z).coupling, (h z).lingerTimer.trans (a z).lingerTimer,
   fun p => by rw [(h z).spill]; exact (a z).spilled p, fun p => (h z).spill.trans ((a z).unspilled p)⟩

theorem ZonesKept.trans {s t u : State} (a : ZonesKept s t) (b : ZonesKept t u) : ZonesKept s u := a.then b.sense

theorem ZonesKept.congr {u t : State} {told spilt told' spilt' : Fin 6 → Prop} (a : ZonesKept u t told spilt)
    (h : ∀ z, told z ↔ told' z) (k : ∀ z, spilt z ↔ spilt' z) : ZonesKept u t told' spilt' := fun z => by
  rw [← h z |>.eq, ← k z |>.eq]; exact a z

/-! ## Sensing -/

theorem ZoneCfg.below_levelMet (c : ZoneCfg) (v : Nat) : c.below (c.levelMet v) v = false := by
  unfold ZoneCfg.below ZoneCfg.levelMet ZoneCfg.threshold
  split
  · simp; omega
  · split
    · simp; omega
    · split
      · simp; omega
      · simp

/-- Sensing again, with nothing of a zone's inputs changed since, changes neither the gas level nor the hold timer. -/
theorem Zone.settleGas_again (z y : Zone) (clock : Nat) (cfg : y.cfg = z.cfg) (voted : y.voted = z.voted)
    (gas : y.gas = (z.settleGas clock).gas) (hold : y.holdTimer = (z.settleGas clock).holdTimer) :
    (y.settleGas clock).gas = (z.settleGas clock).gas ∧ (y.settleGas clock).holdTimer = (z.settleGas clock).holdTimer := by
  cases hv : z.voted with
  | none => simp_all [Zone.settleGas]
  | some v =>
    by_cases lt : z.gas < z.cfg.levelMet v
    · have e : (z.settleGas clock).gas = z.cfg.levelMet v := by simp [Zone.settleGas, hv, lt]
      have f : (z.settleGas clock).holdTimer = none := by simp [Zone.settleGas, hv, lt]
      rw [e] at gas; rw [f] at hold
      rw [e, f]
      simp [Zone.settleGas, voted, hv, gas, cfg, ZoneCfg.below_levelMet]
    · by_cases zero : z.gas = 0
      · have e : (z.settleGas clock).gas = 0 := by simp [Zone.settleGas, hv, zero] at lt ⊢; simp [lt]
        have f : (z.settleGas clock).holdTimer = none := by simp [Zone.settleGas, hv, zero] at lt ⊢; simp [lt]
        rw [e] at gas; rw [f] at hold
        rw [e, f]
        rw [zero] at lt
        simp [Zone.settleGas, voted, hv, gas, cfg, lt]
      · have e : (z.settleGas clock).gas = z.gas := by simp [Zone.settleGas, hv, lt, zero]; split <;> rfl
        rw [e] at gas
        by_cases b : z.cfg.below z.gas v = true
        · have f : (z.settleGas clock).holdTimer =
              if z.holdTimer.isSome then z.holdTimer else startTimer clock (seconds z.cfg.hold) := by
            simp [Zone.settleGas, hv, lt, zero, b]
          rw [f] at hold
          rw [e, f]
          simp only [Zone.settleGas, voted, hv, gas, cfg, lt, zero, b, if_true, if_false, hold]
          refine ⟨trivial, ?_⟩
          split <;> simp_all
        · have f : (z.settleGas clock).holdTimer = none := by simp [Zone.settleGas, hv, lt, zero, b]
          rw [e, f]
          simp [Zone.settleGas, voted, hv, gas, cfg, lt, zero, b]

theorem Zone.settleGas_congr {x y : Zone} (a : x.cfg = y.cfg) (b : x.voted = y.voted) (c : x.gas = y.gas)
    (d : x.holdTimer = y.holdTimer) (n : Nat) :
    (x.settleGas n).gas = (y.settleGas n).gas ∧ (x.settleGas n).holdTimer = (y.settleGas n).holdTimer := by
  unfold Zone.settleGas
  rw [a, b, c, d]
  cases y.voted with
  | none => simp
  | some v => dsimp only; split_ifs <;> simp

/-- The record that sensing settles: the present one with the sight and the voted reading that the members give. -/
def State.sightOn (s : State) (z : Fin 6) : Zone :=
  { s.zone z with
    sight := some (sightOf (s.zone z).cfg.vote (s.healthyReadings z) ((s.members z).any fun i => (s.chan i).failed))
    voted := votedOf (s.zone z).cfg.vote (s.healthyReadings z) }

theorem State.sense_eq (s : State) (z : Fin 6) : s.sense z = (s.sightOn z).settleGas s.time.clock := rfl

theorem Zone.settleGas_coupling (z : Zone) (clock : Nat) : (z.settleGas clock).coupling = z.coupling ∧
    (z.settleGas clock).lingerTimer = z.lingerTimer ∧ (z.settleGas clock).spill = z.spill := by
  unfold Zone.settleGas
  split
  · exact ⟨rfl, rfl, rfl⟩
  · split
    · exact ⟨rfl, rfl, rfl⟩
    · split
      · exact ⟨rfl, rfl, rfl⟩
      · split <;> exact ⟨rfl, rfl, rfl⟩

/-- What sensing gives, it gives again while nothing of the zone's inputs but its own gas level and hold timer has changed, and these only
to what sensing gave. -/
theorem State.sense_again {u v : State} (k : CascadeKeeps u v) (z : Fin 6)
    (h : ((v.zone z).gas = (u.zone z).gas ∧ (v.zone z).holdTimer = (u.zone z).holdTimer) ∨
      ((v.zone z).gas = (u.sense z).gas ∧ (v.zone z).holdTimer = (u.sense z).holdTimer)) :
    (v.sense z).sight = (u.sense z).sight ∧ (v.sense z).voted = (u.sense z).voted ∧ (v.sense z).gas = (u.sense z).gas ∧
    (v.sense z).holdTimer = (u.sense z).holdTimer := by
  have chan : ∀ i, v.chan i = u.chan i := fun i => by unfold State.chan; rw [k.chans]
  have members : v.members z = u.members z := by unfold State.members; simp only [chan]
  have readings : v.healthyReadings z = u.healthyReadings z := by unfold State.healthyReadings; simp only [chan, members]
  have cfg : (v.zone z).cfg = (u.zone z).cfg := (k.zones z).cfg
  have sight : (v.sense z).sight = (u.sense z).sight := by
    rw [State.sense_sight, State.sense_sight]; simp only [chan, members, readings, cfg]
  have voted : (v.sense z).voted = (u.sense z).voted := by
    rw [State.sense_voted, State.sense_voted]; simp only [readings, cfg]
  have votedOn : (v.sightOn z).voted = (u.sightOn z).voted := by
    change votedOf _ _ = votedOf _ _; simp only [readings, cfg]
  refine ⟨sight, voted, ?_⟩
  rcases h with ⟨g, t⟩ | ⟨g, t⟩
  · rw [State.sense_eq, State.sense_eq, k.time]
    exact Zone.settleGas_congr (x := v.sightOn z) (y := u.sightOn z) cfg votedOn g t _
  · rw [State.sense_eq] at g t
    rw [State.sense_eq v, State.sense_eq u, k.time]
    exact Zone.settleGas_again (u.sightOn z) (v.sightOn z) _ cfg votedOn g t

theorem ZonesKept.seq {u v t : State} {told told' spilt spilt' : Fin 6 → Prop} (k : CascadeKeeps u v)
    (a : ZonesKept u v told spilt) (b : ZonesKept v t told' spilt') :
    ZonesKept u t (fun z => told z ∨ told' z) (fun z => spilt z ∨ spilt' z) := fun z => by
  have spillIn : SpillIn v z ↔ SpillIn u z := by unfold SpillIn State.probe; rw [k.probes]
  refine ⟨fun p => ?_, fun p => ?_, (b z).coupling.trans (a z).coupling, (b z).lingerTimer.trans (a z).lingerTimer, fun p => ?_,
    fun p => ((b z).unspilled fun q => p (.inr q)).trans ((a z).unspilled fun q => p (.inl q))⟩
  · by_cases q : told' z
    · have ⟨x1, x2, x3, x4⟩ := (b z).sensed q
      have ⟨y1, y2, y3, y4⟩ := State.sense_again k z (by
        by_cases r : told z
        · exact .inr ((a z).sensed r).2.2
        · exact .inl ((a z).unsensed r).2.2)
      exact ⟨x1.trans y1, x2.trans y2, x3.trans y3, x4.trans y4⟩
    · have ⟨x1, x2, x3, x4⟩ := (b z).unsensed q
      have ⟨y1, y2, y3, y4⟩ := (a z).sensed (p.resolve_right q)
      exact ⟨x1.trans y1, x2.trans y2, x3.trans y3, x4.trans y4⟩
  · have ⟨x1, x2, x3, x4⟩ := (b z).unsensed fun q => p (.inr q)
    have ⟨y1, y2, y3, y4⟩ := (a z).unsensed fun q => p (.inl q)
    exact ⟨x1.trans y1, x2.trans y2, x3.trans y3, x4.trans y4⟩
  · by_cases q : spilt' z
    · exact ((b z).spilled q).trans spillIn
    · rw [(b z).unspilled q]; exact (a z).spilled (p.resolve_right q)

/-! ## Taking a hand-over -/

/-- A hand-over of EQZ to a zone, which alone changes a coupling or starts a linger timer. -/
def Handover.couples : Handover → Bool
  | .coupling _ _ => true
  | .condition _ _ => false
  | .paused _ _ => false
  | .critical _ => false
  | .availability _ => false
  | .toArbiter => false
  | .toFans _ => false
  | .eqz _ => false
  | .member _ => false
  | .spill _ => false
  | .completion _ => false

/-- What one taken hand-over does to the zones, where it is none of EQZ's: a member's makes its active zone sense anew, a probe's takes its
spill anew, any other leaves the zones alone; it leads to quiet ones only. -/
theorem take_zones (w : Work) {h : Handover} (c : h.couples = false) :
    ZonesKept w.st (w.take h).st (fun z => h = .member z ∧ (w.st.zone z).active = true)
      (fun z => h = .spill z ∧ (w.st.zone z).active = true) ∧
    ∃ new, (w.take h).out = w.out ++ new ∧ ∀ x ∈ new, x.quiet = true := by
  have quiet : ∀ {v : Work}, Calm w v → (∀ z, h ≠ .member z) → (∀ z, h ≠ .spill z) →
      ZonesKept w.st v.st (fun z => h = .member z ∧ (w.st.zone z).active = true)
        (fun z => h = .spill z ∧ (w.st.zone z).active = true) ∧ ∃ new, v.out = w.out ++ new ∧ ∀ x ∈ new, x.quiet = true :=
    fun k a b => ⟨(ZonesKept.of_sense k.sense).congr (fun z => by simp [a z]) (fun z => by simp [b z]), k.out⟩
  cases h with
  | condition k image => exact quiet (calm_take w (h := .condition k image) rfl) (by simp) (by simp)
  | paused z yes => exact quiet (calm_take w (h := .paused z yes) rfl) (by simp) (by simp)
  | critical z => exact quiet (calm_take w (h := .critical z) rfl) (by simp) (by simp)
  | availability z => exact quiet (calm_take w (h := .availability z) rfl) (by simp) (by simp)
  | toArbiter => exact quiet (calm_take w (h := .toArbiter) rfl) (by simp) (by simp)
  | toFans fell => exact quiet (calm_take w (h := .toFans fell) rfl) (by simp) (by simp)
  | coupling z active => simp [Handover.couples] at c
  | eqz active =>
    have k := calm_alarmPass (w.map fun s => s.setAlarm { s.alarm with eqz := active }) false []
    have e : ZonesKept w.st (w.takeEqz active).st := .of_sense k.sense
    exact ⟨e.congr (fun z => by simp) (fun z => by simp), k.out⟩
  | completion i =>
    have e : (w.st.buildTrace i).zones = w.st.zones := by unfold State.buildTrace; split <;> rfl
    have kept : ZonesKept w.st (w.st.buildTrace i) := .of_sense fun z => by unfold State.zone; rw [e]; exact .refl _
    exact ⟨kept.congr (fun z => by simp) (fun z => by simp), [], by simp [Work.take], by simp⟩
  | member z =>
    by_cases active : (w.st.zone z).active = true
    · have e : w.take (.member z) = w.evaluateSight z := by simp [Work.take, Work.ifActive, active]
      rw [e]
      have k := (calm_demandStep (w.map fun s => s.setZone z (s.sense z)) z false).trans (calm_endEvaluation _ z (w.st.zone z))
      refine ⟨fun y => ?_, k.out⟩
      have s := k.sense y
      rw [Work.map_st, State.setZone_zone] at s
      have d := Zone.settleGas_coupling (w.st.sightOn z) w.st.time.clock
      rw [← State.sense_eq] at d
      by_cases q : z = y
      · subst q
        rw [if_pos rfl] at s
        exact ⟨fun _ => ⟨s.sight, s.voted, s.gas, s.holdTimer⟩, fun p => absurd ⟨rfl, active⟩ p, s.coupling.trans d.1,
          s.lingerTimer.trans d.2.1, by simp, fun _ => s.spill.trans d.2.2⟩
      · rw [if_neg q] at s
        exact ⟨fun p => absurd (by simpa using p.1) q, fun _ => ⟨s.sight, s.voted, s.gas, s.holdTimer⟩, s.coupling,
          s.lingerTimer, by simp, fun _ => s.spill⟩
    · have e : w.take (.member z) = w := by simp [Work.take, Work.ifActive, active]
      rw [e]
      exact ⟨(ZonesKept.refl _).congr (fun y => by simp; rintro rfl; simpa using active) (fun y => by simp), [], by simp, by simp⟩
  | spill z =>
    by_cases active : (w.st.zone z).active = true
    · have e : w.take (.spill z) = w.takeSpill z := by simp [Work.take, Work.ifActive, active]
      rw [e]
      unfold Work.takeSpill
      dsimp only
      split
      · rename_i same
        refine ⟨fun y => ⟨by simp, fun _ => ⟨rfl, rfl, rfl, rfl⟩, rfl, rfl, fun p => ?_, fun _ => rfl⟩, [], by simp, by simp⟩
        have q : z = y := by simpa using p.1
        subst q
        rw [← same]; exact State.spillIn_iff _ _
      · have k := (calm_demandStep (w.map fun s => s.setZone z { w.st.zone z with spill := w.st.spillIn z }) z false).trans
          (calm_endEvaluation _ z (w.st.zone z))
        refine ⟨fun y => ?_, k.out⟩
        have s := k.sense y
        rw [Work.map_st, State.setZone_zone] at s
        by_cases q : z = y
        · subst q
          rw [if_pos rfl] at s
          refine ⟨by simp, fun _ => ⟨s.sight, s.voted, s.gas, s.holdTimer⟩, s.coupling, s.lingerTimer, 
            fun _ => (iff_of_eq (congrArg (· = true) s.spill)).trans (State.spillIn_iff _ _), fun p => absurd ⟨rfl, active⟩ p⟩
        · rw [if_neg q] at s
          exact ⟨by simp, fun _ => ⟨s.sight, s.voted, s.gas, s.holdTimer⟩, s.coupling, s.lingerTimer,
            fun p => absurd (by simpa using p.1) q, fun _ => s.spill⟩
    · have e : w.take (.spill z) = w := by simp [Work.take, Work.ifActive, active]
      rw [e]
      exact ⟨(ZonesKept.refl _).congr (fun y => by simp) (fun y => by simp; rintro rfl; simpa using active), [], by simp, by simp⟩

/-! ## A cascade -/

/-- A cascade that EQZ feeds no zone: what a member or a probe has told an active zone, the zone has taken; of the rest of what a zone has
sensed it changes nothing. -/
theorem settle_zones (told : List Handover) (fuel : Nat) (enough : told.length ≤ fuel) (w : Work) (more : List Handover)
    (out : w.out = told ++ more) (quiet : ∀ h ∈ more, h.quiet = true) (uncoupled : ∀ h ∈ told, h.couples = false) :
    ZonesKept w.st (w.settle fuel).st (fun z => .member z ∈ told ∧ (w.st.zone z).active = true)
      (fun z => .spill z ∈ told ∧ (w.st.zone z).active = true) := by
  induction told generalizing fuel w more with
  | nil =>
    exact (ZonesKept.of_sense (settle_calm fuel w (by simpa [out] using quiet)).2.1).congr (fun z => by simp) (fun z => by simp)
  | cons h told ih =>
    obtain ⟨fuel, rfl⟩ : ∃ n, fuel = n + 1 := ⟨fuel - 1, by simp at enough; omega⟩
    have e : w.settle (fuel + 1) = ({ w with out := told ++ more }.take h).settle fuel := by
      rw [Work.settle, out]; rfl
    rw [e]
    obtain ⟨first, new, ho, hq⟩ := take_zones { w with out := told ++ more } (uncoupled h (by simp))
    have keeps : CascadeKeeps w.st _ := take_keeps { w with out := told ++ more } h
    have rest := ih fuel (by simpa using enough) _ (more ++ new) (by rw [ho]; simp)
      (fun x hx => (List.mem_append.1 hx).elim (quiet x) (hq x)) (fun x hx => uncoupled x (List.mem_cons_of_mem _ hx))
    refine (first.seq keeps rest).congr (fun z => ?_) (fun z => ?_)
    all_goals
      rw [(keeps.zones z).active, List.mem_cons]
      constructor
      · rintro (⟨a, b⟩ | ⟨a, b⟩)
        · exact ⟨.inl a.symm, b⟩
        · exact ⟨.inr a, b⟩
      · rintro ⟨a | a, b⟩
        · exact .inl ⟨a.symm, b⟩
        · exact .inr ⟨a, b⟩

/-! ## A step's cascade, all at once -/

theorem Settles.refl (s : State) : Settles s s := ⟨.refl s, .refl s, .refl s, .refl s⟩

theorem Settles.trans {s t u : State} (a : Settles s t) (b : Settles t u) : Settles s u :=
  ⟨a.keeps.trans b.keeps, fun i => (a.rests i).trans (b.rests i), a.ungranted.trans b.ungranted, a.zones.trans b.zones⟩

/-- What work hands over, where EQZ feeds no zone, it leads to. -/
theorem settle_settles {fuel : Nat} {w : Work} (enough : w.out.length ≤ fuel) (uncoupled : ∀ h ∈ w.out, h.couples = false) :
    Settles w.st (w.settle fuel).st (fun z => .member z ∈ w.out ∧ (w.st.zone z).active = true)
      (fun z => .spill z ∈ w.out ∧ (w.st.zone z).active = true) :=
  ⟨settle_keeps fuel w, settle_rests fuel w, settle_ungranted fuel w,
    settle_zones w.out fuel enough w [] (by simp) (by simp) uncoupled⟩

/-- What work hands over, where neither a channel nor EQZ nor a probe feeds it, leads on and reaches no zone's sensing. -/
theorem settle_settles_quiet (fuel : Nat) {w : Work} (quiet : ∀ h ∈ w.out, h.quiet = true) : Settles w.st (w.settle fuel).st :=
  ⟨settle_keeps fuel w, settle_rests fuel w, settle_ungranted fuel w, .of_sense (settle_calm fuel w quiet).2.1⟩

/-- A command whose work leaves `u` leads to `u`, and tells the active zones that its hand-overs name. -/
theorem leads_does {c : Instr} {s u : State} {f : Work → Work} {told spilt : Fin 6 → Prop} (h : exec c s = .next (s.does f))
    (e : (f s.begin).st = u) (enough : (f s.begin).out.length ≤ settleLimit)
    (uncoupled : ∀ x ∈ (f s.begin).out, x.couples = false)
    (t : ∀ z, (.member z ∈ (f s.begin).out ∧ (u.zone z).active = true) ↔ told z)
    (p : ∀ z, (.spill z ∈ (f s.begin).out ∧ (u.zone z).active = true) ↔ spilt z) : Leads c s u told spilt := by
  subst e
  have k := settle_settles enough uncoupled
  exact ⟨_, h, k.keeps, k.rests, k.ungranted, k.zones.congr t p⟩

/-- A command whose work leaves `u`, and hands over nothing of a channel, of EQZ or of a probe, leads to `u`. -/
theorem leads_does_quiet {c : Instr} {s u : State} {f : Work → Work} (h : exec c s = .next (s.does f))
    (e : (f s.begin).st = u) (quiet : ∀ x ∈ (f s.begin).out, x.quiet = true) : Leads c s u :=
  ⟨_, h, e ▸ settle_settles_quiet _ quiet⟩

theorem consider_settles (w : Work) : Settles w.st w.consider.st :=
  ⟨(calm_consider w).keeps, fun i => rests_consider i w, ungranted_consider w, .of_sense (calm_consider w).sense⟩

theorem testExercise_settles (w : Work) (i : Fin 8) : Settles w.st (w.testExercise i).st :=
  ⟨(calm_testExercise w i).keeps, fun j => rests_testExercise j w i, ungranted_testExercise w i,
   .of_sense (calm_testExercise w i).sense⟩

end Sys2Proof.Machine
end

