-- ==== Sys2Proof/Laws/Steps.lean ====
section
/-! SUPPORT. What the shared operations that begin a step's own work leave, each said once, and what a taken request answers. -/

namespace Sys2Proof.Machine

/-! ## Tables and numbers -/

@[simp] theorem vset_vset {α : Type} {n : Nat} (v : Vector α n) (i : Fin n) (x y : α) : vset (vset v i x) i y = vset v i y := by
  apply vec_ext
  intro j
  rw [vget_vset, vget_vset, vget_vset]
  split <;> rfl

@[simp] theorem setChan_setChan (s : State) (i : Fin 16) (c d : Channel) : (s.setChan i c).setChan i d = s.setChan i d := by
  unfold State.setChan; simp

@[simp] theorem setFan_setFan (s : State) (i : Fin 8) (f g : Fan) : (s.setFan i f).setFan i g = s.setFan i g := by
  unfold State.setFan; simp

@[simp] theorem setZone_setZone (s : State) (z : Fin 6) (r q : Zone) : (s.setZone z r).setZone z q = s.setZone z q := by
  unfold State.setZone; simp

@[simp] theorem setFan_self (s : State) (i : Fin 8) : s.setFan i (s.fan i) = s := by
  unfold State.setFan State.fan; simp

@[simp] theorem setChan_self (s : State) (i : Fin 16) : s.setChan i (s.chan i) = s := by
  unfold State.setChan State.chan; simp

theorem readIndex_indexByte {n : Nat} (h : n ≤ 256) (i : Fin n) : readIndex n (indexByte i) = some i := by
  have e : (indexByte i).toNat = i.val := by simp [indexByte]; omega
  unfold readIndex
  rw [dif_pos (by rw [e]; exact i.isLt)]
  simp [e]

theorem readIndex_none {n : Nat} {b : Byte} (h : n ≤ b.toNat) : readIndex n b = none := by
  unfold readIndex; rw [dif_neg]; omega

/-- Every order of takers holds each of them once. -/
theorem permute_perm {α : Type} (places : List Nat) (xs : List α) : (permute places xs).Perm xs := by
  induction xs generalizing places with
  | nil => exact .refl _
  | cons x xs ih =>
    unfold permute insertPlace
    refine .trans ?_ (.cons x (ih places.tail))
    refine .trans List.perm_middle ?_
    rw [List.take_append_drop]

theorem inOpenOrder_perm {α : Type} (draws : Nat) (xs : List α) : (inOpenOrder draws xs).Perm xs := by
  unfold inOpenOrder
  split
  · exact .refl _
  · exact .refl _
  · exact permute_perm _ _

/-! ## Taken requests -/

/-- A request that is accepted. -/
theorem accepted_of {c : Instr} {kind kind' tag : Byte} {act : State → Answer} {s t : State} {m : Byte} {body : List Byte}
    (e : exec c s = goOn (takeRequest kind tag act s)) (free : s.link.outstanding = none) (st : (act s).st = t)
    (k : kind + 0x80 = kind') (ok : (act s).status = .ok) (mk : (act s).marks.code = m) (b : (act s).body = body) :
    Accepted c s t kind' tag m body := by
  subst st k mk b
  unfold Accepted
  rw [e, takeRequest_taken free]
  simp [goOn, Answer.reply, ok, Status.code]

/-- A request that is refused. -/
theorem declined_of {c : Instr} {kind kind' tag : Byte} {act : State → Answer} {s : State} {status : Status} {body : List Byte}
    (e : exec c s = goOn (takeRequest kind tag act s)) (free : s.link.outstanding = none) (k : kind + 0x80 = kind')
    (r : act s = refuse s status body) : Declined c s kind' tag status.code body := by
  subst k
  unfold Declined
  rw [e, takeRequest_taken free, r]
  rfl

/-! ## Channels and probes -/

theorem noticeAll_st (bs : List NoticeBody) (w : Work) : (w.noticeAll bs).st = bs.foldl State.notice w.st := by
  induction bs generalizing w with
  | nil => rfl
  | cons b bs ih => exact ih (w.notice b)

@[simp] theorem putChannel_st (w : Work) (i : Fin 16) (c : Channel) : (w.putChannel i c).st = w.st.setChan i c := by
  unfold Work.putChannel
  dsimp only
  split <;> rfl

/-- A channel's change of record where its state, or its cause, changes. -/
theorem moveChannel_changed {w : Work} {i : Fin 16} {c : Channel} (h : (w.st.chan i).state ≠ c.state) :
    (w.moveChannel i c).st = (w.st.setChan i c).notice (.channelChange i c.state) := by
  unfold Work.moveChannel
  dsimp only
  rw [if_neg h]
  split
  · change State.notice _ _ = _; rw [putChannel_st]
  · change State.notice _ _ = _; rw [putChannel_st]

/-- A channel's change of record within its state. -/
theorem moveChannel_same {w : Work} {i : Fin 16} {c : Channel} (h : (w.st.chan i).state = c.state) :
    w.moveChannel i c = w.putChannel i c := by
  unfold Work.moveChannel
  dsimp only
  rw [if_pos h]

@[simp] theorem tellZone_st (w : Work) (i : Fin 16) : (w.tellZone i).st = w.st := by
  unfold Work.tellZone; split <;> rfl

@[simp] theorem moveProbe_st (w : Work) (p : Fin 8) (r : Probe) : (w.moveProbe p r).st = w.st.setProbe p r := rfl

/-! ## Fans -/

theorem settles_choices (s : State) (n : Nat) : Settles s { s with choices := n } :=
  ⟨⟨rfl, rfl, rfl, rfl, rfl, rfl, rfl, rfl, rfl, rfl, rfl, rfl, rfl, rfl, rfl, rfl, rfl, rfl, fun _ => .refl _, fun _ => .refl _,
    .refl _⟩, fun i => FanRests.refl s i, Ungranted.refl s, .of_sense fun _ => .refl _⟩

theorem foldl_post_st {α : Type} (f : α → Handover) (xs : List α) (w : Work) : (xs.foldl (fun w x => w.post (f x)) w).st = w.st := by
  induction xs generalizing w with
  | nil => rfl
  | cons x xs ih => exact ih (w.post (f x))

/-- Hand-overs in an open order change nothing but the count of orders drawn. -/
theorem forEachOpen_post_settles {α : Type} (w : Work) (xs : List α) (f : α → Handover) :
    Settles w.st (w.forEachOpen xs fun w x => w.post (f x)).st := by
  unfold Work.forEachOpen
  rw [foldl_post_st]
  exact settles_choices _ _

theorem handCondition_st (w : Work) (k : Fin 82) (was is : Bool) (now : Image) : (w.handCondition k was is now).st = w.st := by
  unfold Work.handCondition; split <;> rfl

/-- A fan's change of record: its notice is queued where its state changes, and the rest is hand-overs. -/
theorem moveFan_settles (w : Work) (i : Fin 8) (f : Fan) :
    Settles (if f.state = (w.st.fan i).state then w.st.setFan i (f.remeasure (w.st.fan i) w.st.clock)
      else (w.st.setFan i (f.remeasure (w.st.fan i) w.st.clock)).notice (.fanChange i f.state f.reportedDetail))
      (w.moveFan i f).st := by
  unfold Work.moveFan
  dsimp only
  by_cases e : f.state = (w.st.fan i).state
  · have e' : (f.remeasure (w.st.fan i) w.st.clock).state = (w.st.fan i).state := e
    rw [if_pos e, if_pos e']
    split
    · rw [handCondition_st, handCondition_st]; exact .refl _
    · refine .trans ?_ (forEachOpen_post_settles _ _ _)
      rw [handCondition_st, handCondition_st]; exact .refl _
  · have e' : ¬(f.remeasure (w.st.fan i) w.st.clock).state = (w.st.fan i).state := e
    rw [if_neg e, if_neg e']
    split
    · rw [handCondition_st, handCondition_st]; exact .refl _
    · refine .trans ?_ (forEachOpen_post_settles _ _ _)
      rw [handCondition_st, handCondition_st]; exact .refl _

/-- A fan's change of record where its availability and its conditions stay: nothing is handed over. -/
theorem moveFan_quiet (w : Work) (i : Fin 8) (f : Fan)
    (a : (w.st.fan i).available w.st.alarm.regime = (f.remeasure (w.st.fan i) w.st.clock).available w.st.alarm.regime)
    (b : (w.st.fan i).failed = f.failed) (c : (w.st.fan i).flowNote = f.flowNote) :
    w.moveFan i f = { w with st :=
      if f.state = (w.st.fan i).state then w.st.setFan i (f.remeasure (w.st.fan i) w.st.clock)
      else (w.st.setFan i (f.remeasure (w.st.fan i) w.st.clock)).notice (.fanChange i f.state f.reportedDetail) } := by
  have b' : (w.st.fan i).failed = (f.remeasure (w.st.fan i) w.st.clock).failed := b
  have c' : (w.st.fan i).flowNote = (f.remeasure (w.st.fan i) w.st.clock).flowNote := c
  unfold Work.moveFan Work.handCondition
  dsimp only
  rw [if_pos a, if_pos c', if_pos b']
  by_cases e : f.state = (w.st.fan i).state
  · have e' : (f.remeasure (w.st.fan i) w.st.clock).state = (w.st.fan i).state := e
    rw [if_pos e, if_pos e']; rfl
  · have e' : ¬(f.remeasure (w.st.fan i) w.st.clock).state = (w.st.fan i).state := e
    rw [if_neg e, if_neg e']; rfl

end Sys2Proof.Machine
end

