-- ==== Sys2Proof/Laws/Ends.lean ====
section
/-! SUPPORT. Every cascade ends: each hand-over has a weight, which pays for all that it leads to, so that `settleLimit` takes them
all wherever the step's own work has made hand-overs of a weight up to 3848 (`settle_done`, `finish_done`). -/

namespace Sys2Proof.Machine

/-! ## Weights -/

/-- What a hand-over can lead to, itself included: a change of the regime, an evaluation, or nothing. -/
def Handover.weight : Handover → Nat
  | .condition k _ => if classOf k ∈ [.gas, .blind, .spill] then 121 else 1
  | .eqz _ => 121
  | .member _ => 245
  | .coupling _ _ => 2
  | .spill _ => 2
  | .critical _ => 2
  | .availability _ => 2
  | .paused _ _ => 1
  | .toArbiter => 1
  | .toFans _ => 1
  | .completion _ => 1

/-- What an ORDINARY fan can still hand over while the regime is CRITICAL: that it is unavailable, to six zones. -/
def Fan.exposed (f : Fan) (regime : Regime) : Nat :=
  if regime = .critical ∧ f.cfg.rating = .ordinary ∧ f.available regime = true then 12 else 0

/-- What a state can still hand over by itself: the exposed fans, one grant while no spacing runs, a regime that is to change. -/
def State.credit (s : State) : Nat :=
  (∑ i, (s.fan i).exposed s.alarm.regime) + (if s.arb.spacing = none then 32 else 0)
    + (if s.alarm.regime = regimeOf s.alarm then 0 else 120)

/-- All that a cascade can still take. -/
def Work.weight (w : Work) : Nat := (w.out.map Handover.weight).sum + w.st.credit

theorem Fan.exposed_le (f : Fan) (regime : Regime) : f.exposed regime ≤ 12 := by unfold Fan.exposed; split <;> omega

theorem exposed_sum_le (s : State) (regime : Regime) : ∑ i, (s.fan i).exposed regime ≤ 96 :=
  (Finset.sum_le_card_nsmul _ _ 12 fun i _ => (s.fan i).exposed_le regime).trans (by simp)

theorem State.credit_le (s : State) : s.credit ≤ 248 := by
  have := exposed_sum_le s s.alarm.regime
  unfold State.credit
  split <;> split <;> omega

/-- Work that makes hand-overs of no more weight than it takes from the state, but for `n`. -/
structure Pays (w v : Work) (n : Nat) : Prop where
  alarm : v.st.alarm = w.st.alarm
  weight : v.weight ≤ w.weight + n

theorem Pays.refl (w : Work) : Pays w w 0 := ⟨rfl, Nat.le_refl _⟩

theorem Pays.trans {u v w : Work} {m n : Nat} (a : Pays u v m) (b : Pays v w n) : Pays u w (m + n) :=
  ⟨b.alarm.trans a.alarm, by have := a.weight; have := b.weight; omega⟩

theorem Pays.le {w v : Work} {m n : Nat} (a : Pays w v m) (h : m ≤ n) : Pays w v n := ⟨a.alarm, by have := a.weight; omega⟩

/-- A change of the state that reaches neither a fan, nor the arbiter, nor the alarm unit. -/
theorem pays_map (w : Work) {f : State → State} (a : (f w.st).fans = w.st.fans) (b : (f w.st).arb = w.st.arb)
    (c : (f w.st).alarm = w.st.alarm) : Pays w (w.map f) 0 := by
  refine ⟨c, ?_⟩
  have fans : ∀ i, (f w.st).fan i = w.st.fan i := fun i => by unfold State.fan; rw [a]
  have : (w.map f).st.credit = w.st.credit := by
    change (f w.st).credit = _
    unfold State.credit
    rw [b, c]
    simp only [fans]
  unfold Work.weight
  rw [this]
  exact Nat.le_refl _

theorem pays_notice (w : Work) (b : NoticeBody) : Pays w (w.notice b) 0 := pays_map w rfl rfl rfl

theorem pays_noticeAll (bs : List NoticeBody) (w : Work) : Pays w (w.noticeAll bs) 0 := by
  induction bs generalizing w with
  | nil => exact .refl w
  | cons b bs ih => exact (pays_notice w b).trans (ih (w.notice b))

theorem pays_post (w : Work) (h : Handover) : Pays w (w.post h) h.weight := by
  refine ⟨rfl, ?_⟩
  unfold Work.weight Work.post
  simp; omega

theorem pays_postAll (w : Work) (hs : List Handover) : Pays w (w.postAll hs) (hs.map Handover.weight).sum := by
  refine ⟨rfl, ?_⟩
  unfold Work.weight Work.postAll
  simp; omega

theorem pays_foldl {α : Type} {f : Work → α → Work} {n : Nat} (h : ∀ w a, Pays w (f w a) n) (xs : List α) (w : Work) :
    Pays w (xs.foldl f w) (n * xs.length) := by
  induction xs generalizing w with
  | nil => exact .refl w
  | cons x xs ih => exact ((h w x).trans (ih (f w x))).le (by rw [List.length_cons, Nat.mul_succ]; omega)

theorem pays_forEachOpen {α : Type} {f : Work → α → Work} {n : Nat} (w : Work) (xs : List α) (h : ∀ w a, Pays w (f w a) n) :
    Pays w (w.forEachOpen xs f) (n * xs.length) := by
  rw [← (inOpenOrder_perm w.st.choices xs).length_eq]
  exact ((pays_map w (f := fun s => { s with choices := s.choices + drawsFor xs }) rfl rfl rfl).trans
    (pays_foldl h _ _)).le (by omega)

/-! ## Fans and the start arbiter -/

theorem credit_setFan (s : State) (i : Fin 8) (f : Fan) :
    (s.setFan i f).credit + (s.fan i).exposed s.alarm.regime = s.credit + f.exposed s.alarm.regime := by
  have a := Finset.add_sum_erase Finset.univ (fun j => (s.fan j).exposed s.alarm.regime) (Finset.mem_univ i)
  have b := Finset.add_sum_erase Finset.univ (fun j => ((s.setFan i f).fan j).exposed s.alarm.regime) (Finset.mem_univ i)
  have c : ∑ j ∈ Finset.univ.erase i, ((s.setFan i f).fan j).exposed s.alarm.regime
      = ∑ j ∈ Finset.univ.erase i, (s.fan j).exposed s.alarm.regime :=
    Finset.sum_congr rfl fun j hj => by rw [State.setFan_fan, if_neg (Finset.ne_of_mem_erase hj).symm]
  rw [State.setFan_fan_same] at b
  unfold State.credit
  rw [State.setFan_alarm, State.setFan_arb]
  omega

theorem pays_setFan (w : Work) (i : Fin 8) {g : State → Fan} {n : Nat}
    (h : (g w.st).exposed w.st.alarm.regime ≤ (w.st.fan i).exposed w.st.alarm.regime + n) :
    Pays w (w.map fun s => s.setFan i (g s)) n := by
  refine ⟨rfl, ?_⟩
  have := credit_setFan w.st i (g w.st)
  change (w.out.map Handover.weight).sum + (w.st.setFan i (g w.st)).credit ≤ (w.out.map Handover.weight).sum + w.st.credit + n
  omega

theorem pays_handCondition (w : Work) {k : Fin 82} (hk : classOf k ∉ [.gas, .blind, .spill]) (was is : Bool) (now : Image) :
    Pays w (w.handCondition k was is now) (if was = is then 0 else 1) := by
  unfold Work.handCondition
  split
  · exact .refl w
  · refine (pays_post w _).le ?_
    simp [Handover.weight, hk]

theorem classOf_keyFanFail (i : Fin 8) : classOf (keyFanFail i) = .fanFail := by revert i; decide
theorem classOf_keyFlowNote (i : Fin 8) : classOf (keyFlowNote i) = .flowNote := by revert i; decide
theorem classOf_keyGas (z : Fin 6) : classOf (keyGas z) = .gas := by revert z; decide
theorem classOf_keyBlind (z : Fin 6) : classOf (keyBlind z) = .blind := by revert z; decide
theorem classOf_keyShortfall (z : Fin 6) : classOf (keyShortfall z) = .shortfall := by revert z; decide
theorem classOf_keySpill (p : Fin 8) : classOf (keySpill p) = .spill := by revert p; decide

theorem zonesUsing_length (s : State) (i : Fin 8) : (s.zonesUsing i).length ≤ 6 := by
  unfold State.zonesUsing State.activeZones
  exact (List.length_filter_le _ _).trans ((List.length_filter_le _ _).trans (by simp))

/-- A fan's change of record hands over its two conditions and its availability, where they change. -/
theorem pays_moveFan (w : Work) (i : Fin 8) (f : Fan) {n : Nat}
    (h : f.exposed w.st.alarm.regime + (if (w.st.fan i).failed = f.failed then 0 else 1)
      + (if (w.st.fan i).flowNote = f.flowNote then 0 else 1)
      + (if (w.st.fan i).available w.st.alarm.regime = f.available w.st.alarm.regime then 0 else 12)
      ≤ (w.st.fan i).exposed w.st.alarm.regime + n) : Pays w (w.moveFan i f) n := by
  have put := credit_setFan w.st i (f.remeasure (w.st.fan i) w.st.clock)
  have same : (f.remeasure (w.st.fan i) w.st.clock).exposed w.st.alarm.regime = f.exposed w.st.alarm.regime := rfl
  rw [same] at put
  have noted : ∀ (p : Prop) [Decidable p] (v : Work) (b : NoticeBody), Pays v (if p then v else v.notice b) 0 := by
    intro p _ v b
    split
    · exact .refl v
    · exact pays_notice v b
  have handed : ∀ v : Work, Pays v ((v.handCondition (keyFanFail i) (w.st.fan i).failed f.failed f.failImage).handCondition
      (keyFlowNote i) (w.st.fan i).flowNote f.flowNote (.raised 1 none))
      ((if (w.st.fan i).failed = f.failed then 0 else 1) + (if (w.st.fan i).flowNote = f.flowNote then 0 else 1)) := fun v =>
    (pays_handCondition v (by rw [classOf_keyFanFail]; decide) _ _ _).trans
      (pays_handCondition _ (by rw [classOf_keyFlowNote]; decide) _ _ _)
  have told : ∀ v : Work, Pays v (v.forEachOpen (w.st.zonesUsing i) fun w z => w.post (.availability z)) 12 := fun v =>
    (pays_forEachOpen v _ fun w z => pays_post w (.availability z)).le
      (by have := zonesUsing_length w.st i; simp only; omega)
  have base : ∀ m, (v : Work) → Pays (w.map fun s => s.setFan i (f.remeasure (w.st.fan i) w.st.clock)) v m →
      f.exposed w.st.alarm.regime + m ≤ (w.st.fan i).exposed w.st.alarm.regime + n → Pays w v n := by
    intro m v hv hm
    refine ⟨hv.alarm, ?_⟩
    have := hv.weight
    change _ ≤ (w.out.map Handover.weight).sum + (w.st.setFan i _).credit + m at this
    change _ ≤ (w.out.map Handover.weight).sum + w.st.credit + n
    omega
  unfold Work.moveFan
  dsimp only
  split
  · exact base _ _ ((noted _ _ _).trans (handed _)) (by omega)
  · rename_i a
    rw [if_neg (show ¬(w.st.fan i).available w.st.alarm.regime = f.available w.st.alarm.regime from a)] at h
    exact base _ _ (((noted _ _ _).trans (handed _)).trans (told _)) (by omega)

/-- A fan moves between states that are alike to the zones and to the alarm unit. -/
theorem pays_moveFan_quiet (w : Work) (i : Fin 8) (f : Fan) (a : f.cfg = (w.st.fan i).cfg) (b : f.failed = (w.st.fan i).failed)
    (c : f.flowNote = (w.st.fan i).flowNote) (d : ∀ r, f.available r = (w.st.fan i).available r) : Pays w (w.moveFan i f) 0 := by
  refine pays_moveFan w i f ?_
  have e : f.exposed w.st.alarm.regime = (w.st.fan i).exposed w.st.alarm.regime := by unfold Fan.exposed; rw [a, d]
  simp [b, c, d, e]

theorem pays_moveFan_any (w : Work) (i : Fin 8) (f : Fan) : Pays w (w.moveFan i f) 26 := by
  refine pays_moveFan w i f ?_
  have := f.exposed_le w.st.alarm.regime
  split <;> split <;> split <;> omega

theorem pays_stopOrCoast (w : Work) (i : Fin 8) (h : (w.st.fan i).state = .proving ∨ (w.st.fan i).state = .running) :
    Pays w (w.stopOrCoast i) 0 := by
  unfold Work.stopOrCoast
  split
  · refine pays_moveFan w i _ ?_
    have a : (w.st.fan i).available w.st.alarm.regime = (w.st.fan i).cfg.present := by
      rcases h with h | h <;> simp [Fan.available, h]
    have b : (w.st.fan i).failed = false := by rcases h with h | h <;> simp [Fan.failed, h]
    have c : ((w.st.fan i).coasting w.st.clock).failed = false := rfl
    have d : ((w.st.fan i).coasting w.st.clock).flowNote = (w.st.fan i).flowNote := rfl
    have e : ((w.st.fan i).coasting w.st.clock).available w.st.alarm.regime = ((w.st.fan i).cfg.present &&
      !(decide (w.st.alarm.regime = .critical) && decide ((w.st.fan i).cfg.rating = .ordinary))) := rfl
    have k : ((w.st.fan i).coasting w.st.clock).cfg = (w.st.fan i).cfg := rfl
    unfold Fan.exposed
    rw [a, b, c, d, e, k]
    by_cases p : (w.st.fan i).cfg.present = true <;> by_cases q : w.st.alarm.regime = .critical <;>
      by_cases r : (w.st.fan i).cfg.rating = .ordinary <;> simp [p, q, r]
  · exact pays_setFan w i (g := fun s => { s.fan i with stopPending := true }) (Nat.le_refl _)

/-- The record that a fan's move leaves. -/
theorem moveFan_fan (w : Work) (i : Fin 8) (f : Fan) : (w.moveFan i f).st.fan i = f.remeasure (w.st.fan i) w.st.clock := by
  have told : ∀ (v : Work) (zs : List (Fin 6)), (v.forEachOpen zs fun w z => w.post (.availability z)).st.fan i = v.st.fan i := by
    intro v zs
    unfold Work.forEachOpen
    rw [foldl_post_st]
    rfl
  have noted : ∀ (p : Prop) [Decidable p] (v : Work) (b : NoticeBody),
      ((if p then v else v.notice b) : Work).st.fan i = v.st.fan i := by
    intro p _ v b
    split <;> rfl
  unfold Work.moveFan
  dsimp only
  split
  · rw [handCondition_st, handCondition_st, noted]; exact State.setFan_fan_same ..
  · rw [told, handCondition_st, handCondition_st, noted]; exact State.setFan_fan_same ..

theorem pays_enterProving (w : Work) (i : Fin 8) : Pays w (w.enterProving i) 26 := by
  unfold Work.enterProving
  dsimp only
  split
  · have e : ((w.moveFan i ((w.st.fan i).proving w.st.clock)).st.fan i).state = .proving := by rw [moveFan_fan]; rfl
    refine (pays_moveFan_any w i ((w.st.fan i).proving w.st.clock)).trans (n := 0) (pays_moveFan_quiet _ i _ rfl ?_ rfl fun r => ?_)
    · simp [Fan.failed, Fan.running, e]
    · simp [Fan.available, Fan.running, e]
  · exact pays_moveFan_any w i _

theorem credit_setArb (s : State) (a : Arbiter) : (s.setArb a).credit + (if s.arb.spacing = none then 32 else 0)
    = s.credit + (if a.spacing = none then 32 else 0) := by
  have e : (s.setArb a).credit = (∑ i, (s.fan i).exposed s.alarm.regime) + (if a.spacing = none then 32 else 0)
    + (if s.alarm.regime = regimeOf s.alarm then 0 else 120) := rfl
  rw [e, State.credit]
  omega

/-- A consideration pays for the grant it makes with the spacing that the grant starts. -/
theorem pays_consider (w : Work) : Pays w w.consider 0 := by
  unfold Work.consider
  split
  · rename_i i hi
    have open_ : w.st.arb.spacing = none := by
      unfold State.grantChoice at hi
      split at hi
      · rename_i h; exact h.2
      · cases hi
    have spent := credit_setArb w.st (w.st.arb.granted i w.st.clock)
    rw [open_, if_pos rfl, if_neg (by simp [Arbiter.granted])] at spent
    have after := (pays_setFan (w.map fun s => s.setArb (s.arb.granted i s.clock)) i
      (g := fun s => { s.fan i with startCount := countStart (s.fan i).startCount }) (n := 0) (Nat.le_refl _)).trans
      (pays_enterProving _ i)
    refine ⟨after.alarm, ?_⟩
    have := after.weight
    change _ ≤ (w.out.map Handover.weight).sum + (w.st.setArb (w.st.arb.granted i w.st.clock)).credit + (0 + 26) at this
    change _ ≤ (w.out.map Handover.weight).sum + w.st.credit + 0
    unfold Work.grant
    omega
  · exact .refl w

theorem pays_setWaiting (w : Work) (g : State → Arbiter) (h : (g w.st).spacing = w.st.arb.spacing) :
    Pays w (w.map fun s => s.setArb (g s)) 0 := by
  refine ⟨rfl, ?_⟩
  have := credit_setArb w.st (g w.st)
  rw [h] at this
  change (w.out.map Handover.weight).sum + (w.st.setArb (g w.st)).credit ≤ (w.out.map Handover.weight).sum + w.st.credit + 0
  omega

/-- A fan that rests without a fault and is available to a zone as an idle one is. -/
def FanState.calm (st : FanState) : Prop := st = .idle ∨ st = .waiting

theorem pays_enterWaiting (w : Work) (i : Fin 8) (h : (w.st.fan i).state.calm) : Pays w (w.enterWaiting i) 0 := by
  unfold Work.enterWaiting
  refine .trans (m := 0) (.trans (m := 0) ?_ (pays_setWaiting _ (fun s => { s.arb with waiting := vset s.arb.waiting i (some s.clock) })
    rfl)) (pays_consider _)
  refine pays_moveFan_quiet w i _ rfl ?_ rfl fun r => ?_
  · rcases h with h | h <;> simp [Fan.failed, h]
  · rcases h with h | h <;> simp [Fan.available, h]

theorem pays_testExercise (w : Work) (i : Fin 8) : Pays w (w.testExercise i) 0 := by
  unfold Work.testExercise
  split
  · rename_i h
    have idle : (w.st.fan i).state = .idle := by
      unfold State.takesExercise at h
      simp at h
      exact h.1.1.1
    refine .trans (m := 0) (pays_setFan w i (g := fun s =>
      { s.fan i with exerciseOwed := false, claims := (s.fan i).claims.add .exercise }) (Nat.le_refl _)) (pays_enterWaiting _ i ?_)
    left
    change ((w.st.setFan i _).fan i).state = _
    rw [State.setFan_fan_same]
    exact idle
  · exact .refl w

theorem pays_enterIdle (w : Work) (i : Fin 8) (h : (w.st.fan i).state.calm) : Pays w (w.enterIdle i) 0 := by
  unfold Work.enterIdle
  refine .trans (m := 0) (pays_moveFan_quiet w i { w.st.fan i with state := .idle, coastTimer := none, retryTimer := none } rfl ?_
    rfl fun r => ?_) (pays_testExercise _ i)
  · rcases h with h | h <;> simp [Fan.failed, h]
  · rcases h with h | h <;> simp [Fan.available, h]

theorem pays_addClaim (w : Work) (i : Fin 8) (src : Source) : Pays w (w.addClaim i src) 0 := by
  unfold Work.addClaim
  dsimp only
  split
  · exact .refl w
  · have added := pays_setFan w i (g := fun s => { s.fan i with claims := (s.fan i).claims.add src }) (n := 0) (Nat.le_refl _)
    have kept : ((w.map fun s => s.setFan i { s.fan i with claims := (s.fan i).claims.add src }).st.fan i).state
        = (w.st.fan i).state := by
      change ((w.st.setFan i _).fan i).state = _
      rw [State.setFan_fan_same]
    have cleared : ∀ v : Work, Pays v (v.map fun s => s.setFan i { s.fan i with stopPending := false }) 0 :=
      fun v => pays_setFan v i (g := fun s => { s.fan i with stopPending := false }) (Nat.le_refl _)
    split
    · rename_i h
      exact added.trans (pays_enterWaiting _ i (Or.inl (kept.trans h)))
    · exact added.trans (pays_consider _)
    · exact added.trans (cleared _)
    · exact added.trans (cleared _)
    all_goals exact added

theorem pays_removeClaim (w : Work) (i : Fin 8) (src : Source) : Pays w (w.removeClaim i src) 0 := by
  unfold Work.removeClaim
  dsimp only
  split
  · exact .refl w
  · have same : ((w.st.fan i).withoutClaim src).exposed w.st.alarm.regime = (w.st.fan i).exposed w.st.alarm.regime := by
      cases src <;> rfl
    have removed := pays_setFan w i (g := fun s => (s.fan i).withoutClaim src) (n := 0) (Nat.le_of_eq same)
    have kept : ((w.map fun s => s.setFan i ((s.fan i).withoutClaim src)).st.fan i).state = (w.st.fan i).state := by
      change ((w.st.setFan i _).fan i).state = _
      rw [State.setFan_fan_same]
      cases src <;> rfl
    split
    · split
      · rename_i h
        exact .trans (m := 0) (removed.trans (pays_setWaiting _
          (fun s => { s.arb with waiting := vset s.arb.waiting i none }) rfl)) (pays_enterIdle _ i (Or.inr (kept.trans h)))
      · rename_i h; exact removed.trans (pays_stopOrCoast _ i (Or.inl (kept.trans h)))
      · rename_i h; exact removed.trans (pays_stopOrCoast _ i (Or.inr (kept.trans h)))
      all_goals exact removed
    · split
      · exact removed.trans (pays_consider _)
      all_goals exact removed

/-! ## Zones -/

theorem pays_setZone (w : Work) (z : Fin 6) (g : State → Zone) : Pays w (w.map fun s => s.setZone z (g s)) 0 :=
  pays_map w rfl rfl rfl

theorem pays_allocate (w : Work) (z : Fin 6) : Pays w (w.allocate z) 0 := by
  have added : ∀ (xs : List (Fin 8)) (v : Work), Pays v (xs.foldl (fun w f => w.addClaim f (.zone z)) v) 0 := fun xs v =>
    (pays_foldl (fun v f => pays_addClaim v f (.zone z)) xs v).le (by omega)
  have released : ∀ (xs : List (Fin 8)) (v : Work), Pays v (xs.foldl (fun w f => w.removeClaim f (.zone z)) v) 0 := fun xs v =>
    (pays_foldl (fun v f => pays_removeClaim v f (.zone z)) xs v).le (by omega)
  exact ((pays_setZone w z fun _ => _).trans (released _ _)).trans (added _ _)

theorem pays_demandStep (w : Work) (z : Fin 6) (always : Bool) : Pays w (w.demandStep z always) 0 := by
  unfold Work.demandStep
  dsimp only
  split
  · exact (pays_setZone w z _).trans (pays_allocate _ z)
  · exact pays_setZone w z _

theorem changedImage_weight (k : Fin 82) (a b : Image) :
    ((changedImage k a b).map Handover.weight).sum ≤ if classOf k ∈ [.gas, .blind, .spill] then 121 else 1 := by
  unfold changedImage
  split
  · simp
  · simp [Handover.weight]

/-- An evaluation hands over four images at most. -/
theorem pays_endEvaluation_any (w : Work) (z : Fin 6) (before : Zone) : Pays w (w.endEvaluation z before) 244 := by
  have g := changedImage_weight (keyGas z) before.gasImage (w.st.zone z).gasImage
  have b := changedImage_weight (keyBlind z) before.blindImage (w.st.zone z).blindImage
  have s := changedImage_weight (keyShortfall z) before.shortfallImage (w.st.zone z).shortfallImage
  rw [classOf_keyGas, if_pos (by decide)] at g
  rw [classOf_keyBlind, if_pos (by decide)] at b
  rw [classOf_keyShortfall, if_neg (by decide)] at s
  have handed : ∀ hs : List Handover, (hs.map Handover.weight).sum ≤ 1 → Pays w (w.postAll
      (changedImage (keyGas z) before.gasImage (w.st.zone z).gasImage
        ++ changedImage (keyBlind z) before.blindImage (w.st.zone z).blindImage
        ++ changedImage (keyShortfall z) before.shortfallImage (w.st.zone z).shortfallImage ++ hs)) 244 := fun hs h =>
    (pays_postAll w _).le (by simp only [List.map_append, List.sum_append]; omega)
  unfold Work.endEvaluation
  dsimp only
  have paused : ((if decide (before.sight = some .paused) = decide ((w.st.zone z).sight = some .paused) then []
      else [Handover.paused z (decide ((w.st.zone z).sight = some .paused))]).map Handover.weight).sum ≤ 1 := by
    split <;> simp [Handover.weight]
  split
  · exact handed _ paused
  · exact (handed _ paused).trans (pays_notice _ _)

/-- One that has sensed nothing new hands over SHORTFALL at most. -/
theorem pays_endEvaluation (w : Work) (z : Fin 6) {before : Zone} (g : (w.st.zone z).gas = before.gas)
    (v : (w.st.zone z).voted = before.voted) (s : (w.st.zone z).sight = before.sight) : Pays w (w.endEvaluation z before) 1 := by
  have c := changedImage_weight (keyShortfall z) before.shortfallImage (w.st.zone z).shortfallImage
  rw [classOf_keyShortfall, if_neg (by decide)] at c
  have gas : (w.st.zone z).gasImage = before.gasImage := by unfold Zone.gasImage; rw [g, v]
  have blind : (w.st.zone z).blindImage = before.blindImage := by unfold Zone.blindImage; rw [s]
  have handed := (pays_postAll w (changedImage (keyShortfall z) before.shortfallImage (w.st.zone z).shortfallImage)).le c
  unfold Work.endEvaluation
  dsimp only
  rw [gas, blind, s]
  simp only [changedImage, if_true, List.nil_append, List.append_nil] at handed ⊢
  split
  · exact handed
  · exact handed.trans (pays_notice _ _)

theorem pays_evaluateSight (w : Work) (z : Fin 6) : Pays w (w.evaluateSight z) 244 :=
  ((pays_setZone w z fun s => s.sense z).trans (pays_demandStep _ z false)).trans (pays_endEvaluation_any _ z _)

/-- An evaluation that starts at the demand, from a record that differs in nothing that is sensed. -/
theorem pays_evaluateDemand (w : Work) (z : Fin 6) (r : Zone) (always : Bool) (g : r.gas = (w.st.zone z).gas)
    (v : r.voted = (w.st.zone z).voted) (s : r.sight = (w.st.zone z).sight) : Pays w (w.evaluateDemand z r always) 1 := by
  have calm := (calm_demandStep (w.map fun s => s.setZone z r) z always).sense z
  rw [show (w.map fun s => s.setZone z r).st.zone z = r from State.setZone_zone_same ..] at calm
  exact ((pays_setZone w z fun _ => r).trans (pays_demandStep _ z always)).trans
    (pays_endEvaluation _ z (calm.gas.trans g) (calm.voted.trans v) (calm.sight.trans s))

theorem pays_evaluateAllocation (w : Work) (z : Fin 6) : Pays w (w.evaluateAllocation z (w.st.zone z)) 1 := by
  have calm := (calm_allocate (w.map fun s => s.setZone z (w.st.zone z)) z).sense z
  rw [show (w.map fun s => s.setZone z (w.st.zone z)).st.zone z = w.st.zone z from State.setZone_zone_same ..] at calm
  exact ((pays_setZone w z fun _ => w.st.zone z).trans (pays_allocate _ z)).trans
    (pays_endEvaluation _ z calm.gas calm.voted calm.sight)

theorem pays_ifActive (w : Work) (z : Fin 6) {f : Work → Work} {n : Nat} (h : Pays w (f w) n) : Pays w (w.ifActive z f) n := by
  unfold Work.ifActive
  split
  · exact h
  · exact (Pays.refl w).le (Nat.zero_le _)

theorem pays_takeCoupling (w : Work) (z : Fin 6) (active : Bool) : Pays w (w.takeCoupling z active) 1 := by
  have kept : ((w.st.zone z).couple active w.st.clock).gas = (w.st.zone z).gas ∧
      ((w.st.zone z).couple active w.st.clock).voted = (w.st.zone z).voted ∧
      ((w.st.zone z).couple active w.st.clock).sight = (w.st.zone z).sight := by
    unfold Zone.couple
    split
    · exact ⟨rfl, rfl, rfl⟩
    · split <;> exact ⟨rfl, rfl, rfl⟩
  unfold Work.takeCoupling
  dsimp only
  split
  · exact (pays_setZone w z _).le (Nat.zero_le _)
  · exact pays_evaluateDemand w z _ false kept.1 kept.2.1 kept.2.2

theorem pays_takeSpill (w : Work) (z : Fin 6) : Pays w (w.takeSpill z) 1 := by
  unfold Work.takeSpill
  dsimp only
  split
  · exact (Pays.refl w).le (Nat.zero_le _)
  · exact pays_evaluateDemand w z _ false rfl rfl rfl

/-! ## The alarm unit -/

theorem regimeOf_congr {a b : Alarm} (g : ∀ z, a.image (keyGas z) = b.image (keyGas z))
    (bl : ∀ z, a.image (keyBlind z) = b.image (keyBlind z)) (sp : ∀ p, a.image (keySpill p) = b.image (keySpill p))
    (e : a.eqz = b.eqz) : regimeOf a = regimeOf b := by
  unfold regimeOf
  simp only [g, bl, sp, e]

theorem pays_handRegime (w : Work) (old new : Regime) : Pays w (w.handRegime old new) 14 := by
  unfold Work.handRegime
  dsimp only
  refine .le (.trans (.trans (pays_forEachOpen (n := 2) w _ fun w z => pays_post w (.critical z)) (pays_post _ .toArbiter))
    (pays_post _ (.toFans _))) ?_
  have : (if (decide (old = .critical) != decide (new = .critical)) = true then w.st.activeZones else []).length ≤ 6 := by
    split
    · exact (List.length_filter_le _ _).trans (by simp)
    · simp
  simp only [Handover.weight]
  omega

/-- At an event of the alarm unit a change of the regime is paid for by the change of an image. -/
theorem alarmPass_weight (w : Work) (a : Alarm) (changed : Bool) (notes : List NoticeBody) (h : a.regime = w.st.alarm.regime) :
    ((w.map fun s => s.setAlarm a).alarmPass changed notes).weight
      ≤ w.weight + if regimeOf a = regimeOf w.st.alarm then 0 else 110 := by
  have fresh : ∀ (b : Alarm), b.regime = regimeOf b → (w.st.setAlarm b).credit =
      (∑ i, (w.st.fan i).exposed b.regime) + (if w.st.arb.spacing = none then 32 else 0) := by
    intro b hb
    unfold State.credit
    rw [if_pos (show (w.st.setAlarm b).alarm.regime = regimeOf (w.st.setAlarm b).alarm from hb)]
    rfl
  have noted : ∀ (b : Alarm) (bs : List NoticeBody), b.regime = regimeOf b →
      (((w.map fun s => s.setAlarm a).map fun s => s.setAlarm b).noticeAll bs).weight ≤ (w.out.map Handover.weight).sum
        + ((∑ i, (w.st.fan i).exposed b.regime) + (if w.st.arb.spacing = none then 32 else 0)) := by
    intro b bs hb
    have := (pays_noticeAll bs ((w.map fun s => s.setAlarm a).map fun s => s.setAlarm b)).weight
    rw [← fresh b hb]
    exact this
  have derived : ∀ v p, regimeOf { a with regime := regimeOf a, permit := p, version := v } = regimeOf a := fun _ _ => rfl
  have before : w.weight = (w.out.map Handover.weight).sum + ((∑ i, (w.st.fan i).exposed w.st.alarm.regime)
      + (if w.st.arb.spacing = none then 32 else 0) + (if w.st.alarm.regime = regimeOf w.st.alarm then 0 else 120)) := rfl
  have now : (w.map fun s => s.setAlarm a).st.alarm = a := rfl
  unfold Work.alarmPass
  dsimp only
  rw [now]
  split
  · rename_i same
    refine (noted _ _ (derived _ _).symm).trans ?_
    dsimp only
    rw [same.trans h, before]
    omega
  · rename_i moved
    have m : regimeOf a ≠ w.st.alarm.regime := fun e => moved (e.trans h.symm)
    refine ((pays_handRegime _ _ _).weight).trans ?_
    refine (Nat.add_le_add_right (noted _ _ (derived _ _).symm) 14).trans ?_
    have := exposed_sum_le w.st (regimeOf a)
    dsimp only
    rw [before]
    by_cases e : regimeOf a = regimeOf w.st.alarm
    · rw [if_pos e, if_neg (c := w.st.alarm.regime = _) (fun x => m (e.trans x.symm))]
      omega
    · rw [if_neg e]
      omega

theorem alarmPass_weight_any (w : Work) (a : Alarm) (changed : Bool) (notes : List NoticeBody) (h : a.regime = w.st.alarm.regime) :
    ((w.map fun s => s.setAlarm a).alarmPass changed notes).weight ≤ w.weight + 110 := by
  have := alarmPass_weight w a changed notes h
  split at this <;> omega

theorem alarmPass_weight_same (w : Work) (a : Alarm) (changed : Bool) (notes : List NoticeBody) (h : a.regime = w.st.alarm.regime)
    (g : ∀ z, a.image (keyGas z) = w.st.alarm.image (keyGas z)) (b : ∀ z, a.image (keyBlind z) = w.st.alarm.image (keyBlind z))
    (s : ∀ p, a.image (keySpill p) = w.st.alarm.image (keySpill p)) (e : a.eqz = w.st.alarm.eqz) :
    ((w.map fun s => s.setAlarm a).alarmPass changed notes).weight ≤ w.weight := by
  have := alarmPass_weight w a changed notes h
  rw [if_pos (regimeOf_congr g b s e)] at this
  exact this

/-! ## Hand-overs -/

/-- Whatever the hand-over, all that taking it leads to weighs less than it did. -/
theorem take_weight (w : Work) (h : Handover) : (w.take h).weight < w.weight + h.weight := by
  have by_ : ∀ {v : Work} {n m : Nat}, Pays w v n → n < m → v.weight < w.weight + m := fun p hn => by have := p.weight; omega
  cases h with
  | condition k image =>
    by_cases hk : classOf k ∈ [AlarmClass.gas, .blind, .spill]
    · refine Nat.lt_of_le_of_lt (alarmPass_weight_any w _ _ _ (by rfl)) ?_
      simp only [Handover.weight, if_pos hk]
      omega
    · have other : ∀ j, classOf j ∈ [AlarmClass.gas, .blind, .spill] → vget (vset w.st.alarm.images k image) j
          = vget w.st.alarm.images j := fun j hj => vget_vset_ne _ _ fun e => hk (e ▸ hj)
      refine Nat.lt_of_le_of_lt (alarmPass_weight_same w _ _ _ (by rfl)
        (fun z => other (keyGas z) (by rw [classOf_keyGas]; decide))
        (fun z => other (keyBlind z) (by rw [classOf_keyBlind]; decide))
        (fun p => other (keySpill p) (by rw [classOf_keySpill]; decide)) (by rfl)) ?_
      simp only [Handover.weight, if_neg hk]
      omega
  | paused z yes =>
    refine Nat.lt_of_le_of_lt (alarmPass_weight_same w { w.st.alarm with paused := vset w.st.alarm.paused z yes } false [] rfl
      (fun _ => rfl) (fun _ => rfl) (fun _ => rfl) rfl) ?_
    simp only [Handover.weight]
    omega
  | eqz active =>
    refine Nat.lt_of_le_of_lt (alarmPass_weight_any w { w.st.alarm with eqz := active } false [] rfl) ?_
    simp only [Handover.weight]
    omega
  | member z => exact by_ (pays_ifActive w z (f := fun w => w.evaluateSight z) (pays_evaluateSight w z)) (by simp only [Handover.weight]; omega)
  | coupling z active =>
    exact by_ (pays_ifActive w z (f := fun w => w.takeCoupling z active) (pays_takeCoupling w z active)) (by simp only [Handover.weight]; omega)
  | spill z => exact by_ (pays_ifActive w z (f := fun w => w.takeSpill z) (pays_takeSpill w z)) (by simp only [Handover.weight]; omega)
  | critical z =>
    exact by_ (pays_ifActive w z (f := fun w => w.evaluateDemand z (w.st.zone z) true)
      (pays_evaluateDemand w z _ true rfl rfl rfl)) (by simp only [Handover.weight]; omega)
  | availability z =>
    exact by_ (pays_ifActive w z (f := fun w => w.evaluateAllocation z (w.st.zone z)) (pays_evaluateAllocation w z)) (by simp only [Handover.weight]; omega)
  | toArbiter => exact by_ (pays_consider w) (by simp only [Handover.weight]; omega)
  | toFans fell =>
    refine by_ (n := 0) ?_ (by simp only [Handover.weight]; omega)
    change Pays w (w.takeRegimeAtFans fell) 0
    unfold Work.takeRegimeAtFans
    split
    · exact (pays_forEachOpen (n := 0) w _ fun w i => pays_testExercise w i).le (by omega)
    · exact .refl w
  | completion c =>
    refine by_ (pays_map w (f := fun s => s.buildTrace c) ?_ ?_ ?_) (by simp only [Handover.weight]; omega)
    all_goals unfold State.buildTrace; split <;> rfl

/-- A cascade takes all its hand-overs, where its fuel is at least their weight. -/
theorem settle_done (fuel : Nat) (w : Work) (h : w.weight ≤ fuel) : (w.settle fuel).out = [] := by
  induction fuel generalizing w with
  | zero =>
    unfold Work.settle
    unfold Work.weight at h
    cases e : w.out with
    | nil => rfl
    | cons x xs =>
      have : 0 < x.weight := by cases x <;> simp only [Handover.weight] <;> first | omega | (split <;> omega)
      rw [e, List.map_cons, List.sum_cons] at h
      omega
  | succ fuel ih =>
    unfold Work.settle
    split
    · assumption
    · rename_i x xs e
      refine ih _ ?_
      have := take_weight { w with out := xs } x
      unfold Work.weight at h
      rw [e, List.map_cons, List.sum_cons] at h
      change _ < (xs.map Handover.weight).sum + w.st.credit + x.weight at this
      omega

/-- A step's cascade takes all its hand-overs: its own work makes none of more weight. -/
theorem finish_done (w : Work) (h : (w.out.map Handover.weight).sum ≤ 3848) : (w.settle settleLimit).out = [] := by
  refine settle_done _ w ?_
  have := w.st.credit_le
  unfold Work.weight settleLimit
  omega

end Sys2Proof.Machine
end

