-- ==== Sys2Proof/Laws/Readers.lean ====
section
/-! SUPPORT. What the readers of raw fields answer: a SET request's fields name a record just where the relations of Safety.lean say
so (R1, R20, R42, R67, R101, R116), and SCHEDULE's name an action just where ScheduleGives does (R173). -/

namespace Sys2Proof.Machine

/-! ## One field -/

theorem inRange_eq_some {lo hi n m : Nat} : inRange lo hi n = some m ↔ m = n ∧ lo ≤ n ∧ n ≤ hi := by
  unfold inRange; split
  · simp_all [eq_comm]
  · rename_i h; simp [h]

theorem inRangeInt_eq_some {lo hi n m : Int} : inRangeInt lo hi n = some m ↔ m = n ∧ lo ≤ n ∧ n ≤ hi := by
  unfold inRangeInt; split
  · simp_all [eq_comm]
  · rename_i h; simp [h]

theorem readYesNo_eq_some {b : Byte} {v : Bool} : readYesNo b = some v ↔ YesNoGives b v := by
  unfold readYesNo YesNoGives
  by_cases h0 : b = 0
  · subst h0; cases v <;> decide
  · by_cases h1 : b = 1
    · subst h1; cases v <;> decide
    · rw [if_neg h0, if_neg h1]; simp only [reduceCtorEq, false_iff]; tauto

theorem readIndex_eq_some {n : Nat} (hn : n ≤ 256) {b : Byte} {i : Fin n} : readIndex n b = some i ↔ b = indexByte i := by
  have hi := i.isLt
  unfold readIndex indexByte
  constructor
  · intro h; split at h
    · simp only [Option.some.injEq] at h; subst h; simp
    · simp at h
  · rintro rfl
    have : (BitVec.ofNat 8 i.val).toNat = i.val := by simp; omega
    simp [this, hi]

theorem indexByte_ne_none (z : Fin 6) : (0xFF : Byte) ≠ indexByte z := by revert z; decide

theorem readIndexOrNone_eq_some {b : Byte} {v : Option (Fin 6)} : readIndexOrNone 6 b = some v ↔ ZoneGives b v := by
  unfold readIndexOrNone ZoneGives
  split
  · subst_vars
    constructor
    · intro h; exact .inl ⟨rfl, (Option.some.inj h).symm⟩
    · rintro (⟨_, rfl⟩ | ⟨z, h, _⟩)
      · rfl
      · exact absurd h (indexByte_ne_none z)
  · rename_i hb
    simp only [Option.map_eq_some_iff, readIndex_eq_some (by omega : 6 ≤ 256), hb, false_and, false_or]
    simp [eq_comm]

theorem readCode_pair_eq_some {α : Type} {x y v : α} {b : Byte} :
    readCode [x, y] b = some v ↔ (b = 0 ∧ v = x) ∨ (b = 1 ∧ v = y) := by
  unfold readCode
  have h0 : b = 0 ↔ b.toNat = 0 := by rw [BitVec.toNat_eq]; simp
  have h1 : b = 1 ↔ b.toNat = 1 := by rw [BitVec.toNat_eq]; simp
  rw [h0, h1]
  rcases hb : b.toNat with _ | _ | k <;> simp [eq_comm]

/-! ## Whole records -/

theorem ArbiterFields_read_eq_some {f : ArbiterFields} {k w g : Nat} :
    ArbiterFields.read f = some (k, w, g) ↔ ArbiterGives f k w g := by
  constructor
  · intro h
    simp [ArbiterFields.read, Option.bind_eq_some_iff, inRange_eq_some] at h
    obtain ⟨⟨_, _⟩, ⟨_, _⟩, _, rfl, rfl, rfl⟩ := h
    constructor <;> simp <;> omega
  · rintro ⟨⟨rfl, _, _⟩, ⟨rfl, _, _⟩, ⟨rfl, _⟩⟩
    simp [ArbiterFields.read, Option.bind_eq_some_iff, inRange_eq_some]; omega

theorem ProbeFields_read_eq_some {f : ProbeFields} {c : ProbeCfg} : ProbeFields.read f = some c ↔ ProbeGives f c := by
  simp only [ProbeFields.read, Option.bind_eq_bind, Option.pure_def, Option.bind_eq_some_iff, Option.some.injEq,
    inRange_eq_some, readYesNo_eq_some, readIndexOrNone_eq_some]
  constructor
  · rintro ⟨p, hp, z, hz, w, ⟨rfl, _⟩, d, ⟨rfl, _⟩, rfl⟩
    constructor <;> simp_all
  · rintro ⟨hp, hz, ⟨h1, _⟩, h2, _⟩
    exact ⟨_, hp, _, hz, _, ⟨h1, by omega⟩, _, ⟨h2, by omega⟩, rfl⟩

theorem FanFields_read_eq_some {f : FanFields} {c : FanCfg} : FanFields.read f = some c ↔ FanGives f c := by
  simp only [FanFields.read, Option.bind_eq_bind, Option.pure_def, Option.bind_eq_some_iff, Option.some.injEq,
    inRange_eq_some, readYesNo_eq_some, readCode_pair_eq_some]
  constructor
  · rintro ⟨_, hp, _, hr, _, ⟨rfl, _⟩, _, ⟨rfl, _⟩, _, ⟨rfl, _⟩, _, ⟨rfl, _⟩, _, ⟨rfl, _⟩, _, ⟨rfl, _⟩, _, ⟨rfl, _⟩, rfl⟩
    constructor <;> simp_all
  · rintro ⟨hp, hr, ⟨h1, _⟩, ⟨h2, _⟩, ⟨h3, _⟩, ⟨h4, _⟩, ⟨h5, _⟩, ⟨h6, _⟩, h7, _⟩
    exact ⟨_, hp, _, hr, _, ⟨h1, by omega⟩, _, ⟨h2, by omega⟩, _, ⟨h3, by omega⟩, _, ⟨h4, by omega⟩, _, ⟨h5, by omega⟩,
      _, ⟨h6, by omega⟩, _, ⟨h7, by omega⟩, rfl⟩

theorem ChannelFields_read_eq_some {f : ChannelFields} {c : ChannelCfg} :
    ChannelFields.read f = some c ↔ ChannelGives f c := by
  simp only [ChannelFields.read, Option.bind_eq_bind, Option.pure_def, Option.bind_eq_some_iff, Option.some.injEq,
    inRange_eq_some, inRangeInt_eq_some, readYesNo_eq_some, readIndexOrNone_eq_some, readIndex_eq_some (by omega : 4 ≤ 256)]
  constructor
  · rintro ⟨_, he, _, hz, _, hp, _, ⟨rfl, _⟩, _, ⟨rfl, _⟩, _, ⟨rfl, _⟩, _, ⟨rfl, _⟩, _, ⟨rfl, _⟩, _, ⟨rfl, _⟩, _, ⟨rfl, _⟩,
      _, ⟨rfl, _⟩, _, ⟨rfl, _⟩, rfl⟩
    constructor <;> simp_all
  · rintro ⟨he, hz, hp, ⟨h1, _⟩, ⟨h2, _⟩, ⟨h3, _⟩, ⟨h4, _⟩, ⟨c1, c2, c3, c4⟩, ⟨h5, _⟩, ⟨h6, _⟩, ⟨h7, _⟩, ⟨h8, _⟩, h9, _⟩
    refine ⟨_, he, _, hz, _, hp, _, ⟨h1, by omega⟩, _, ⟨h2, by omega⟩, _, ⟨h3, by omega⟩, _, ⟨h4, by omega⟩, _, ⟨h5, by omega⟩,
      _, ⟨h6, by omega⟩, _, ⟨h7, by omega⟩, _, ⟨h8, by omega⟩, _, ⟨h9, by omega⟩, ?_⟩
    rw [← c1, ← c2, ← c3, ← c4]

/-- A fan order is read number by number. -/
theorem mapM_readIndex_eq_some {bytes : List Byte} {fans : List (Fin 8)} :
    bytes.mapM (readIndex 8) = some fans ↔ bytes = fans.map indexByte := by
  induction bytes generalizing fans with
  | nil => cases fans with
    | nil => exact ⟨fun _ => rfl, fun _ => rfl⟩
    | cons i l => exact ⟨fun h => (nomatch h), fun h => (nomatch h)⟩
  | cons b bs ih =>
    simp only [List.mapM_cons, Option.bind_eq_bind, Option.pure_def, Option.bind_eq_some_iff, readIndex_eq_some (by omega : 8 ≤ 256), ih]
    constructor
    · rintro ⟨i, rfl, l, rfl, h⟩; cases h; rfl
    · intro h
      cases fans with
      | nil => cases h
      | cons i l => obtain ⟨h1, h2⟩ := List.cons.inj h; exact ⟨i, h1, l, h2, rfl⟩

theorem readOrder_eq_some {bytes : List Byte} {fans : List (Fin 8)} :
    readOrder bytes = some fans ↔ bytes = fans.map indexByte ∧ fans.Nodup ∧ fans.length ≤ 4 := by
  simp only [readOrder, Option.bind_eq_bind, Option.bind_eq_some_iff, mapM_readIndex_eq_some, Option.ite_none_right_eq_some]
  constructor
  · rintro ⟨l, h, ⟨h1, h2⟩, h3⟩; simp at h3; subst h3; exact ⟨h, h2, h1⟩
  · rintro ⟨h, h1, h2⟩; exact ⟨fans, h, ⟨h2, h1⟩, rfl⟩

theorem ZoneFields_read_eq_some {f : ZoneFields} {c : ZoneCfg} : ZoneFields.read f = some c ↔ ZoneRecordGives f c := by
  constructor
  · intro h
    obtain ⟨_, hv, h⟩ := Option.bind_eq_some_iff.mp h
    obtain ⟨_, ho, h⟩ := Option.bind_eq_some_iff.mp h
    obtain ⟨_, n1, h⟩ := Option.bind_eq_some_iff.mp h
    obtain ⟨_, n2, h⟩ := Option.bind_eq_some_iff.mp h
    obtain ⟨_, n3, h⟩ := Option.bind_eq_some_iff.mp h
    obtain ⟨_, n4, h⟩ := Option.bind_eq_some_iff.mp h
    obtain ⟨_, hb, h⟩ := Option.bind_eq_some_iff.mp h
    obtain ⟨_, h1, h⟩ := Option.bind_eq_some_iff.mp h
    obtain ⟨_, h2, h⟩ := Option.bind_eq_some_iff.mp h
    obtain ⟨_, h3, h⟩ := Option.bind_eq_some_iff.mp h
    obtain ⟨_, h4, h⟩ := Option.bind_eq_some_iff.mp h
    obtain ⟨_, h5, h⟩ := Option.bind_eq_some_iff.mp h
    obtain ⟨_, hc, h⟩ := Option.bind_eq_some_iff.mp h
    obtain ⟨_, h6, h⟩ := Option.bind_eq_some_iff.mp h
    obtain ⟨ht, h⟩ := Option.ite_none_right_eq_some.mp h
    cases h
    rw [inRange_eq_some] at n1 n2 n3 n4 h1 h2 h3 h4 h5 h6
    rw [readCode_pair_eq_some] at hv hb
    rw [readOrder_eq_some] at ho
    rw [readYesNo_eq_some] at hc
    exact ⟨hv, ho, ⟨n1.1, n2.1, n3.1, n4.1⟩, by simp only; omega, hb, by simp only; omega, by simp only; omega,
      by simp only; omega, by simp only; omega, by simp only; omega, hc, by simp only; omega⟩
  · rintro ⟨hv, ho, ⟨n1, n2, n3, n4⟩, hn, hb, ⟨h1, _⟩, ⟨h2, _⟩, ⟨h3, _⟩, ⟨h4, _⟩, ⟨h5, _⟩, hc, h6, _⟩
    have := ho.2.2
    refine Option.bind_eq_some_iff.mpr ⟨_, readCode_pair_eq_some.mpr hv, ?_⟩
    refine Option.bind_eq_some_iff.mpr ⟨_, readOrder_eq_some.mpr ho, ?_⟩
    refine Option.bind_eq_some_iff.mpr ⟨_, inRange_eq_some.mpr ⟨n1, by omega⟩, ?_⟩
    refine Option.bind_eq_some_iff.mpr ⟨_, inRange_eq_some.mpr ⟨n2, by omega⟩, ?_⟩
    refine Option.bind_eq_some_iff.mpr ⟨_, inRange_eq_some.mpr ⟨n3, by omega⟩, ?_⟩
    refine Option.bind_eq_some_iff.mpr ⟨_, inRange_eq_some.mpr ⟨n4, by omega⟩, ?_⟩
    refine Option.bind_eq_some_iff.mpr ⟨_, readCode_pair_eq_some.mpr hb, ?_⟩
    refine Option.bind_eq_some_iff.mpr ⟨_, inRange_eq_some.mpr ⟨h1, by omega⟩, ?_⟩
    refine Option.bind_eq_some_iff.mpr ⟨_, inRange_eq_some.mpr ⟨h2, by omega⟩, ?_⟩
    refine Option.bind_eq_some_iff.mpr ⟨_, inRange_eq_some.mpr ⟨h3, by omega⟩, ?_⟩
    refine Option.bind_eq_some_iff.mpr ⟨_, inRange_eq_some.mpr ⟨h4, by omega⟩, ?_⟩
    refine Option.bind_eq_some_iff.mpr ⟨_, inRange_eq_some.mpr ⟨h5, by omega⟩, ?_⟩
    refine Option.bind_eq_some_iff.mpr ⟨_, readYesNo_eq_some.mpr hc, ?_⟩
    refine Option.bind_eq_some_iff.mpr ⟨_, inRange_eq_some.mpr ⟨h6, by omega⟩, ?_⟩
    exact Option.ite_none_right_eq_some.mpr ⟨by omega, rfl⟩

theorem readProfile_eq_some {v : Vector (BitVec 16) 10} {p : Profile} : readProfile v = some p ↔ ProfileGives v p := by
  unfold readProfile ProfileGives
  constructor
  · intro h
    split at h
    · rename_i hv
      simp at h; subst h
      simp only [List.all_eq_true, decide_eq_true_eq] at hv
      intro k
      have hk := hv (vget v k) (by simp [vget])
      fin_cases k <;> exact ⟨rfl, hk.1, hk.2⟩
    · simp at h
  · intro h
    have hv : (v.toList.all fun n => -16383 ≤ n.toInt ∧ n.toInt ≤ 16383) = true := by
      simp only [List.all_eq_true, decide_eq_true_eq]
      intro n hn
      obtain ⟨k, hk, rfl⟩ := List.mem_iff_getElem.mp hn
      simp at hk
      have := h ⟨k, hk⟩
      simp [vget] at this ⊢
      omega
    simp only [hv, if_true, Option.some.injEq]
    obtain ⟨⟨_, _, _, _, _⟩, ⟨_, _, _, _, _⟩⟩ := p
    have := fun k => (h k).1
    simp [Fin.forall_fin_succ, Profile.coefficient, vget] at this
    simp_all

/-! ## The action of a SCHEDULE -/

theorem readOptional_eq_some {α : Type} {b : Byte} {x : α} {o : Option α} :
    readOptional b x = some o ↔ ∃ v, YesNoGives b v ∧ (if v then some x else none) = o := by
  simp only [readOptional, Option.map_eq_some_iff, readYesNo_eq_some]

/-- SCHEDULE's fields are read as an action just where they name it (R172, R173; log entry 10). -/
theorem ScheduleFields_readAction_eq_some {f : ScheduleFields} {a : Action} :
    ScheduleFields.readAction f = some a ↔ ScheduleGives f a := by
  have given {α : Type} {b : Bool} {x y : α} : (if b = true then some x else none) = some y ↔ b = true ∧ x = y := by
    cases b <;> simp
  have asAction {x : Action} : x = a ↔ a = x := eq_comm
  have code : f.action = 0 ∨ f.action = 1 ∨ f.action = 2 ∨ f.action = 3 ∨
      (f.action ≠ 0 ∧ f.action ≠ 1 ∧ f.action ≠ 2 ∧ f.action ≠ 3) := by tauto
  simp only [BitVec.ofNat_eq_ofNat, ne_eq] at code
  unfold ScheduleFields.readAction ScheduleGives longestRun
  simp only [Option.bind_eq_bind, Option.bind_eq_some_iff, readOptional_eq_some, Option.pure_def]
  constructor
  · rintro ⟨_, ⟨target, ht, rfl⟩, _, ⟨duration, hd, rfl⟩, _, ⟨tag, hm, rfl⟩, h⟩
    refine ⟨target, duration, tag, ht, hd, hm, ?_⟩
    rcases code with e | e | e | e | e
    on_goal 5 => simp [e] at h
    all_goals simpa [e, given, readIndex_eq_some, Option.bind_eq_some_iff, asAction, and_left_comm] using h
  · rintro ⟨target, duration, tag, ht, hd, hm, h⟩
    refine ⟨_, ⟨target, ht, rfl⟩, _, ⟨duration, hd, rfl⟩, _, ⟨tag, hm, rfl⟩, ?_⟩
    rcases code with e | e | e | e | e
    on_goal 5 => simp [e] at h
    all_goals simpa [e, given, readIndex_eq_some, Option.bind_eq_some_iff, asAction, and_left_comm] using h

end Sys2Proof.Machine
end

