-- ==== Sys2Proof/Tests/Slice0.lean ====
section
/-! SUPPORT. The model's own tests: ill-formed commands, the figures of the spec's worked examples, one step of each family on
small states, and, for each statement with hypotheses, a state that meets them (`test_met_…`). Each test names its source. -/

namespace Sys2Proof.Tests

-- One theorem is checked at a time: many at once ask for more threads than the sandbox has.
set_option Elab.async false

open Sys2Proof Sys2Proof.Machine

/-! ## Well-formed commands -/

theorem test_wellFormed_refuses_long_flag_list : wellFormed (.clearFlags 1 0 (List.replicate 239 0)) = false := by
  decide +kernel

theorem test_wellFormed_refuses_long_class_list : wellFormed (.mask 1 (List.replicate 240 4)) = false := by decide +kernel

theorem test_wellFormed_refuses_long_zone_order :
    wellFormed (.setZone 1 0 ⟨0, List.replicate 221 0, 0, 0, 0, 0, 0, 1, 2, 3, 0, 10, 0, 0⟩) = false := by decide +kernel

theorem test_wellFormed_refuses_own_kind : wellFormed (.unknownKind 1 0x80) = false := by decide +kernel

theorem test_wellFormed_refuses_known_kind : wellFormed (.unknownKind 1 0x01) = false := by decide +kernel

theorem test_wellFormed_takes_unknown_kind : wellFormed (.unknownKind 1 0x0B) = true := by decide +kernel

/-! ## Figures of the worked examples -/

/-- Chapter 2, Step response of section A: steps 1, 4 and 11. -/
theorem test_section_step :
    let k : Coefficients := ⟨1024, 0, 0, -3072, 0⟩
    [0, 185, 302].map (fun y1 => Section.output ⟨320, 320, y1, 0⟩ k 320) = [80, 219, 307] := by decide +kernel

/-- Chapter 2, A saturating section: the step after 32767. -/
theorem test_section_saturates :
    let k : Coefficients := ⟨2048, 0, 0, -6144, 0⟩
    let h : Section := ⟨100, 100, 32767, 32767⟩
    h.output k 100 = 32767 ∧ h.saturates k 100 = true := by decide +kernel

/-- Chapter 2, Window means and concentration: window 1, from its sum to its reading. -/
theorem test_window_one :
    let c : Channel := { Channel.reset with
      cfg := { ChannelCfg.reset with gain := 10240, shift := 15 }, windowSum := 2294, windowCount := 10, baseline := 3072 }
    c.completeWindow.lastMean = some 229 ∧ c.completeWindow.excess = some 217 ∧ c.completeWindow.reading = some 68 := by
  decide +kernel

/-- Chapter 2, Rounding at the ties. -/
theorem test_rounding_at_ties :
    roundAway 1304576 4096 = 319 ∧ roundAway (-1304576) 4096 = -319 ∧ roundAway 45 10 = 5 ∧ roundAway (-45) 10 = -5 ∧
    wholeBaseline 384 = 2 ∧ wholeBaseline (-384) = -2 ∧ roundToward 32768 65536 = 0 ∧ roundToward (-32768) 65536 = 0 := by
  decide +kernel

/-- Chapter 2, A drifting zero: completions 1 and 4. -/
theorem test_drifting_zero :
    let k : ChannelCfg := { ChannelCfg.reset with cnu := 6554, trackLimit := 20 }
    k.baselineStep 4900 22 1 = 73 ∧ k.baselineStep 5098 22 1 = 53 := by decide +kernel

/-- Chapter 2, Baseline tracking in clean air: the dead band begins at a delta of 50. -/
theorem test_dead_band :
    let k : ChannelCfg := { ChannelCfg.reset with cnu := 655, trackLimit := 20 }
    k.baselineStep 3072 14 1 = 5 ∧ k.baselineStep (3584 - 50) 14 0 = 0 ∧ k.baselineStep (3584 - 51) 14 0 = 1 := by
  decide +kernel

/-- Chapter 8, Commissioning a Sensor: the span's gain, and the excess of 3 that fails. -/
theorem test_span_gain : spanGain 500 15 1580 = some 10370 ∧ spanGain 500 15 3 = none := by decide +kernel

/-- R47: readings 50, 50 and 10 vote 50 under SECOND. -/
theorem test_vote_counts_equal_readings : secondHighest [50, 50, 10] = 50 ∧ secondHighest [10, 50, 30] = 30 := by
  decide +kernel

/-- Chapter 7, Example: Report Order. -/
theorem test_report_order :
    let r := fun (st : RecordState) (sev peak : Severity) (t : Nat) =>
      ({ state := st, severity := sev, peak := peak, raised := t, cleared := none, value := none, repeats := 0 } : Record)
    (sortBy reportsBefore [(0, r .activeAck 1 3 1000), (14, r .clearedUnack 0 2 1020), (39, r .activeUnack 1 1 900),
      (52, r .activeUnack 2 2 980), (66, r .activeUnack 2 2 980)]).map (fun x => x.1.val) = [52, 66, 14, 39, 0] := by
  decide +kernel

/-- Chapter 9, A Schedule Table Through Two Clock Corrections: slot 3's first occurrence after 50 000 000. -/
theorem test_next_occurrence : nextOccurrence 40000000 3600 50000000 = 50800000 := by decide +kernel

/-- CRC-16 of R188's parameters over the ASCII digits 1 to 9: the published check value of this CRC, 0x29B1. -/
theorem test_crc : crc16 [0x31, 0x32, 0x33, 0x34, 0x35, 0x36, 0x37, 0x38, 0x39] = 0x29B1 := by decide +kernel

/-- R200: high byte first, two's complement. -/
theorem test_bytes : bytesBE 3 0x012345 = [0x01, 0x23, 0x45] ∧ signedBE 2 (-2) = [0xFF, 0xFE] := by decide +kernel

/-! ## Small states -/

/-- After reset, with the debounced SERVICE active. -/
def ready : State := State.reset.setLink { Link.reset with service := ⟨true, true, none⟩ }

/-- ARMED, with SERVICE active, and the permit that goes with it. -/
def armed : State := (ready.setSetup { Setup.reset with armed := true }).setAlarm { Alarm.reset with permit := .normal }

/-- Channel 0 enabled, in a state, with window length 5. -/
def chanIn (st : ChannelState) (s : State) : State :=
  s.setChan 0 { s.chan 0 with state := st, cfg := { (s.chan 0).cfg with enabled := true, window := 5, zeroBand := 100 } }

/-- Fan 0 present, in a state. -/
def fanIn (st : FanState) (s : State) : State :=
  s.setFan 0 { s.fan 0 with state := st, cfg := { (s.fan 0).cfg with present := true } }

/-- Probe 0 present and evaluated, in a state, with a line condition. -/
def probeIn (st : ProbeState) (line : LineCond) (s : State) : State :=
  s.setProbe 0 { s.probe 0 with cfg := { (s.probe 0).cfg with present := true }, state := some st, line := line }

/-- A later instant. -/
def later (n : Nat) (s : State) : State := s.setTime { s.time with clock := n, room := n }

/-- The state after one command. -/
def after (c : Instr) (s : State) : State :=
  match exec c s with
  | .next t => t
  | .fault _ => s
  | .refused _ => s

/-- The payload of the outstanding reply. -/
def reply (s : State) : List Byte := (s.link.outstanding.map (·.payload)).getD []

/-! ## One step of each family -/

/-- R191: STATUS is answered with kind 0x81, the request's tag, OK and no mark. -/
theorem test_status_reply :
    ((after (.status 5) ready).link.outstanding.map fun r => (r.kind, r.tag, r.payload.take 2)) = some (0x81, 5, [0, 0]) := by
  decide +kernel

/-- R14: READ CHANNEL marks a set flag seen. -/
theorem test_readChannel_marks_seen :
    let s := ready.setChan 0 { ready.chan 0 with flags := vset (ready.chan 0).flags 2 ⟨true, false⟩ }
    vget ((after (.readChannel 1 0) s).chan 0).flags 2 = ⟨true, true⟩ := by decide +kernel

/-- R192: a service request without SERVICE is refused NEEDS SERVICE. -/
theorem test_arm_needs_service : reply (after (.arm 1) State.reset) = [4, 0] := by decide +kernel

/-- R85: a manual duration of 100 000 s is clamped to 86 400 s, with CLAMPED in the marks. -/
theorem test_fanStart_clamps :
    let t := after (.fanStart 1 0 100000) (fanIn .coasting armed)
    (t.fan 0).manualDuration = some 86400 ∧ reply t = [0, 1, 5] := by decide +kernel

/-- R79: a running fan whose min-run has elapsed coasts at FAN STOP, its output off. -/
theorem test_fanStop_coasts :
    let s := fanIn .running armed
    let s := s.setFan 0 { s.fan 0 with output := true, minRunElapsed := true, claims := { Claims.empty with manual := true } }
    let t := after (.fanStop 1 0) s
    (t.fan 0).state = .coasting ∧ (t.fan 0).output = false ∧ (t.fan 0).coastTimer = some 30000 := by decide +kernel

/-- R9: CHANNEL HOLD starts the hold limit of 3600 s. -/
theorem test_channelHold :
    let t := after (.channelHold 1 0) (chanIn .tracking armed)
    (t.chan 0).state = .hold ∧ (t.chan 0).timer = some 3600000 := by decide +kernel

/-- Chapter 8, Commissioning a Sensor: ZERO at a mean of 18 sets B to 4608. -/
theorem test_zero :
    let s := chanIn .hold armed
    let s := s.setChan 0 { s.chan 0 with lastMean := some 18, windowCompleted := true }
    ((after (.zero 1 0) s).chan 0).baseline = 4608 := by decide +kernel

/-- R173: a fire time at room time itself has passed, so a one-shot is STALE; one millisecond later it is PENDING. -/
theorem test_schedule_stale_at_room_time :
    let f := fun n => ({ fire := n, action := 3, targetPresent := 0, target := 0, durationPresent := 0, duration := 0,
                         tagPresent := 1, mark := 7, interval := 0 } : ScheduleFields)
    ((after (.schedule 1 (f 5000)) (later 5000 ready)).slot 0).map (·.stale) = some true ∧
    ((after (.schedule 1 (f 5001)) (later 5000 ready)).slot 0).map (·.stale) = some false := by decide +kernel

/-- Chapter 1, A Loop Opening and Recovering: two codes below 400 are held, the third makes a loop fault. -/
theorem test_third_low_sample_faults :
    let s := chanIn .tracking armed
    let s2 := s.setChan 0 { s.chan 0 with oorCount := 2, lastValid := some 40 }
    ((after (.sampleEvent 0 180) s).chan 0).state = .tracking ∧ ((after (.sampleEvent 0 172) s2).chan 0).state = .fault .loopOpen ∧
    ((after (.sampleEvent 0 400) s2).chan 0).oorCount = 0 := by decide +kernel

/-- R119: a WET line makes a DRY probe WET-PENDING, and its debounce of 5 s makes it WET. -/
theorem test_probe_becomes_wet :
    let s := after (.probeLineChange 0 (.milliohms 500000)) (probeIn .dry .dry armed)
    (s.probe 0).state = some .wetPending ∧ (s.probe 0).debounceTimer = some 5000 ∧
    ((after (.wetDebounceExpiry 0) (later 5000 s)).probe 0).state = some .wet := by decide +kernel

/-- R115's table, at its limits of 100 Ω, 2 kΩ and 20 kΩ. -/
theorem test_comparator_limits :
    [LineResistance.milliohms 99999, .milliohms 100000, .milliohms 1999999, .milliohms 2000001, .milliohms 20000000,
      .milliohms 20000001, .unlimited].map classify = [.shorted, .wet, .wet, .dry, .dry, .opened, .opened] := by decide +kernel

/-- R188: with eight slots PENDING, the reply of READ SCHEDULE has the full payload of 240 bytes. -/
theorem test_readSchedule_fits :
    let r : Slot := { stale := false, anchor := 5000, fire := 5000, action := .start 2 60, interval := 60 }
    (reply (after (.readSchedule 1) (ready.setTime { ready.time with slots := .replicate 8 (some r) }))).length = 240 := by
  decide +kernel

/-- R88: FAN LOCK stops every timer of the state, FLOW NOTE's with them; R95: the flow still there starts its 10 s anew. -/
theorem test_fanLock_stops_the_note :
    let s := later 9000 (fanIn .idle armed)
    let s := s.setFan 0 { s.fan 0 with noteTimer := some 10000, flow := ⟨true, true, none⟩ }
    let t := after (.fanLock 1 0) s
    (t.fan 0).state = .lockout .manual ∧ (t.fan 0).noteTimer = some 19000 := by decide +kernel

/-- Chapter 9, Computing a Trim: under SLOW a carry holds room time for one millisecond. -/
theorem test_slow_carry :
    let s := ready.setTime { ready.time with acc := 16777215, rate := 34, sense := .slow }
    let t := after (.millisecond ⟨false, true, 0⟩) s
    t.time.clock = 1 ∧ t.time.room = 0 ∧ t.time.acc = 33 := by decide +kernel

/-- R180: at a power-on reset with straps 1 and 4 at run, fan 1 starts at once and fan 4 waits 5 s. -/
theorem test_failsafe_starts :
    let t := after (.powerOnReset ⟨0x12, ⟨false, false, 0⟩, .replicate 8 (.milliohms 10000000)⟩) ready
    (t.fan 1).output = true ∧ (t.fan 4).output = false ∧ t.setup.failsafeList = [4] ∧ t.setup.failsafeTimer = some 5000 := by
  decide +kernel

/-- R189: the bytes of a STATUS request with tag 7 are received, and R190: it is taken. -/
theorem test_status_frame :
    let t := ([0xC3, 0x02, 0x01, 0x07] ++ bytesBE 2 (crc16 [0x02, 0x01, 0x07]).toNat : List Byte).foldl
      (fun s b => after (.receivedByte b) s) ready
    (after .frameReceived t).link.outstanding.map (fun r => (r.kind, r.tag)) = some (0x81, 7) := by decide +kernel

/-- Chapter 11, A Full Queue: a notice that finds 32 queued is discarded, and the newest takes the overflow mark. -/
theorem test_full_queue :
    let n : Notice := ⟨0, .permitChange .normal, false⟩
    enqueue (List.replicate 32 n) n = List.replicate 31 n ++ [{ n with overflow := true }] := by decide +kernel

/-! ## States that meet the statements' hypotheses

One theorem for each statement that has hypotheses; the parts of its conjunction meet its clauses, at the ends of their ranges
where a clause has a range. -/

theorem test_met_StepTakesFrontCommand :
    (ready.withPending [.status 1, .arm 2]).pending = .status 1 :: [.arm 2] ∧ ready.pending = [] := by decide +kernel

theorem test_met_OneReplyPerRequest : requestOf (.setTime 9 5) = some (0x40, 9) ∧ ready.link.outstanding = none := by decide +kernel

theorem test_met_BusyPartDiscardsRequests :
    requestOf (.arm 9) = some (0x5E, 9) ∧
    (ready.sendReply ⟨0x81, 1, [0, 0]⟩).link.outstanding = some ⟨0x81, 1, [0, 0]⟩ := by decide +kernel

theorem test_met_EventsThatHaveNotComeChangeNothing :
    hasCome (chanIn .warmup armed) (.warmupExpiry 0) = false ∧ hasCome (later 99 (chanIn .warmup armed)) (.sampleEvent 0 800) = false ∧
    hasCome armed .spacingExpiry = false := by decide +kernel

theorem test_met_ServiceRequestsNeedService :
    requestOf (.arm 9) = some (0x5E, 9) ∧ State.reset.link.service.debounced = false ∧ State.reset.link.outstanding = none := by
  decide +kernel

theorem test_met_BadNumbersAndKindsAreRefused :
    ready.link.outstanding = none ∧ ready.link.service.debounced = true ∧ 16 ≤ (16 : Byte).toNat ∧ (16 : Byte) ≠ 0xFF ∧
    6 ≤ (6 : Byte).toNat ∧ 8 ≤ (8 : Byte).toNat ∧ 81 < (82 : Byte).toNat ∧ (82 : Byte) ≠ 0xFF ∧
    (∃ b ∈ [(0 : Byte), 5], 5 ≤ b.toNat) ∧ 4 ≤ (4 : Byte).toNat ∧
    (0x7F : Byte).toNat < 0x80 ∧ (0x7F : Byte) ∉ requestKinds := by decide +kernel

theorem test_met_ReportsLeaveAllButTheNoticesTheyReturn :
    (ready.notice (.permitChange .normal)).link.outstanding = none ∧
    (ready.notice (.permitChange .normal)).link.notices.length = 1 := by decide +kernel

theorem test_met_ReadChannelMarksFlagsSeen : (chanIn .tracking armed).link.outstanding = none := by decide +kernel

/-- Records in each of the three states, under the derived regime and permit. -/
def recorded : State :=
  let r := fun st : RecordState =>
    ({ state := st, severity := 2, peak := 2, raised := 0, cleared := none, value := none, repeats := 0 } : Record)
  let a := { armed.alarm with
    images := vset (vset armed.alarm.images 18 ⟨true, 2, none⟩) 19 ⟨true, 2, none⟩
    records := vset (vset (vset armed.alarm.records 18 (some (r .activeUnack))) 19 (some (r .activeAck))) 20
      (some (r .clearedUnack)) }
  armed.setAlarm { a with regime := regimeOf a, permit := permitOf a true }

theorem recorded_derived : DerivedLaw recorded := ⟨by decide +kernel, by decide +kernel⟩

theorem recorded_table : TableLaw recorded.alarm := by unfold TableLaw; decide +kernel

theorem test_met_AcknowledgeActsByRecordState :
    recorded.link.outstanding = none ∧ DerivedLaw recorded ∧ (18 : Byte) = indexByte (18 : Fin 82) ∧
    recorded.alarm.table.length = 3 := ⟨by decide +kernel, recorded_derived, by decide +kernel, by decide +kernel⟩

theorem test_met_ClearFlagsNeedsSeenMarks : (chanIn .tracking armed).link.outstanding = none := by decide +kernel

/-- CHANNEL NOTE is masked, and channel 0's note is active. -/
def noted : State :=
  recorded.setAlarm { recorded.alarm with
    maskChannelNote := true, images := vset recorded.alarm.images (keyChannelNote 0) (.raised 1 none) }

theorem test_met_MaskReplacesTheMaskSet :
    recorded.link.outstanding = none ∧ DerivedLaw recorded ∧ TableLaw recorded.alarm ∧
    (noted.link.outstanding = none ∧ DerivedLaw noted ∧ TableLaw noted.alarm ∧
      (noted.alarm.image (keyChannelNote 0)).active = true ∧ noted.alarm.masks .channelNote = true) ∧
    (∃ b ∈ [(9 : Byte)], 9 ≤ b.toNat) ∧ (∀ b ∈ [(4 : Byte), 3], b.toNat < 9) ∧ ∃ b ∈ [(4 : Byte), 3], b ≠ 4 ∧ b ≠ 8 :=
  ⟨by decide +kernel, recorded_derived, recorded_table,
   ⟨by decide +kernel, ⟨by decide +kernel, by decide +kernel⟩, by unfold TableLaw; decide +kernel, by decide +kernel,
    by decide +kernel⟩,
   by decide +kernel, by decide +kernel, by decide +kernel⟩

theorem test_met_LampTestRunsTenSeconds :
    ready.link.outstanding = none ∧
    (later 10000 (ready.setAlarm { ready.alarm with lampTimer := some 10000 })).alarm.lampTimer = some 10000 ∧
    10000 ≤ (later 10000 (ready.setAlarm { ready.alarm with lampTimer := some 10000 })).time.clock ∧
    ready.alarm.lampTimer = none := by decide +kernel

theorem test_met_TraceSelectsAndStartsAgain : ready.link.outstanding = none := by decide +kernel

/-- A fan with the MANUAL claim alone, running past its min-run. -/
def manualFan : State :=
  let s := fanIn .running armed
  s.setFan 0 { s.fan 0 with output := true, minRunElapsed := true, claims := { Claims.empty with manual := true } }

/-- Fan 0 in a state, with these claims and an exercise owed or not, the spacing timer running or not. -/
def claimedFan (st : FanState) (claims : Claims) (owed spaced : Bool) : State :=
  let s := later 1000 (fanIn st armed)
  let s := s.setFan 0 { s.fan 0 with claims := claims, exerciseOwed := owed }
  s.setArb { s.arb with
    spacing := if spaced then some 2000 else none
    waiting := vset s.arb.waiting 0 (if st = .waiting then some 500 else none) }

theorem claimedFan_laws : ∀ st ∈ [FanState.idle, .waiting], ∀ owed spaced,
    FanLaw (claimedFan st .empty owed spaced) ∧ DerivedLaw (claimedFan st .empty owed spaced) := by
  intro st hst owed spaced
  rcases List.mem_cons.mp hst with rfl | hst
  on_goal 2 => obtain rfl := List.mem_singleton.mp hst
  all_goals cases owed <;> cases spaced <;>
    constructor <;> constructor <;> decide +kernel

/-- Both outcomes of the consideration that a claim of fan 0 leads to: the spacing timer holds it up, or the fan is granted. -/
theorem claimedFan_choices : ∀ st ∈ [FanState.idle, .waiting], ∀ spaced,
    let s := claimedFan st .empty false spaced
    let claimed : Fan := { s.fan 0 with claims := { Claims.empty with manual := true }, manualDuration := some 60 }
    ∃ asked, StartAsked s 0 claimed asked ∧ asked.grantChoice = if spaced then none else some 0 := by
  intro st hst spaced
  rcases List.mem_cons.mp hst with rfl | hst
  on_goal 2 => obtain rfl := List.mem_singleton.mp hst
  · cases spaced <;> exact ⟨_, Or.inl ⟨by decide +kernel, rfl⟩, by decide +kernel⟩
  · cases spaced <;> exact ⟨_, Or.inr ⟨by decide +kernel, rfl⟩, by decide +kernel⟩

theorem test_met_FanStartClaimsTheFan :
    (armed.link.outstanding = none ∧ (armed.fan 0).cfg.present = false ∧
      (let s := fanIn .fault armed; (s.fan 0).cfg.present = true ∧ (s.fan 0).state = .fault) ∧
      (let s := fanIn .proving armed; (s.fan 0).cfg.present = true ∧ (s.fan 0).state = .proving) ∧
      (let s := fanIn .coasting armed; (s.fan 0).cfg.present = true ∧ (s.fan 0).takesClaims = true) ∧
      (let s := fanIn .running armed
       (s.fan 0).cfg.present = true ∧ (s.fan 0).state = .running ∧ (s.fan 0).claims.manual = false) ∧
      (manualFan.fan 0).state = .running ∧ (manualFan.fan 0).claims.manual = true ∧
      ∀ st ∈ [FanState.idle, .waiting],
        let s := claimedFan st { Claims.empty with manual := true } false false
        (s.fan 0).cfg.present = true ∧ (s.fan 0).claims.manual = true ∧ (s.fan 0).state = st ∧ s.link.outstanding = none) ∧
    (∀ st ∈ [FanState.idle, .waiting], ∀ spaced,
      let s := claimedFan st .empty false spaced
      s.link.outstanding = none ∧ (s.fan 0).cfg.present = true ∧ (s.fan 0).claims.manual = false) ∧
    (∀ st ∈ [FanState.idle, .waiting], ∀ spaced,
      let s := claimedFan st .empty false spaced
      let claimed : Fan := { s.fan 0 with claims := { Claims.empty with manual := true }, manualDuration := some 60 }
      ∃ asked, StartAsked s 0 claimed asked ∧ asked.grantChoice = if spaced then none else some 0) ∧
    (∀ st ∈ [FanState.idle, .waiting], ∀ owed spaced,
      FanLaw (claimedFan st .empty owed spaced) ∧ DerivedLaw (claimedFan st .empty owed spaced)) :=
  ⟨by decide +kernel, by decide +kernel, claimedFan_choices, claimedFan_laws⟩

theorem test_met_FanStopReleasesTheFan :
    (armed.link.outstanding = none ∧ (armed.fan 0).cfg.present = false ∧
      (let s := fanIn .running armed; (s.fan 0).cfg.present = true ∧ (s.fan 0).claims.manual = false) ∧
      (manualFan.fan 0).cfg.present = true ∧ (manualFan.fan 0).claims.manual = true ∧ (manualFan.fan 0).state = .running ∧
      (manualFan.fan 0).minRunElapsed = true ∧ (manualFan.fan 0).claims.anyZone = false ∧
      (manualFan.fan 0).claims.exercise = false ∧ manualFan.requestTime 0 = none) ∧
    (∀ st ∈ [FanState.proving, .running, .idle, .coasting, .waiting], ∀ owed,
      let s := claimedFan st { Claims.empty with manual := true } owed true
      s.link.outstanding = none ∧ (s.fan 0).cfg.present = true ∧ (s.fan 0).claims.manual = true ∧ (s.fan 0).state = st ∧
      (s.fan 0).minRunElapsed = false ∧ (s.fan 0).claims.anyZone = false ∧ (s.fan 0).claims.exercise = false ∧
      (s.fan 0).exerciseOwed = owed ∧ s.alarm.regime = .normal) ∧
    (∀ st ∈ [FanState.running, .waiting], ∀ spaced,
      let s := claimedFan st { Claims.empty with manual := true, exercise := true } false spaced
      s.link.outstanding = none ∧ (s.fan 0).cfg.present = true ∧ (s.fan 0).claims.manual = true ∧ (s.fan 0).state = st ∧
      (s.fan 0).claims.exercise = true ∧
      (s.setFan 0 { s.fan 0 with claims := { Claims.empty with exercise := true } }).grantChoice =
        if spaced || decide (st = .running) then none else some 0) ∧
    (∀ spaced,
      let s := claimedFan .idle .empty true spaced
      let exercised : Fan := { s.fan 0 with exerciseOwed := false, claims := { Claims.empty with exercise := true } }
      ∃ asked, StartAsked s 0 exercised asked ∧ asked.grantChoice = if spaced then none else some 0) := by
  refine ⟨by decide +kernel, by decide +kernel, by decide +kernel, fun spaced => ?_⟩
  cases spaced <;> exact ⟨_, Or.inl ⟨by decide +kernel, rfl⟩, by decide +kernel⟩

/-- Channel 0 is a member of zone 2, whose fan order is 3, 1. -/
def zoned (st : ChannelState) : State :=
  let s := chanIn st armed
  let s := s.setChan 0 { s.chan 0 with cfg := { (s.chan 0).cfg with zone := some 2 } }
  s.setZone 2 { s.zone 2 with active := true, cfg := { (s.zone 2).cfg with order := [3, 1], needPurge := 2 } }

/-- Zone 2, which sees no gas, claims fan 3 of its order 3, 1: the fan runs past its min-run, and fan 1 is idle. -/
def claiming : State :=
  let s := zoned .tracking
  let s := s.setChan 0 { s.chan 0 with reading := some 0 }
  let s := s.setZone 2 { s.zone 2 with
    sight := some .seeing, voted := some 0, demand := some .idle, claims := [3]
    cfg := { (s.zone 2).cfg with needIdle := 1, needBase := 1, needBoost := 1 } }
  let s := s.setFan 1 { s.fan 1 with state := .idle, cfg := { (s.fan 1).cfg with present := true } }
  s.setFan 3 { s.fan 3 with
    state := .running, output := true, minRunElapsed := true, cfg := { (s.fan 3).cfg with present := true }
    claims := { Claims.empty with zones := vset Claims.empty.zones 2 true } }

theorem claiming_laws : FanLaw claiming ∧ DerivedLaw claiming ∧ ClaimLaw claiming ∧ ImageLaw claiming ∧ TableLaw claiming.alarm :=
  ⟨by constructor <;> decide +kernel, by constructor <;> decide +kernel, by constructor <;> decide +kernel,
   by constructor <;> decide +kernel, by unfold TableLaw; decide +kernel⟩

/-- The zones of that state show what their members, their probes and the regime give. -/
theorem claiming_zones : ZoneLaw claiming :=
  have spill : ∀ z, claiming.spillIn z = (claiming.zone z).spill := by decide +kernel
  ⟨by decide +kernel, by decide +kernel, fun z _ => by rw [← State.spillIn_iff, spill], by decide +kernel⟩

/-- R32, R45 to R48, R54: a completion with a reading of 1000 takes its zone to g = 3 and PURGE, and with it the regime to CRITICAL. -/
theorem test_completion_reaches_zone :
    let s := after (.sampleEvent 0 800)
      (claiming.setChan 0 { claiming.chan 0 with windowCount := 4, windowSum := 100000 })
    (s.zone 2).voted = some 1000 ∧ (s.zone 2).gas = 3 ∧ (s.zone 2).demand = some .purge ∧ s.alarm.regime = .critical := by
  decide +kernel

/-- Fan 1, which zone 2 misses where it needs two fans, is in FAULT or LOCKOUT, with an exercise owed or not, the spacing timer
running or not. -/
def freeable (st : FanState) (needs : Nat) (owed spaced : Bool) : State :=
  let s := claiming.setZone 2 { claiming.zone 2 with
    shortfall := decide (1 < needs), cfg := { (claiming.zone 2).cfg with needIdle := needs } }
  let s := s.setArb { s.arb with spacing := if spaced then some 1000 else none }
  s.setFan 1 { s.fan 1 with state := st, retryTimer := some 0, retriesLeft := 1, exerciseOwed := owed }

theorem freeable_laws : ∀ st ∈ [FanState.fault, .lockout .manual], ∀ needs ∈ [1, 2], ∀ owed spaced,
    FanLaw (freeable st needs owed spaced) ∧ DerivedLaw (freeable st needs owed spaced) ∧
    ClaimLaw (freeable st needs owed spaced) := by
  intro st hst needs hn owed spaced
  rcases List.mem_cons.mp hst with rfl | hst
  on_goal 2 => obtain rfl := List.mem_singleton.mp hst
  all_goals
    rcases List.mem_cons.mp hn with rfl | hn
    on_goal 2 => obtain rfl := List.mem_singleton.mp hn
    all_goals cases owed <;> cases spaced <;> refine ⟨?_, ?_, ?_⟩ <;> constructor <;> decide +kernel

/-- R57, R84, R91: just the zone that misses the fan claims it, and the fan is granted where no spacing runs. -/
theorem freeable_goes_on : ∀ needs ∈ [1, 2], ∀ owed spaced,
    let t := after (.retryExpiry 1) (freeable .fault needs owed spaced)
    vget (t.fan 1).claims.zones 2 = decide (needs = 2) ∧ (t.fan 1).claims.exercise = owed ∧
    (t.fan 1).retriesLeft = 0 ∧
    (t.fan 1).state = if needs = 1 ∧ owed = false then .idle else if spaced then .waiting else .proving := by decide +kernel

theorem test_met_FanLockAndReleaseMoveTheFan :
    (armed.link.outstanding = none ∧ armed.link.service.debounced = true ∧ (armed.fan 0).cfg.present = false ∧
    (let s := fanIn .unmanaged armed; (s.fan 0).cfg.present = true ∧ (s.fan 0).state = .unmanaged) ∧
    (let s := fanIn .waiting armed; (s.fan 0).state ≠ .unmanaged ∧ (s.fan 0).state ≠ .lockout .manual ∧
      (s.fan 0).state ≠ .lockout .retries) ∧
    (let s := later 30999 (fanIn (.lockout .retries) armed)
     let s := s.setFan 0 { s.fan 0 with offTime := some 1000 }
     (s.fan 0).cfg.present = true ∧ (s.fan 0).state = .lockout .retries ∧ (s.fan 0).offTime = some 1000 ∧
      s.time.clock < 1000 + 1000 * (s.fan 0).cfg.coast) ∧
    (let s := later 31000 (fanIn (.lockout .retries) armed)
     1000 + 1000 * (s.fan 0).cfg.coast ≤ s.time.clock)) ∧
    (∀ needs ∈ [1, 2], ∀ owed spaced,
      let s := freeable (.lockout .manual) needs owed spaced
      s.link.outstanding = none ∧ s.link.service.debounced = true ∧ (s.fan 1).cfg.present = true ∧
      (s.fan 1).state = .lockout .manual ∧ (s.fan 1).offTime = none ∧ (Misses s 2 1 ↔ needs = 2) ∧ ¬Misses s 0 1) ∧
    ∀ st ∈ [FanState.fault, .lockout .manual], ∀ needs ∈ [1, 2], ∀ owed spaced,
      FanLaw (freeable st needs owed spaced) ∧ DerivedLaw (freeable st needs owed spaced) ∧
      ClaimLaw (freeable st needs owed spaced) :=
  ⟨by decide +kernel, by unfold Misses; decide +kernel, freeable_laws⟩

theorem test_met_RotateMovesTheFirstFanLast :
    (ready.link.outstanding = none ∧ ready.setup.armed = false ∧ armed.setup.armed = true ∧ armed.members 2 = [] ∧
      claiming.link.outstanding = none ∧ claiming.setup.armed = true ∧ claiming.members 2 ≠ []) ∧
    FanLaw claiming ∧ DerivedLaw claiming ∧ ClaimLaw claiming :=
  ⟨by decide +kernel, claiming_laws.1, claiming_laws.2.1, claiming_laws.2.2.1⟩

theorem test_met_ChannelHoldAndResumeMoveTheChannel :
    armed.link.outstanding = none ∧ armed.link.service.debounced = true ∧ ((chanIn .warmup armed).chan 0).state = .warmup ∧
    ((chanIn .hold armed).chan 0).state = .hold ∧ ((chanIn .bump armed).chan 0).state = .bump ∧
    ((chanIn .recover armed).chan 0).state ≠ .hold := by decide +kernel

/-- Channel 0 with a last mean, in a state; its zero band is 100. -/
def meaned (st : ChannelState) (m : Int) : State :=
  let s := chanIn st armed
  s.setChan 0 { s.chan 0 with lastMean := some m, windowCompleted := true }

theorem test_met_ZeroSetsTheBaseline :
    (meaned .hold 100).link.outstanding = none ∧ (meaned .hold 100).link.service.debounced = true ∧
    ((meaned .tracking 100).chan 0).state ≠ .hold ∧ ((chanIn .hold armed).chan 0).windowCompleted = false ∧
    ((meaned .hold 101).chan 0).lastMean = some 101 ∧ (((meaned .hold 101).chan 0).cfg.zeroBand : Int) < |(101 : Int)| ∧
    |(-100 : Int)| ≤ (((meaned .hold (-100)).chan 0).cfg.zeroBand : Int) ∧
    ((meaned (.fault .drift) 100).chan 0).state = .fault .drift := by decide +kernel

theorem test_met_SpanArmsAndBumpStarts :
    armed.link.outstanding = none ∧ armed.link.service.debounced = true ∧ (99 : BitVec 16).toNat < 100 ∧
    1000 < (1001 : BitVec 16).toNat ∧ 100 ≤ (100 : BitVec 16).toNat ∧ (1000 : BitVec 16).toNat ≤ 1000 ∧
    ((chanIn .hold armed).chan 0).state = .hold ∧ ((chanIn .tracking armed).chan 0).state = .tracking ∧
    ((chanIn (.fault .bumpFail) armed).chan 0).state = .fault .bumpFail := by decide +kernel

/-- Slot 3 waits for an instant of room time with a MARK. -/
def slotted (fire interval : Nat) : State :=
  ready.setSlot 3 (some { stale := false, anchor := fire, fire := fire, action := .mark 7, interval := interval })

/-- Slot 3 alone is PENDING, for an instant that the state's room time has reached, with an action. -/
def firing (a : Action) (s : State) : State :=
  s.setSlot 3 (some { stale := false, anchor := 0, fire := 0, action := a, interval := 0 })

theorem firing_slot (a : Action) (s : State) :
    (firing a s).slot 3 = some { stale := false, anchor := 0, fire := 0, action := a, interval := 0 } :=
  State.setSlot_slot_same ..

theorem firing_slot_ne (a : Action) (s : State) {j : Fin 8} (h : j ≠ 3) : (firing a s).slot j = s.slot j := by
  rw [firing, State.setSlot_slot, if_neg h.symm]

/-- Every action that a slot performs finds its block: a fan of each state that matters, a used zone. -/
theorem firing_performs :
    armed.outcomeOf (.exercise 0) = .notPresent ∧ ready.outcomeOf (.exercise 0) = .unarmed ∧
    (fanIn .running armed).outcomeOf (.start 0 60) = .performed ∧ ((fanIn .running armed).fan 0).claims.manual = false ∧
    (fanIn .coasting armed).outcomeOf (.start 0 0) = .performed ∧ (zoned .tracking).outcomeOf (.rotate 2) = .performed ∧
    (fanIn .running armed).outcomeOf (.exercise 0) = .performed ∧ (fanIn .coasting armed).outcomeOf (.exercise 0) = .performed ∧
    (fanIn .idle armed).outcomeOf (.exercise 0) = .performed ∧ ((fanIn .idle armed).fan 0).state = .idle ∧
    (fanIn .idle armed).alarm.regime = .normal ∧ ((fanIn .idle armed).fan 0).claims.exercise = false := by decide +kernel

/-- Slot 3 rotates zone 2, which claims a fan of its order. -/
def rotating : State := firing (.rotate 2) claiming

theorem rotating_laws : FanLaw rotating ∧ DerivedLaw rotating ∧ ClaimLaw rotating :=
  have ⟨f, d, c, _⟩ := claiming_laws
  ⟨⟨f.1, f.2, f.3, f.4, f.5, f.6⟩, ⟨d.1, d.2⟩, ⟨c.1, c.2, c.3, c.4, c.5, c.6, c.7, c.8, c.9, c.10, c.11⟩⟩

/-- The state before an invariant's step: ARMED, a present fan that is idle, a probe that is dry, a command waiting. -/
def lawful : State := (probeIn .dry .dry (fanIn .idle armed)).withPending [.status 1]

theorem lawful_fans : FanLaw lawful :=
  by constructor <;> decide +kernel

theorem test_met_SetTimeFiresThePassedSlots :
    ((slotted 5000 60).link.outstanding = none ∧ (slotted 5000 60).link.service.debounced = true ∧
      slotDue 5000 ((slotted 5000 60).slot 3) = true ∧ ∀ k, slotDue 4999 ((slotted 5000 60).slot k) = false) ∧
    FanLaw lawful ∧ lawful.link.outstanding = none ∧
    (∀ a : Action, ((firing a lawful).slot 3).isSome = true ∧ slotDue 0 ((firing a lawful).slot 3) = true) ∧
    (∀ j : Fin 8, j ≠ 3 → ∀ a : Action, slotDue 0 ((firing a lawful).slot j) = false) ∧
    FanLaw rotating ∧ DerivedLaw rotating ∧ ClaimLaw rotating ∧ rotating.outcomeOf (.rotate 2) = .performed ∧
    (∀ k, slotDue 0 (rotating.slot k) = decide (k = 3)) :=
  ⟨by decide +kernel, lawful_fans, by decide +kernel, fun a => by rw [firing_slot]; exact ⟨rfl, rfl⟩, by
    intro j hj a
    rw [firing_slot_ne a lawful hj]; revert j; decide +kernel,
   rotating_laws.1, rotating_laws.2.1, rotating_laws.2.2, by decide +kernel, by decide +kernel⟩

theorem test_met_SetTrimReplacesRateAndSense :
    State.reset.link.outstanding = none ∧ State.reset.link.service.debounced = false ∧ ready.link.service.debounced = true ∧
    (2 : Byte) ≠ 0 ∧ (2 : Byte) ≠ 1 ∧ (1 : Byte) = Sense.code .slow ∧ ready.time.rate = 0 ∧ ready.time.acc < 16777216 ∧
    (let s := fun sense => ready.setTime { ready.time with acc := 16777215, rate := 1, sense := sense }
     16777216 ≤ (s .fast).time.acc + (s .fast).time.rate ∧ (s .fast).time.sense = .fast ∧ (s .slow).time.sense = .slow) := by
  decide +kernel

/-- A SCHEDULE of MARK 7 for an instant, with a repeat interval. -/
def markAt (fire : BitVec 48) (interval : BitVec 24) : ScheduleFields :=
  { fire := fire, action := 3, targetPresent := 0, target := 0, durationPresent := 0, duration := 0
    tagPresent := 1, mark := 7, interval := interval }

theorem markAt_gives (fire : BitVec 48) (interval : BitVec 24) : ScheduleGives (markAt fire interval) (.mark 7) :=
  ⟨false, false, true, Or.inl ⟨rfl, rfl⟩, Or.inl ⟨rfl, rfl⟩, Or.inr ⟨rfl, rfl⟩, Or.inr (Or.inr (Or.inr ⟨rfl, rfl, rfl⟩))⟩

/-- A SCHEDULE of a START of fan 0 that names a duration, and an action's code above the last. -/
theorem scheduleGives_ends :
    ScheduleGives { markAt 5 0 with action := 1, targetPresent := 1, durationPresent := 1, duration := 100000 }
      (.start 0 86400) ∧
    ∀ action, ¬ScheduleGives { markAt 5 0 with action := 4 } action := by
  refine ⟨⟨true, true, true, Or.inr ⟨rfl, rfl⟩, Or.inr ⟨rfl, rfl⟩, Or.inr ⟨rfl, rfl⟩,
    Or.inr (Or.inl ⟨rfl, rfl, rfl, 0, rfl, rfl⟩)⟩, fun action h => ?_⟩
  obtain ⟨_, _, _, -, -, -, h | h | h | h⟩ := h <;> exact absurd h.1 (by decide)

theorem test_met_ScheduleTakesTheLowestFreeSlot :
    ((∀ fire interval, ScheduleGives (markAt fire interval) (.mark 7)) ∧
      ScheduleGives { markAt 5 0 with action := 1, targetPresent := 1, durationPresent := 1, duration := 100000 }
        (.start 0 86400) ∧
      ∀ action, ¬ScheduleGives { markAt 5 0 with action := 4 } action) ∧
    (ready.link.outstanding = none ∧ TargetPresent ready (.mark 7) ∧ ¬TargetPresent ready (.exercise 0) ∧
      ¬TargetPresent ready (.rotate 2) ∧ TargetPresent (zoned .tracking) (.rotate 2) ∧
      TargetPresent (fanIn .idle ready) (.start 0 60) ∧ TargetPresent (fanIn .idle ready) (.exercise 0) ∧
      ready.slot 0 = none ∧ (later 4 ready).time.room < (markAt 5 0).fire.toNat ∧
      (markAt 5 0).fire.toNat ≤ (later 5 ready).time.room ∧ (markAt 5 0).interval.toNat = 0 ∧
      (markAt 5 1).interval.toNat ≠ 0 ∧ (markAt 5 1).interval.toNat < 60 ∧ 604800 < (markAt 5 604801).interval.toNat ∧
      (let s := later 5 ready; s.time.room < 60005 ∧ 60005 = 5 + 1 * (1000 * 60) ∧ 60005 ≤ s.time.room + 1000 * 60) ∧
      (let last := 2 ^ 48 - 1
       let s := later last ready
       s.time.room = last ∧ (markAt 281474976710655 60).fire.toNat = last ∧ s.time.room < last + 60000 ∧ 2 ^ 48 ≤ last + 60000) ∧
      (let s := ready.setTime { ready.time with slots := .replicate 8 (slotted 5 0 |>.slot 3) }
       ∀ k, (s.slot k).isSome = true)) :=
  ⟨⟨markAt_gives, scheduleGives_ends⟩, by unfold TargetPresent InUse; decide +kernel⟩

theorem test_met_CancelFreesTheSlot :
    ready.link.outstanding = none ∧ 8 ≤ (8 : Byte).toNat ∧ (slotted 5000 0).link.outstanding = none ∧
    ∀ j : Fin 8, j < 0 → ((slotted 5000 0).slot j).isSome = true := by decide +kernel

/-- Channels 1 to 4 are the members of zone 2. -/
def fullZone : State :=
  [1, 2, 3, 4].foldl (fun s i => s.setChan i { s.chan i with cfg := { (s.chan i).cfg with enabled := true, zone := some 2 } }) ready

theorem test_met_SetRequestsReplaceOneRecord :
    (ready.link.outstanding = none ∧ ready.link.service.debounced = true ∧ ready.setup.armed = false ∧
      armed.link.outstanding = none ∧ armed.link.service.debounced = true ∧ armed.setup.armed = true) ∧
    ((∃ c, ChannelGives ⟨1, 5, 3, 50, 65535, 15, 200, 1, 2, 3, 4, 800, 900, 204800, 1000, 300⟩ c) ∧
      (∃ c, ChannelGives ⟨1, 2, 0, 5, 1, 0, 0, 1, 2, 3, 4, 0, 0, -204800, 50, 10⟩ c ∧ c.enabled = true ∧ c.zone = some 2) ∧
      4 ≤ ((List.finRange 16).filter fun j => decide (j ≠ 0) && (fullZone.chan j).cfg.enabled
        && decide ((fullZone.chan j).cfg.zone = some 2)).length ∧ fullZone.setup.armed = false) ∧
    ((∃ p, ProfileGives (.replicate 10 16383) p) ∧ (∃ p, ProfileGives (.replicate 10 (-16383)) p) ∧
      (∃ c, ZoneRecordGives ⟨1, [0, 7], 0, 1, 2, 2, 1, 1, 2, 1000, 0, 10, 1, 3600⟩ c) ∧
      (∃ c, FanGives ⟨1, 1, 5, 2, 1800, 600, 3, 720, 30⟩ c) ∧ (∃ c, ProbeGives ⟨1, 5, 60, 5⟩ c) ∧
      ArbiterGives ⟨1, 300, 30⟩ 1 300 30) ∧
    ((∀ c, ¬ChannelGives ⟨1, 6, 3, 50, 65535, 15, 200, 1, 2, 3, 4, 800, 900, 204800, 1000, 300⟩ c) ∧
      (∀ p, ¬ProfileGives (.replicate 10 16384) p) ∧
      (∀ c, ¬ZoneRecordGives ⟨1, [7, 7], 0, 1, 2, 2, 1, 1, 2, 1000, 0, 10, 1, 3600⟩ c) ∧
      (∀ c, ¬FanGives ⟨1, 1, 4, 2, 1800, 600, 3, 720, 30⟩ c) ∧ (∀ c, ¬ProbeGives ⟨1, 5, 61, 5⟩ c) ∧
      (∀ k w g, ¬ArbiterGives ⟨1, 4, 30⟩ k w g) ∧ 16 ≤ (16 : Byte).toNat ∧ 8 ≤ (8 : Byte).toNat) ∧
    ((List.finRange 16).filter fun i => decide (((zoned .tracking).chan i).cfg.profile = 0)
      && decide (((zoned .tracking).chan i).state ∈ [.warmup, .tracking, .bump, .recover])) = [0] := by
  have none_of {α β : Type} {read : α → Option β} {gives : α → β → Prop} (h : ∀ f c, read f = some c ↔ gives f c) {f : α}
      (hf : read f = none) (c : β) : ¬gives f c := fun hc => by rw [(h f c).mpr hc] at hf; cases hf
  have some_of {α β : Type} {read : α → Option β} {gives : α → β → Prop} (h : ∀ f c, read f = some c ↔ gives f c) {f : α}
      (hf : (read f).isSome = true) : ∃ c, gives f c :=
    (Option.isSome_iff_exists.mp hf).imp fun c hc => (h f c).mp hc
  refine ⟨by decide +kernel, ⟨some_of (fun _ _ => ChannelFields_read_eq_some) (by decide +kernel), ?_, by decide +kernel⟩,
    ⟨some_of (fun _ _ => readProfile_eq_some) (by decide +kernel), some_of (fun _ _ => readProfile_eq_some) (by decide +kernel),
      some_of (fun _ _ => ZoneFields_read_eq_some) (by decide +kernel), some_of (fun _ _ => FanFields_read_eq_some) (by decide +kernel),
      some_of (fun _ _ => ProbeFields_read_eq_some) (by decide +kernel), ArbiterFields_read_eq_some.mp (by decide +kernel)⟩,
    ⟨none_of (fun _ _ => ChannelFields_read_eq_some) (by decide +kernel), none_of (fun _ _ => readProfile_eq_some) (by decide +kernel),
      none_of (fun _ _ => ZoneFields_read_eq_some) (by decide +kernel), none_of (fun _ _ => FanFields_read_eq_some) (by decide +kernel),
      none_of (fun _ _ => ProbeFields_read_eq_some) (by decide +kernel), fun k w g => ?_, by decide +kernel⟩, by decide +kernel⟩
  · obtain ⟨c, hc⟩ : ∃ c, ChannelFields.read ⟨1, 2, 0, 5, 1, 0, 0, 1, 2, 3, 4, 0, 0, -204800, 50, 10⟩ = some c ∧
        c.enabled = true ∧ c.zone = some 2 := ⟨_, rfl, rfl, rfl⟩
    exact ⟨c, ChannelFields_read_eq_some.mp hc.1, hc.2⟩
  · exact none_of (fun f x => @ArbiterFields_read_eq_some f x.1 x.2.1 x.2.2) (f := ⟨1, 4, 30⟩) (by decide +kernel) (k, w, g)

/-- A configuration that ARM accepts: channel 0 in zone 2, fans 1 and 3, probe 0. -/
def configured : State :=
  let s := ((zoned .off).setSetup Setup.reset).setAlarm .reset
  let s := s.setZone 2 { s.zone 2 with active := false }
  let s := s.setFan 1 { s.fan 1 with cfg := { (s.fan 1).cfg with present := true } }
  let s := s.setFan 3 { s.fan 3 with cfg := { (s.fan 3).cfg with present := true } }
  s.setProbe 0 { s.probe 0 with cfg := { (s.probe 0).cfg with present := true, zone := some 2 } }

/-- The same, with fan 3's output on since its failsafe start, and fan 5 present beside it. -/
def configuredOn (minRun : Nat) (flow : Bool) : State :=
  let s := configured.setSetup { configured.setup with
    straps := vset configured.setup.straps 3 true, failsafeMade := vset configured.setup.failsafeMade 3 true }
  let s := s.setFan 5 { s.fan 5 with cfg := { (s.fan 5).cfg with present := true } }
  s.setFan 3 { s.fan 3 with
    output := true, flow := ⟨flow, flow, none⟩, cfg := { (s.fan 3).cfg with minRun := minRun } }

theorem configuredOn_laws : ∀ n ∈ [0, 60], ∀ flow,
    FanLaw (configuredOn n flow) ∧ DerivedLaw (configuredOn n flow) ∧ ClaimLaw (configuredOn n flow) ∧
    ImageLaw (configuredOn n flow) := by
  intro n hn flow
  rcases List.mem_cons.mp hn with rfl | hn
  on_goal 2 => obtain rfl := List.mem_singleton.mp hn
  all_goals
    cases flow <;>
    refine ⟨?_, ?_, ?_, ?_⟩ <;> constructor <;> decide +kernel

theorem configured_laws : FanLaw configured ∧ DerivedLaw configured ∧ ClaimLaw configured ∧ ImageLaw configured := by
  refine ⟨?_, ?_, ?_, ?_⟩ <;> constructor <;> decide +kernel

/-- R183's table has six items, and no record it names has a number above 15. -/
theorem failsItem_bounds {s : State} {item index : Nat} (h : FailsItem s item index) : item < 7 ∧ index < 16 := by
  rcases h with ⟨rfl, i, rfl, -⟩ | ⟨rfl, i, rfl, -⟩ | ⟨rfl, i, rfl, -⟩ | ⟨rfl, i, rfl, -⟩ | ⟨rfl, i, rfl, -⟩ | ⟨rfl, i, rfl, -⟩ <;>
    constructor <;> omega

def failsDecidable (s : State) (item index : Nat) : Decidable (FailsItem s item index) := by
  unfold FailsItem InUse
  exact inferInstance

/-- Whether a record fails an item, as a computation. -/
def fails (s : State) (item index : Nat) : Bool := @decide _ (failsDecidable s item index)

theorem fails_iff {s : State} {item index : Nat} : fails s item index = true ↔ FailsItem s item index := by
  unfold fails; exact @decide_eq_true_iff _ (failsDecidable _ _ _)

theorem failsFirst_of {s : State} {item index : Nat} (h : fails s item index = true ∧
    (∀ e < item, ∀ n < 16, fails s e n = false) ∧ ∀ n < index, fails s item n = false) : FailsFirst s item index := by
  refine ⟨fails_iff.mp h.1, fun e he n f => ?_, fun n hn f => ?_⟩
  · exact absurd (fails_iff.mpr f) (by simp [h.2.1 e he n (failsItem_bounds f).2])
  · exact absurd (fails_iff.mpr f) (by simp [h.2.2 n hn])

theorem failsNone_of {s : State} (h : ∀ e < 7, ∀ n < 16, fails s e n = false) (item index : Nat) : ¬FailsItem s item index :=
  fun f => absurd (fails_iff.mpr f) (by simp [h item (failsItem_bounds f).1 index (failsItem_bounds f).2])

/-- Zone 2's record of a configuration that ARM accepts, changed. -/
def misconfigured (change : ZoneCfg → ZoneCfg) : State :=
  configured.setZone 2 { configured.zone 2 with cfg := change (configured.zone 2).cfg }

/-- Each item of R183's table is the first that some configuration fails. -/
theorem misconfigured_fails :
    FailsFirst (configured.setChan 0 { configured.chan 0 with cfg := { (configured.chan 0).cfg with zone := none } }) 1 0 ∧
    FailsFirst (misconfigured fun c => { c with order := [] }) 2 2 ∧
    FailsFirst (configured.setFan 1 { configured.fan 1 with cfg := { (configured.fan 1).cfg with present := false } }) 3 2 ∧
    FailsFirst (misconfigured fun c => { c with needPurge := 0 }) 4 2 ∧
    FailsFirst (configured.setProbe 0 { configured.probe 0 with cfg := { (configured.probe 0).cfg with zone := some 0 } }) 5 0 ∧
    FailsFirst (misconfigured fun c => { c with t2 := c.t1 }) 6 2 := by
  refine ⟨?_, ?_, ?_, ?_, ?_, ?_⟩ <;> exact failsFirst_of (by decide +kernel)

theorem test_met_ArmPlacesEveryBlock :
    (configured.link.outstanding = none ∧ configured.link.service.debounced = true ∧ configured.setup.armed = false ∧
      armed.setup.armed = true ∧
      (configured.zone 2).cfg.order = [3] ++ 1 :: [] ∧ (configured.fan 3).cfg.present = true ∧ 0 < configured.arb.k ∧
      (configured.fan 1).output = false ∧ (configured.fan 3).output = false ∧
      ((after (.arm 1) configured).fan 1).claims.none_ = false ∧ ((after (.arm 1) configured).fan 3).claims.none_ = false ∧
      (after (.arm 1) configured).arb.lastGrant = some (3, 0) ∧ configured.used 2 = true ∧
      configured.used 0 = false ∧ (configured.zone 0).active = false ∧ (configured.chan 0).cfg.enabled = true) ∧
    (∀ n ∈ [0, 60], ∀ flow, FanLaw (configuredOn n flow) ∧ DerivedLaw (configuredOn n flow) ∧
      ClaimLaw (configuredOn n flow) ∧ ImageLaw (configuredOn n flow)) ∧
    (FanLaw configured ∧ DerivedLaw configured ∧ ClaimLaw configured ∧ ImageLaw configured) ∧
    (∀ item index, ¬FailsItem configured item index) ∧
    (∀ n ∈ [0, 60], ∀ flow item index, ¬FailsItem (configuredOn n flow) item index) ∧
    ∀ n ∈ [0, 60], ∀ flow, let s := configuredOn n flow
      s.link.outstanding = none ∧ s.link.service.debounced = true ∧ s.setup.armed = false ∧
      (s.fan 0).cfg.present = false ∧ (s.fan 1).cfg.present = true ∧ (s.fan 1).output = false ∧
      (s.fan 3).cfg.present = true ∧ (s.fan 3).output = true ∧ (s.fan 3).cfg.minRun = n ∧ (s.fan 3).flow.debounced = flow ∧
      (s.fan 5).cfg.present = true ∧ (∀ z, 5 ∉ (s.zone z).cfg.order) ∧ s.used 2 = true ∧
      ((after (.arm 1) s).fan 3).claims.none_ = false :=
  ⟨by decide +kernel, configuredOn_laws, configured_laws, failsNone_of (by decide +kernel),
   fun n hn flow => by
    apply failsNone_of
    revert flow n
    decide +kernel,
   by decide +kernel⟩

theorem test_met_DisarmClearsEveryBlock :
    armed.link.outstanding = none ∧ armed.link.service.debounced = true ∧ armed.setup.armed = true ∧ ready.setup.armed = false := by
  decide +kernel

/-- Fans 4 and 6 wait for their failsafe starts. -/
def failsafe : State :=
  later 5000 (ready.setSetup { Setup.reset with failsafeList := [4, 6], failsafeTimer := some 5000 })

theorem test_met_PowerOnResetAndFailsafeStarts :
    failsafe.setup.failsafeTimer = some 5000 ∧ 5000 ≤ failsafe.time.clock ∧ failsafe.setup.failsafeList = 4 :: [6] := by
  decide +kernel

theorem test_met_DefaultRoundingIsNearestTiesAway :
    (0 < 2) ∧ 2 * |(3 : Int) - roundAway 3 2 * (2 : Nat)| = (2 : Nat) := by decide +kernel

theorem test_met_BaselineStepRoundsTiesTowardZero :
    let c : Channel := { Channel.reset with
      cfg := { ChannelCfg.reset with cku := 65535, cnu := 655, trackLimit := 20 }, baseline := 0 }
    (c.cfg.trackLimit : Int) ≤ c.cfg.trackLimit ∧ (c.cfg.trackLimit : Int) - 1 < c.cfg.trackLimit ∧
    0 < 256 * (1 : Int) - c.baseline ∧ 256 * (0 : Int) - c.baseline ≤ 0 ∧ c.cfg.trackCoefficient 20 256 = 65535 ∧
    c.cfg.trackCoefficient 19 256 = 655 ∧ (655 : Int) * |50| ≤ 32768 := by decide +kernel

theorem test_met_ValidSampleIsFed :
    let s := chanIn .tracking armed
    s.samples 0 = true ∧ 400 ≤ (400 : BitVec 12).toNat ∧ (4080 : BitVec 12).toNat ≤ 4080 ∧
    (s.chan 0).state ≠ .fault .loopOpen ∧ (s.chan 0).state ≠ .fault .loopOver ∧
    (s.chan 0).windowCount + 1 < (s.chan 0).cfg.window := by decide +kernel

theorem test_met_WindowCompletionActsByState :
    ∀ st ∈ [ChannelState.off, .warmup, .tracking, .hold, .bump, .recover, .fault .drift],
    ∀ span ∈ [none, some 500], ∀ traced ∈ [none, some (0 : Fin 16)],
    let s := zoned st
    let s := s.setChan 0 { s.chan 0 with windowCount := 4, oorCount := 1, lastValid := some 40, armedSpan := span }
    let s := s.setLink { s.link with traceChannel := traced, traceIndex := 9 }
    (s.samples 0 = decide (st ≠ .off)) ∧ (s.chan 0).cfg.enabled = true ∧ (s.chan 0).cfg.zone = some 2 ∧
    (s.zone 2).active = true ∧ (s.chan 0).state ≠ .fault .loopOpen ∧ (s.chan 0).state ≠ .fault .loopOver ∧
    (s.chan 0).windowCount + 1 = (s.chan 0).cfg.window ∧ 400 ≤ (400 : BitVec 12).toNat ∧ (4080 : BitVec 12).toNat ≤ 4080 ∧
    (399 : BitVec 12).toNat < 400 ∧ 4080 < (4081 : BitVec 12).toNat ∧ (s.chan 0).oorCount + 1 < 3 ∧ (s.chan 0).preload = false ∧
    (s.chan 0).lastValid = some 40 ∧ (s.chan 0).armedSpan = span ∧ s.link.traceChannel = traced ∧
    (traced = none → s.link.traceChannel ≠ some 0) ∧ spanGain 500 15 1580 = some 10370 ∧ spanGain 500 15 0 = none := by
  decide +kernel

theorem test_met_LoopFaultsBeginAndEnd :
    (let s := chanIn .tracking armed
     s.samples 0 = true ∧ (399 : BitVec 12).toNat < 400 ∧ 4080 < (4081 : BitVec 12).toNat ∧
     (s.chan 0).oorCount + 1 < 3 ∧ (s.chan 0).lastValid = none) ∧
    (let s := chanIn .tracking armed
     let s := s.setChan 0 { s.chan 0 with oorCount := 1, lastValid := some 40 }
     (s.chan 0).oorCount + 1 < 3 ∧ (s.chan 0).preload = false ∧ (s.chan 0).lastValid = some 40 ∧
     (s.chan 0).windowCount + 1 < (s.chan 0).cfg.window) ∧
    (let s := chanIn .tracking armed
     let s := s.setChan 0 { s.chan 0 with oorCount := 2 }
     3 ≤ (s.chan 0).oorCount + 1) ∧
    (let s := chanIn (.fault .loopOpen) armed
     s.samples 0 = true ∧ (s.chan 0).state = .fault .loopOpen ∧ (s.chan 0).validRun + 1 < (s.chan 0).cfg.window) ∧
    (let s := chanIn (.fault .loopOver) armed
     let s := s.setChan 0 { s.chan 0 with validRun := 4 }
     (s.chan 0).cfg.window ≤ (s.chan 0).validRun + 1) ∧
    (let s := chanIn (.fault .loopOpen) armed
     let s := s.setChan 0 { s.chan 0 with oorCount := 2 }
     s.samples 0 = true ∧ (s.chan 0).state = .fault .loopOpen ∧ 3 ≤ (s.chan 0).oorCount + 1) := by decide +kernel

/-- Channel 0 in a state, with both of its timers at 1000 and the clock there. -/
def expiring (st : ChannelState) (window : Bool) : State :=
  let s := later 1000 (chanIn st armed)
  s.setChan 0 { s.chan 0 with timer := some 1000, bumpTimer := some 1000, warmupWindow := window }

theorem test_met_ChannelTimersExpire :
    1000 ≤ (expiring .warmup true).time.clock ∧ ((expiring .warmup true).chan 0).state = .warmup ∧
    ((expiring .warmup true).chan 0).timer = some 1000 ∧ ((expiring .warmup true).chan 0).warmupWindow = true ∧
    ((expiring .warmup false).chan 0).warmupWindow = false ∧ ((expiring .hold true).chan 0).state = .hold ∧
    ((expiring .recover true).chan 0).state = .recover ∧ ((expiring .bump true).chan 0).state = .bump ∧
    ((expiring .bump true).chan 0).bumpTimer = some 1000 := by decide +kernel

theorem test_met_ZoneTimersEqzAndGasLevel :
    (let s := later 1000 (zoned .tracking)
     let s := s.setZone 2 { s.zone 2 with holdTimer := some 1000, lingerTimer := some 1000 }
     (s.zone 2).active = true ∧ 1000 ≤ s.time.clock ∧ (s.zone 2).holdTimer = some 1000 ∧
     (s.zone 2).lingerTimer = some 1000 ∧ (s.zone 2).cfg.linger = 0) ∧
    (∀ v ∈ [some 50, some 1000, none], ∀ gas ∈ [(1 : Fin 4), 2],
     let s := later 1000 (zoned .tracking)
     let s := s.setZone 2 { s.zone 2 with holdTimer := some 1000, voted := v, gas := gas }
     let level := (s.zone 2).gas.val - 1
     (s.zone 2).active = true ∧ (s.zone 2).holdTimer = some 1000 ∧
     (level ≠ 0 ∧ (s.zone 2).voted.any (fun v => decide (v + (s.zone 2).cfg.hysteresis < (s.zone 2).cfg.t1)) = true ↔
       gas = 2 ∧ v = some 50)) ∧
    (let s : State := { later 2000 (zoned .tracking) with eqz := ⟨true, false, some 2000⟩ }
     s.eqz.timer = some 2000 ∧ 2000 ≤ s.time.clock ∧ s.eqz.debounced = false) ∧
    (let z : Zone := { Zone.inactive .reset with voted := some 229, gas := 2 }
     z.voted = some 229 ∧ z.cfg.t1 < z.cfg.t2 ∧ z.cfg.t2 < z.cfg.t3 ∧ 0 < z.cfg.hold ∧ 229 + z.cfg.hysteresis < z.cfg.t2) ∧
    (let z : Zone := { Zone.inactive .reset with voted := some 250, gas := 1 }
     z.cfg.t2 ≤ 250 ∧ z.gas.val < 2) ∧
    (Zone.inactive .reset).voted = none := by decide +kernel

theorem test_met_AllocationTakesAvailableFansInOrder :
    (([3, 1, 4] : List (Fin 8)).Nodup ∧ ([1] : List (Fin 8)).Sublist [3, 1, 4]) ∧
    (let s := later 1000 (zoned .recover)
     let s := s.setChan 0 { s.chan 0 with timer := some 1000 }
     (s.chan 0).state = .recover ∧ (s.chan 0).timer = some 1000 ∧ 1000 ≤ s.time.clock ∧ (s.chan 0).cfg.enabled = true ∧
     (s.chan 0).cfg.zone = some 2 ∧ (s.zone 2).active = true) ∧
    (let s := zoned .tracking
     let s := s.setChan 0 { s.chan 0 with reading := some 40 }
     let s := s.setChan 1 { s.chan 0 with reading := some 30 }
     let t := s.setZone 2 { s.zone 2 with cfg := { (s.zone 2).cfg with vote := .second } }
     (s.sense 2).sight = some .seeing ∧ (s.sense 2).voted = some 40 ∧ (t.sense 2).voted = some 30 ∧
     (t.zone 2).cfg.vote = .second ∧ ((zoned .hold).sense 2).sight = some .paused ∧
     ((zoned (.fault .drift)).sense 2).sight = some .blind) ∧
    (let s := zoned .hold
     let t := s.setZone 2 { s.zone 2 with demand := some .purge }
     (s.sense 2).demandUnder s.alarm.regime = .purge ∧ (s.sense 2).demand = none ∧ (t.sense 2).demand = some .purge ∧
     (t.sense 2).demandUnder t.alarm.regime = .purge) ∧
    (let paused := claiming.setChan 0 { claiming.chan 0 with reading := none }
     let purged := claiming.setZone 2 { claiming.zone 2 with
       demand := some .purge, claims := [3, 1] }
     (paused.sense 2).demandUnder paused.alarm.regime = .purge ∧ (paused.sense 2).demand = some .idle ∧
     (paused.sense 2).cfg.order = [3, 1] ∧ (paused.sense 2).claims = [3] ∧
     allocated [3, 1] [3] 2 (fun i => (paused.fan i).available paused.alarm.regime) = [3, 1] ∧
     (purged.sense 2).demandUnder purged.alarm.regime = .idle ∧ (purged.sense 2).demand = some .purge ∧
     (purged.sense 2).claims = [3, 1] ∧ allocated [3, 1] [3, 1] 1 (fun i => (purged.fan i).available purged.alarm.regime) = [3] ∧
     ([3, 1] : List (Fin 8)).Nodup ∧ ([3, 1] : List (Fin 8)).Sublist [3, 1]) := by decide +kernel

/-- Fan 0 in a state, with every timer at 1000 and the clock there. -/
def fanExpiring (st : FanState) (claims : Claims) : State :=
  let s := later 1000 (fanIn st armed)
  s.setFan 0 { s.fan 0 with
    claims := claims, manualTimer := some 1000, provingTimer := some 1000, minRunTimer := some 1000
    coastTimer := some 1000, retryTimer := some 1000, flowLossTimer := some 1000, exerciseTimer := some 1000
    exerciseDue := some 1000, noteTimer := some 1000, clearTimer := some 1000, flow := ⟨true, false, some 1000⟩ }

theorem test_met_FanFaultsAndRetries :
    ((let s := fanExpiring .proving .empty
     1000 ≤ s.time.clock ∧ (s.fan 0).state = .proving ∧ (s.fan 0).provingTimer = some 1000) ∧
    (let s := fanExpiring .running .empty; (s.fan 0).state = .running ∧ (s.fan 0).flowLossTimer = some 1000) ∧
    (let s := fanExpiring .fault .empty
     (s.fan 0).state = .fault ∧ (s.fan 0).retryTimer = some 1000 ∧ (s.fan 0).retriesLeft = 0) ∧
    (let s := fanExpiring .fault .empty
     let s := s.setFan 0 { s.fan 0 with retriesLeft := 1 }
     (s.fan 0).retriesLeft = 0 + 1)) ∧
    (∀ needs ∈ [1, 2], ∀ owed spaced,
      let s := freeable .fault needs owed spaced
      0 ≤ s.time.clock ∧ (s.fan 1).state = .fault ∧ (s.fan 1).retryTimer = some 0 ∧ (s.fan 1).retriesLeft = 0 + 1 ∧
      (Misses s 2 1 ↔ needs = 2) ∧ ¬Misses s 0 1) ∧
    ∀ st ∈ [FanState.fault, .lockout .manual], ∀ needs ∈ [1, 2], ∀ owed spaced,
      FanLaw (freeable st needs owed spaced) ∧ DerivedLaw (freeable st needs owed spaced) ∧
      ClaimLaw (freeable st needs owed spaced) :=
  ⟨by decide +kernel, by unfold Misses; decide +kernel, freeable_laws⟩

/-- Fan 0 in a state, with these claims, its timers of `fanExpiring`, an exercise owed, its min-run elapsed or not. -/
def fanEnding (st : FanState) (claims : Claims) (elapsed : Bool) : State :=
  let s := fanExpiring st claims
  let s := s.setFan 0 { s.fan 0 with
    exerciseOwed := true, minRunElapsed := elapsed, output := decide (st ∈ [FanState.proving, .running]) }
  s.setArb { s.arb with waiting := vset s.arb.waiting 0 (if st = .waiting then some 500 else none) }

theorem fanEnding_laws : ∀ st ∈ [FanState.proving, .running],
    let s := fanEnding st { Claims.empty with manual := true } true
    FanLaw s ∧ DerivedLaw s ∧ ClaimLaw s := by
  intro st hst
  rcases List.mem_cons.mp hst with rfl | hst
  on_goal 2 => obtain rfl := List.mem_singleton.mp hst
  all_goals refine ⟨?_, ?_, ?_⟩ <;> constructor <;> decide +kernel

theorem test_met_FanTimersExpire :
    ((let s := fanExpiring .proving .empty
     1000 ≤ s.time.clock ∧ (s.fan 0).state = .proving ∧ (s.fan 0).minRunTimer = some 1000 ∧ (s.fan 0).stopPending = false) ∧
    (let s := fanExpiring .running .empty
     let s := s.setFan 0 { s.fan 0 with stopPending := true }
     (s.fan 0).state = .running ∧ (s.fan 0).stopPending = true ∧ (s.fan 0).exerciseDue = some 1000) ∧
    (let s := fanExpiring .coasting .empty
     (s.fan 0).state = .coasting ∧ (s.fan 0).coastTimer = some 1000 ∧ (s.fan 0).claims.none_ = true) ∧
    (let s := fanExpiring .coasting { Claims.empty with manual := true, exercise := true }
     (s.fan 0).claims.none_ = false ∧ (s.fan 0).manualTimer = some 1000 ∧ (s.fan 0).claims.manual = true ∧
     (s.fan 0).exerciseTimer = some 1000 ∧ (s.fan 0).claims.exercise = true ∧ (s.fan 0).state ≠ .running)) ∧
    (∀ st ∈ [FanState.proving, .running, .waiting, .idle, .coasting], ∀ elapsed, ∀ exercise,
      let s := fanEnding st { Claims.empty with manual := true, exercise := exercise } elapsed
      let u := fanEnding st { Claims.empty with exercise := true } elapsed
      (s.fan 0).state = st ∧ (s.fan 0).manualTimer = some 1000 ∧ (s.fan 0).claims.manual = true ∧
      (s.fan 0).minRunElapsed = elapsed ∧ { (s.fan 0).claims with manual := false }.none_ = !exercise ∧
      (u.fan 0).exerciseTimer = some 1000 ∧ (u.fan 0).claims.exercise = true ∧ (u.fan 0).exerciseDue = some 1000 ∧
      { (u.fan 0).claims with exercise := false }.none_ = true ∧ (u.fan 0).exerciseOwed = true ∧
      u.alarm.regime = .normal) ∧
    (∀ st ∈ [FanState.proving, .running],
      let s := fanEnding st { Claims.empty with manual := true } true
      FanLaw s ∧ DerivedLaw s ∧ ClaimLaw s) ∧
    (∀ spaced,
      let s := claimedFan .idle .empty true spaced
      let exercised : Fan := { s.fan 0 with exerciseOwed := false, claims := { Claims.empty with exercise := true } }
      ∃ asked, StartAsked s 0 exercised asked ∧ asked.grantChoice = if spaced then none else some 0) := by
  refine ⟨by decide +kernel, by decide +kernel, fanEnding_laws, fun spaced => ?_⟩
  cases spaced <;> exact ⟨_, Or.inl ⟨by decide +kernel, rfl⟩, by decide +kernel⟩

theorem test_met_FlowEventsAct :
    (let s := fanExpiring .proving .empty
     1000 ≤ s.time.clock ∧ (s.fan 0).flow.timer = some 1000 ∧ (s.fan 0).state = .proving ∧ (s.fan 0).flow.debounced = false) ∧
    (let s := fanExpiring .running .empty; (s.fan 0).state = .running ∧ (s.fan 0).flow.timer = some 1000) ∧
    (let s := fanExpiring .proving .empty
     let s := s.setFan 0 { s.fan 0 with flow := ⟨false, true, some 1000⟩ }
     (s.fan 0).state = .proving ∧ (s.fan 0).flow.debounced = true ∧ (s.fan 0).flow.timer = some 1000) ∧
    (let s := fanExpiring .idle .empty; (s.fan 0).state ≠ .running ∧ (s.fan 0).state ≠ .proving) ∧
    (∀ noted,
      let s := fanExpiring .idle .empty
      let s := s.setFan 0 { s.fan 0 with flowNote := noted }
      (s.fan 0).noteTimer = some 1000 ∧ (s.fan 0).clearTimer = some 1000 ∧ (s.fan 0).flowNote = noted ∧
      s.alarm.regime = regimeOf s.alarm ∧ s.alarm.permit = permitOf s.alarm s.setup.armed) := by
  decide +kernel

/-- Fan 0 waits for a grant, with a grant 30 s old in the history. -/
def waiting (spacing : Option Nat) : State :=
  let s := later 30000 (fanIn .waiting armed)
  s.setArb { s.arb with k := 1, history := [0], spacing := spacing, waiting := vset s.arb.waiting 0 (some 100) }

theorem test_met_ArbiterGrantsTheFirstEligibleFan :
    (let s := waiting none
     s.grantChoice = none ∧ s.arb.history = 0 :: [] ∧ 0 + 1000 * s.arb.w ≤ s.time.clock ∧
     (s.setArb { s.arb with history := [] }).grantChoice = some 0) ∧
    (let s := waiting (some 30000)
     s.arb.spacing = some 30000 ∧ 30000 ≤ s.time.clock ∧ (s.setArb { s.arb with spacing := none }).grantChoice = none) ∧
    FanLaw (waiting none) ∧ DerivedLaw (waiting none) ∧ ((waiting none).fan 0).flow.debounced = false ∧
    (let s := waiting none
     let s := s.setFan 0 { s.fan 0 with flow := ⟨true, true, none⟩ }
     FanLaw s ∧ DerivedLaw s ∧ (s.fan 0).flow.debounced = true ∧ (s.setArb { s.arb with history := [] }).grantChoice = some 0) :=
  ⟨by decide +kernel, by decide +kernel,
   by constructor <;> decide +kernel, by constructor <;> decide +kernel, by decide +kernel,
   by constructor <;> decide +kernel, by constructor <;> decide +kernel, by decide +kernel, by decide +kernel⟩

/-- Probe 0 in a state, with both timers at 1000 and the clock there. -/
def probeExpiring (st : ProbeState) (line : LineCond) : State :=
  let s := later 1000 (probeIn st line armed)
  s.setProbe 0 { s.probe 0 with debounceTimer := some 1000, supervisionTimer := some 1000 }

theorem test_met_ProbesActByTheirState :
    ready.setup.armed = false ∧ (armed.probe 1).cfg.present = false ∧
    (let s := probeExpiring .dry .dry
     s.setup.armed = true ∧ (s.probe 0).cfg.present = true ∧ LineCond.wet ≠ (s.probe 0).line ∧ (s.probe 0).state = some .dry ∧
     1000 ≤ s.time.clock ∧ (s.probe 0).supervisionTimer = some 1000 ∧ LineCond.opened.good = false ∧
     (s.probe 0).line.good = true) ∧
    (let s := probeExpiring .wetPending .opened
     (s.probe 0).state = some .wetPending ∧ (s.probe 0).debounceTimer = some 1000 ∧ (s.probe 0).line.good = false ∧
     LineCond.wet ≠ (s.probe 0).line) ∧
    (let s := probeExpiring .wet .wet; (s.probe 0).state = some .wet ∧ LineCond.dry ≠ (s.probe 0).line) ∧
    (let s := probeExpiring .drying .shorted; (s.probe 0).state = some .drying ∧ LineCond.dry ≠ (s.probe 0).line) ∧
    (let s := probeExpiring .fault .dry; (s.probe 0).state = some .fault ∧ (s.probe 0).line = .dry) ∧
    (classify (.milliohms 99999) = .shorted ∧ classify (.milliohms 100000) = .wet ∧ classify (.milliohms 2000000) = .dry ∧
      classify .unlimited = .opened) := by decide +kernel

theorem test_met_SlotFiresWhenItsTimeComes :
    (let s := later 5000 (slotted 5000 60)
     s.slot 3 = some { stale := false, anchor := 5000, fire := 5000, action := .mark 7, interval := 60 } ∧
     5000 ≤ s.time.room) ∧
    (let s := later 5000 (slotted 5000 0); (s.slot 3).map (·.interval) = some 0) ∧
    (∀ s : State, ∀ a : Action, ∃ r : Slot, (firing a s).slot 3 = some r ∧ r.action = a ∧ r.stale = false ∧ r.fire ≤ s.time.room) ∧
    ready.outcomeOf (.exercise 0) ≠ .performed ∧
    (∀ st ∈ [FanState.idle, .waiting], ∀ spaced,
      let s := claimedFan st .empty false spaced
      s.outcomeOf (.start 0 60) = .performed ∧ s.outcomeOf (.exercise 0) = .performed ∧ s.alarm.regime = .normal) ∧
    (∀ st ∈ [FanState.idle, .waiting], ∀ spaced,
      let s := claimedFan st .empty false spaced
      let claimed : Fan := { s.fan 0 with claims := { Claims.empty with manual := true }, manualDuration := some 60 }
      ∃ asked, StartAsked s 0 claimed asked ∧ asked.grantChoice = if spaced then none else some 0) ∧
    (FanLaw rotating ∧ DerivedLaw rotating ∧ ClaimLaw rotating ∧ rotating.outcomeOf (.rotate 2) = .performed) ∧
    (let last := 2 ^ 48 - 1
     let s := later last (slotted last 60)
     (s.slot 3).map (fun r => (r.anchor, r.interval)) = some (last, 60) ∧ s.time.room < last + 1 * 60000 ∧
     2 ^ 48 ≤ last + 1 * 60000) ∧
    (let s := later 5000 (slotted 5000 60); s.time.room < 5000 + 1 * 60000 ∧ 5000 + 1 * 60000 < 2 ^ 48) ∧
    (ready.setup.armed = false ∧ armed.setup.armed = true ∧ ¬InUse armed 2 ∧ InUse (zoned .tracking) 2 ∧
      (zoned .tracking).setup.armed = true ∧ (armed.fan 0).cfg.present = false ∧
      ∀ st ∈ [FanState.fault, .lockout .manual, .lockout .retries],
        let s := fanIn st armed
        s.setup.armed = true ∧ (s.fan 0).cfg.present = true ∧ (s.fan 0).state = st) ∧
    (FanLaw lawful ∧ lawful.setup.armed = true ∧ (lawful.fan 0).cfg.present = true ∧ (lawful.fan 0).state = .idle) :=
  ⟨by decide +kernel, by decide +kernel, fun _ a =>
    ⟨{ stale := false, anchor := 0, fire := 0, action := a, interval := 0 }, firing_slot a _, rfl, rfl, Nat.zero_le _⟩,
    by decide +kernel, by decide +kernel, claimedFan_choices,
    ⟨rotating_laws.1, rotating_laws.2.1, rotating_laws.2.2, by decide +kernel⟩, by decide +kernel, by decide +kernel,
    by unfold InUse; decide +kernel, lawful_fans, by decide +kernel⟩

theorem test_met_ServiceFallEndsEveryTest :
    let at_ := fun d : Bool => later 1000 ((chanIn .hold armed).setLink { armed.link with service := ⟨!d, d, some 1000⟩ })
    ((at_ true).chan 0).state = .hold ∧ (at_ false).link.service.timer = some 1000 ∧ 1000 ≤ (at_ false).time.clock ∧
    (at_ false).link.service.debounced = false ∧
    (at_ true).link.service.debounced = true := by decide +kernel

theorem test_met_MillisecondAdvancesTheClocks :
    let s := ready.setTime { ready.time with acc := 16777215, rate := 1 }
    s.time.clock < 2 ^ 48 - 1 ∧ 16777216 ≤ s.time.acc + s.time.rate ∧ s.time.sense = .fast ∧
    ready.time.acc + ready.time.rate < 16777216 := by decide +kernel

theorem test_met_ReportIsTheTableInReportOrder :
    recorded.alarm.record 0 = none ∧ (recorded.alarm.image 0).active = false ∧ recorded.alarm.masks (classOf 0) = false ∧
    (recorded.alarm.record 18).map (·.state) = some .activeUnack ∧ (recorded.alarm.image 18).active = true ∧
    (recorded.alarm.record 19).map (·.state) = some .activeAck ∧ (recorded.alarm.image 19).active = true ∧
    (recorded.alarm.record 20).map (·.state) = some .clearedUnack ∧ (recorded.alarm.image 20).active = false ∧
    recorded.alarm.masks (classOf 18) = false ∧ (recorded.alarm.record 18).map (fun r => (r.severity, r.peak)) = some (2, 2) ∧
    (classOf 34 = .channelNote ∧ ({ recorded.alarm with maskChannelNote := true }).masks (classOf 34) = true) ∧
    classOf 81 = .flowNote := by decide +kernel

theorem test_met_FrameBytesAreReadBack :
    (List.replicate 240 (0xC3 : Byte)).length ≤ 240 ∧ ready.link.receiver.frame = none := by decide +kernel

/-- A frame of a kind and a payload has come, with tag 7. -/
def framed (kind : Byte) (payload : List Byte) : FrameIn :=
  { bytes := (frameBytes kind 7 payload).drop 1, lastAt := 0, busyAtSync := false }

theorem test_met_FramedRequestActsAsItsCommand :
    (let f := framed 0x10 [0xFF]
     let s := ready.setReceiver { frame := none, ended := some f }
     requestOf (.acknowledge 7 0xFF) = some (0x10, 7) ∧ wellFormed (.acknowledge 7 0xFF) = true ∧
     s.link.receiver.ended = some f ∧ f.crcMatches = true ∧ f.busyAtSync = false ∧ f.kind = 0x10 ∧ f.tag = 7 ∧
     f.payload = requestPayload (.acknowledge 7 0xFF) ∧ s.link.outstanding = none) ∧
    (let f := framed 0x7F [1, 2]
     f.crcMatches = true ∧ f.busyAtSync = false ∧ f.kind.toNat < 0x80 ∧ f.kind ∉ requestKinds) ∧
    (let f := framed 0x01 [0]
     f.crcMatches = true ∧ f.busyAtSync = false ∧ f.kind.toNat < 0x80 ∧ f.kind ∈ requestKinds) ∧
    ∀ c, requestOf c = some ((framed 0x01 [0]).kind, (framed 0x01 [0]).tag) →
      requestPayload c ≠ (framed 0x01 [0]).payload := by
  refine ⟨by decide +kernel, by decide +kernel, by decide +kernel, fun c h => ?_⟩
  have hk : (framed 0x01 [0]).kind = 1 := by decide +kernel
  have hp : (framed 0x01 [0]).payload = [0] := by decide +kernel
  rw [hk] at h; rw [hp]
  cases c <;> simp_all [requestOf, requestPayload, requestKinds]

theorem test_met_LinkEventsActOnTheirFrames :
    (let f : FrameIn := { bytes := [0x02, 0x01, 0x07, 0, 0], lastAt := 0, busyAtSync := false }
     f.crcMatches = false) ∧
    (let f : FrameIn := { bytes := (frameBytes 0x81 7 []).drop 1, lastAt := 0, busyAtSync := false }
     f.crcMatches = true ∧ 0x80 ≤ f.kind.toNat) ∧
    (let f : FrameIn := { bytes := [1], lastAt := 0, busyAtSync := false }
     let s := later 21 (ready.setReceiver { frame := some f, ended := none })
     s.link.receiver.frame = some f ∧ f.bytes = [1] ∧ (1 : Byte).toNat < 2 ∧ 242 < (243 : Byte).toNat ∧
     f.lastAt + 20 < s.time.clock) ∧
    (ready.sendReply ⟨0x81, 1, [0, 0]⟩).link.transmitter = .reply ∧
    (let r : TraceRecord := { room := 0, channel := 0, mean := 0, baseline := 0, excess := 0, cRaw := 0, reading := 0
                              state := .off, flags := .replicate 5 false, index := 9, coefficient := 0, gap := false }
     let s := ready.setLink { ready.link with traceChannel := some 0, traceIndex := 9, traceBuffer := some r }
     let u := s.setLink { s.link with transmitter := .trace r }
     s.link.transmitter = .free ∧ s.link.outstanding = none ∧ s.link.traceBuffer = some r ∧ s.link.traceChannel = some 0 ∧
     u.link.transmitter = .trace r) ∧
    (let c : Channel := { Channel.reset with lastMean := some 229, excess := some 217, cRaw := some 68, reading := some 68 }
     let s := ready.setChan 0 c
     (s.chan 0).lastMean = some 229 ∧ (s.chan 0).excess = some 217 ∧ (s.chan 0).cRaw = some 68 ∧
     (s.chan 0).reading = some 68) := by decide +kernel

theorem test_met_EveryStepKeepsTheRanges :
    NoticeLaw lawful ∧ TimeLaw lawful ∧ (∀ i, ChannelLaw (lawful.chan i)) ∧ (step lawful matches .next _) = true :=
  ⟨by unfold NoticeLaw; decide +kernel, ⟨by decide +kernel, by decide +kernel, by decide +kernel⟩,
   fun i => by
    have h : lawful.chan i = Channel.reset := by revert i; decide +kernel
    rw [h]
    exact ⟨by simp [Channel.reset], by simp [Channel.reset], ⟨by decide, by decide⟩, ⟨by decide, by decide⟩⟩,
   by decide +kernel⟩

/-- A sample of no gas completes no window of channel 0, in a state that meets the laws of claims and of images. -/
def claimingStep : State := claiming.withPending [.sampleEvent 0 800]

theorem claimingStep_laws :
    FanLaw claimingStep ∧ DerivedLaw claimingStep ∧ ClaimLaw claimingStep ∧ ImageLaw claimingStep ∧ TableLaw claimingStep.alarm :=
  have ⟨f, d, c, i, t⟩ := claiming_laws
  ⟨⟨f.1, f.2, f.3, f.4, f.5, f.6⟩, ⟨d.1, d.2⟩, ⟨c.1, c.2, c.3, c.4, c.5, c.6, c.7, c.8, c.9, c.10, c.11⟩,
   ⟨i.1, i.2, i.3, i.4, i.5, i.6, i.7, i.8, i.9, i.10, i.11⟩, t⟩

theorem test_met_EveryStepKeepsTheFanLaw :
    FanLaw lawful ∧ (step lawful matches .next _) = true ∧
    FanLaw claimingStep ∧ ClaimLaw claimingStep ∧ ZoneLaw claimingStep ∧ (claimingStep.zone 2).active = true ∧
    (step claimingStep matches .next _) = true :=
  have ⟨sight, voted, spill, demand⟩ := claiming_zones
  ⟨lawful_fans, by decide +kernel, claimingStep_laws.1, claimingStep_laws.2.2.1, ⟨sight, voted, spill, demand⟩,
   by decide +kernel, by decide +kernel⟩

/-- Fan 1 waits out the spacing, claimed by zone 2 for its second fan, with the spacing's expiry at the front of the queue. -/
def promptStep : State := (after (.retryExpiry 1) (freeable .fault 2 false true)).withPending [.spacingExpiry]

theorem promptStep_laws : FanLaw promptStep ∧ ClaimLaw promptStep ∧ PromptLaw promptStep := by
  refine ⟨?_, ?_, ?_⟩ <;> constructor <;> decide +kernel

theorem test_met_EveryStepKeepsTheStartBudget :
    FanLaw lawful ∧ ArbiterLaw lawful ∧ (step lawful matches .next _) = true ∧
    (FanLaw promptStep ∧ ClaimLaw promptStep ∧ PromptLaw promptStep) ∧ (promptStep.fan 1).state = .waiting ∧
    (step promptStep matches .next _) = true :=
  ⟨test_met_EveryStepKeepsTheFanLaw.1, ⟨by decide +kernel, by decide +kernel⟩, by decide +kernel, promptStep_laws, by decide +kernel,
   by decide +kernel⟩

theorem test_met_EveryStepDerivesRegimeAndPermit : DerivedLaw lawful ∧ (step lawful matches .next _) = true :=
  ⟨⟨by decide +kernel, by decide +kernel⟩, by decide +kernel⟩

theorem test_met_EveryStepKeepsTheAlarmTable : TableLaw recorded.alarm ∧ TableLaw lawful.alarm ∧
    (step lawful matches .next _) = true ∧ FanLaw claimingStep ∧ ClaimLaw claimingStep ∧ ImageLaw claimingStep ∧
    (step claimingStep matches .next _) = true :=
  ⟨recorded_table, by unfold TableLaw; decide +kernel, by decide +kernel, claimingStep_laws.1, claimingStep_laws.2.2.1,
   claimingStep_laws.2.2.2.1, by decide +kernel⟩

theorem test_met_EveryStepKeepsTheProbeLaw : ProbeLaw lawful ∧ (step lawful matches .next _) = true :=
  ⟨⟨by decide +kernel, by decide +kernel⟩, by decide +kernel⟩

end Sys2Proof.Tests
end

section
/-! The estimation pipeline (02_the_estimation_pipeline.md): what the two roundings answer, and from them the excess, the raw
concentration with its reading and flags, and the baseline step. -/

namespace Sys2Proof.Machine

/-! ## Rounding with ties away from zero -/

/-- The default rounding is odd, so a fact about it needs a proof for the numbers from 0 up only. -/
theorem roundAway_neg (a : Int) {d : Nat} (hd : 0 < d) : roundAway (-a) d = -roundAway a d := by
  have at_zero : (d : Int) / (2 * d) = 0 := Int.ediv_eq_zero_of_lt (by omega) (by omega)
  rcases lt_trichotomy a 0 with h | rfl | h
  · simp [roundAway, h.le, not_le.2 h]
  · simp [roundAway, at_zero]
  · simp [roundAway, h.le, not_le.2 h]

/-- The error of a rounded quotient is the same size for the mirrored number and the mirrored quotient. -/
theorem abs_error_neg (a q d : Int) : |-a - -q * d| = |a - q * d| := by
  rw [show -a - -q * d = -(a - q * d) by ring, abs_neg]

theorem roundAway_bounds {a : Int} {d : Nat} (hd : 0 < d) (ha : 0 ≤ a) :
    2 * (roundAway a d * d) ≤ 2 * a + d ∧ 2 * a < 2 * (roundAway a d * d) + d := by
  have below := Int.ediv_mul_le (2 * a + d) (b := 2 * d) (by omega)
  have above := Int.lt_ediv_add_one_mul_self (2 * a + d) (b := 2 * d) (by omega)
  simp only [roundAway, if_pos ha]
  constructor <;> linarith

/-- The default rounding is to the nearest integer (00_scope.md, Rounding). -/
theorem roundAway_nearest (a : Int) {d : Nat} (hd : 0 < d) : 2 * |a - roundAway a d * d| ≤ d := by
  wlog ha : 0 ≤ a
  · simpa only [roundAway_neg a hd, abs_error_neg] using this (-a) hd (by omega)
  obtain ⟨below, above⟩ := roundAway_bounds hd ha
  have : |a - roundAway a d * d| ≤ (d : Int) / 2 := abs_le.2 ⟨by omega, by omega⟩
  omega

/-- At a tie the default rounding takes the number further from zero (00_scope.md, Rounding). -/
theorem roundAway_tie (a : Int) {d : Nat} (hd : 0 < d) (tie : 2 * |a - roundAway a d * d| = d) :
    |a| < |roundAway a d * d| := by
  wlog ha : 0 ≤ a
  · simpa only [roundAway_neg a hd, abs_error_neg, neg_mul, abs_neg] using
      this (-a) hd (by simpa only [roundAway_neg a hd, abs_error_neg] using tie) (by omega)
  obtain ⟨-, above⟩ := roundAway_bounds hd ha
  have upward : a < roundAway a d * d := by
    rcases abs_choice (a - roundAway a d * d) with h | h <;> omega
  rwa [abs_of_nonneg ha, abs_of_nonneg (ha.trans upward.le)]

/-! ## Rounding with ties toward zero (R38) -/

theorem roundToward_zero {d : Nat} (hd : 0 < d) : roundToward 0 d = 0 := by
  simpa [roundToward] using Int.ediv_eq_zero_of_lt (show (0 : Int) ≤ d - 1 by omega) (show (d : Int) - 1 < 2 * d by omega)

/-- The baseline step's rounding is odd, too. -/
theorem roundToward_neg (a : Int) {d : Nat} (hd : 0 < d) : roundToward (-a) d = -roundToward a d := by
  rcases lt_trichotomy a 0 with h | rfl | h
  · simp [roundToward, h.le, not_le.2 h]
  · simp [roundToward_zero hd]
  · simp [roundToward, h.le, not_le.2 h]

theorem roundToward_bounds {a : Int} {d : Nat} (hd : 0 < d) (ha : 0 ≤ a) :
    2 * (roundToward a d * d) < 2 * a + d ∧ 2 * a ≤ 2 * (roundToward a d * d) + d := by
  have below := Int.ediv_mul_le (2 * a + d - 1) (b := 2 * d) (by omega)
  have above := Int.lt_ediv_add_one_mul_self (2 * a + d - 1) (b := 2 * d) (by omega)
  simp only [roundToward, if_pos ha]
  constructor <;> linarith

theorem roundToward_nonneg {a : Int} {d : Nat} (hd : 0 < d) (ha : 0 ≤ a) : 0 ≤ roundToward a d := by
  simpa only [roundToward, if_pos ha] using Int.ediv_nonneg (by omega) (by omega)

/-- The baseline step's rounding is to the nearest integer (R38). -/
theorem roundToward_nearest (a : Int) {d : Nat} (hd : 0 < d) : 2 * |a - roundToward a d * d| ≤ d := by
  wlog ha : 0 ≤ a
  · simpa only [roundToward_neg a hd, abs_error_neg] using this (-a) hd (by omega)
  obtain ⟨below, above⟩ := roundToward_bounds hd ha
  have : |a - roundToward a d * d| ≤ (d : Int) / 2 := abs_le.2 ⟨by omega, by omega⟩
  omega

/-- At a tie the baseline step's rounding takes the number nearer to zero (R38). -/
theorem roundToward_tie (a : Int) {d : Nat} (hd : 0 < d) (tie : 2 * |a - roundToward a d * d| = d) :
    |roundToward a d * d| < |a| := by
  wlog ha : 0 ≤ a
  · simpa only [roundToward_neg a hd, abs_error_neg, neg_mul, abs_neg] using
      this (-a) hd (by simpa only [roundToward_neg a hd, abs_error_neg] using tie) (by omega)
  obtain ⟨below, -⟩ := roundToward_bounds hd ha
  have downward : roundToward a d * d < a := by
    rcases abs_choice (a - roundToward a d * d) with h | h <;> omega
  rwa [abs_of_nonneg ha, abs_of_nonneg (mul_nonneg (roundToward_nonneg hd ha) (by omega))]

/-- A number of at most half the divisor rounds to 0, the tie included. -/
theorem roundToward_eq_zero (a : Int) {d : Nat} (hd : 0 < d) (small : 2 * |a| ≤ d) : roundToward a d = 0 := by
  wlog ha : 0 ≤ a
  · simpa only [roundToward_neg a hd, neg_eq_zero] using this (-a) hd (by rwa [abs_neg]) (by omega)
  rw [abs_of_nonneg ha] at small
  simpa only [roundToward, if_pos ha] using Int.ediv_eq_zero_of_lt (by omega) (by omega)

/-! ## The excess (R33) -/

theorem wholeBaseline_nearest (b : Int) : 2 * |b - wholeBaseline b * 256| ≤ 256 := roundAway_nearest b (d := 256) (by omega)

theorem wholeBaseline_tie (b : Int) (tie : 2 * |b - wholeBaseline b * 256| = 256) : |b| < |wholeBaseline b * 256| :=
  roundAway_tie b (d := 256) (by omega) tie

/-- A baseline in its range (R36) rounds into the 16-bit range. -/
theorem wholeBaseline_range {b : Int} (lo : -8388608 ≤ b) (hi : b ≤ 8388352) :
    -32768 ≤ wholeBaseline b ∧ wholeBaseline b ≤ 32767 := by
  have near : |b - wholeBaseline b * 256| ≤ 128 := by have := wholeBaseline_nearest b; omega
  obtain ⟨below, above⟩ := abs_le.1 near
  omega

/-- Settles O32: the rounding's own facts at the divisor 256, and the two ties of R33's example. -/
theorem excessUsesTheWholeBaseline : Obligations.ExcessUsesTheWholeBaseline := by
  intro c m
  refine ⟨⟨wholeBaseline c.baseline, rfl, wholeBaseline_nearest _, wholeBaseline_tie _, fun lo hi => ?_⟩, ?_, ?_, rfl, rfl⟩
  · obtain ⟨least, most⟩ := wholeBaseline_range lo hi
    refine ⟨least, most, fun mlo mhi => ?_⟩
    unfold Channel.excessOf
    omega
  · intro h
    rw [Channel.excessOf, h, show wholeBaseline 384 = 2 by decide]
  · intro h
    rw [Channel.excessOf, h, show wholeBaseline (-384) = -2 by decide, sub_neg_eq_add]

/-! ## The raw concentration, the reading and the flags (R34, R35) -/

theorem readingOf_of_neg {raw : Int} (h : raw < 0) : readingOf raw = 0 := by
  simp [readingOf, clampInt, h]

theorem readingOf_of_over {raw : Int} (h : 1000 < raw) : readingOf raw = 1000 := by
  simp [readingOf, clampInt, h, show ¬ raw < 0 by omega]

theorem readingOf_of_mem {raw : Int} (lo : 0 ≤ raw) (hi : raw ≤ 1000) : (readingOf raw : Int) = raw := by
  simp [readingOf, clampInt, not_lt.2 lo, not_lt.2 hi, lo]

theorem readingOf_le (raw : Int) : readingOf raw ≤ 1000 := by
  rcases lt_or_ge raw 0 with neg | lo
  · simp [readingOf_of_neg neg]
  rcases lt_or_ge 1000 raw with high | hi
  · simp [readingOf_of_over high]
  · have := readingOf_of_mem lo hi
    omega

theorem concentration_nearest (c : Channel) (e : Int) :
    2 * |e * c.cfg.gain - c.concentration e * 2 ^ c.cfg.shift| ≤ 2 ^ c.cfg.shift := by
  simpa [Channel.concentration] using roundAway_nearest (e * c.cfg.gain) (Nat.two_pow_pos c.cfg.shift)

theorem concentration_tie (c : Channel) (e : Int)
    (tie : 2 * |e * c.cfg.gain - c.concentration e * 2 ^ c.cfg.shift| = 2 ^ c.cfg.shift) :
    |e * c.cfg.gain| < |c.concentration e * 2 ^ c.cfg.shift| := by
  have far := roundAway_tie (e * c.cfg.gain) (Nat.two_pow_pos c.cfg.shift)
  push_cast at far
  exact far tie

/-- A flag that occurs where a test holds is set and unseen; every other flag stays (R13, R14). -/
theorem vget_occurIf (c : Channel) (test : Bool) (flag : ChannelFlag) (k : Fin 5) :
    vget (c.occurIf test flag).flags k =
      if test = true ∧ k = flag.position then { set := true, seen := false } else vget c.flags k := by
  cases test
  · simp [Channel.occurIf]
  · simp [Channel.occurIf, Channel.occur, vget_vset, eq_comm]

theorem vget_completionFlags (c : Channel) (raw : Int) (k : Fin 5) :
    vget (c.completionFlags raw).flags k =
      if (k = 2 ∧ raw < -50) ∨ (k = 3 ∧ 1000 < raw) then { set := true, seen := false } else vget c.flags k := by
  simp only [Channel.completionFlags, vget_occurIf, ChannelFlag.position, decide_eq_true_eq, and_comm]
  by_cases isOver : 1000 < raw ∧ k = 3
  · simp only [isOver, and_self, or_true, if_true]
  · simp only [isOver, or_false, if_false]

/-- Settles O33: the three ranges of the clamp, the default rounding at the divisor 2 to the scale shift, and the two flags. -/
theorem readingIsClampedWithItsFlags : Obligations.ReadingIsClampedWithItsFlags := fun c raw =>
  ⟨readingOf_of_neg, readingOf_of_over, readingOf_of_mem, readingOf_le raw, rfl,
   fun e => ⟨concentration_nearest c e, concentration_tie c e⟩, vget_completionFlags c raw⟩

/-! ## The baseline step (R37, R38) -/

section
variable {c : ChannelCfg} {raw delta : Int}

theorem trackCoefficient_clean_above (clean : raw < c.trackLimit) (above : 0 < delta) :
    c.trackCoefficient raw delta = c.cnu := by
  simp [ChannelCfg.trackCoefficient, not_le.2 clean, above]

theorem trackCoefficient_clean_below (clean : raw < c.trackLimit) (below : delta ≤ 0) :
    c.trackCoefficient raw delta = c.cnd := by
  simp [ChannelCfg.trackCoefficient, not_le.2 clean, not_lt.2 below]

theorem trackCoefficient_gas_above (gas : c.trackLimit ≤ raw) (above : 0 < delta) :
    c.trackCoefficient raw delta = c.cku := by
  simp [ChannelCfg.trackCoefficient, gas, above]

theorem trackCoefficient_gas_below (gas : c.trackLimit ≤ raw) (below : delta ≤ 0) :
    c.trackCoefficient raw delta = c.ckd := by
  simp [ChannelCfg.trackCoefficient, gas, not_lt.2 below]

end

/-- The part k of 65536 of a difference from 0 up lies between 0 and the difference: the step never passes the mean (R38). -/
theorem roundToward_part {k : Nat} (hk : k ≤ 65535) {delta : Int} (h : 0 ≤ delta) :
    0 ≤ roundToward (k * delta) 65536 ∧ roundToward (k * delta) 65536 ≤ delta := by
  have part_nonneg : 0 ≤ k * delta := mul_nonneg (by omega) h
  have part_le : k * delta ≤ 65535 * delta := mul_le_mul_of_nonneg_right (by omega) h
  have below := (roundToward_bounds (d := 65536) (by omega) part_nonneg).1
  exact ⟨roundToward_nonneg (by omega) part_nonneg, by omega⟩

/-- The mirror image, for a mean below the baseline. -/
theorem roundToward_part_of_nonpos {k : Nat} (hk : k ≤ 65535) {delta : Int} (h : delta ≤ 0) :
    delta ≤ roundToward (k * delta) 65536 ∧ roundToward (k * delta) 65536 ≤ 0 := by
  have mirrored := roundToward_part hk (delta := -delta) (by omega)
  rw [mul_neg, roundToward_neg _ (by omega)] at mirrored
  omega

theorem abs_roundToward_part_le {k : Nat} (hk : k ≤ 65535) (delta : Int) :
    |roundToward (k * delta) 65536| ≤ |delta| := by
  rcases le_total 0 delta with h | h
  · obtain ⟨lo, hi⟩ := roundToward_part hk h
    rwa [abs_of_nonneg lo, abs_of_nonneg h]
  · obtain ⟨lo, hi⟩ := roundToward_part_of_nonpos hk h
    rw [abs_of_nonpos hi, abs_of_nonpos h]
    omega

/-- The dead band: a part of at most half of 65536 moves nothing (R38). -/
theorem roundToward_part_eq_zero {k : Nat} {delta : Int} (small : k * |delta| ≤ 32768) :
    roundToward (k * delta) 65536 = 0 :=
  roundToward_eq_zero _ (by omega) (by rw [abs_mul, Nat.abs_cast]; omega)

theorem trackBaseline_moves (c : Channel) (m raw : Int) :
    (c.trackBaseline m raw).baseline - c.baseline =
      roundToward (c.cfg.trackCoefficient raw (256 * m - c.baseline) * (256 * m - c.baseline)) 65536 :=
  add_sub_cancel_left ..

/-- Settles O34: the coefficient by its four cases, then the step as the rounded part k of 65536 of delta. -/
theorem baselineStepRoundsTiesTowardZero : Obligations.BaselineStepRoundsTiesTowardZero := by
  intro c m raw delta k moved step
  have step_eq : step = roundToward (k * delta) 65536 := trackBaseline_moves c m raw
  have moved_eq : moved = c.baseline + step := (add_sub_cancel ..).symm
  have delta_eq : delta = 256 * m - c.baseline := rfl
  refine ⟨trackCoefficient_clean_above, trackCoefficient_clean_below, trackCoefficient_gas_above, trackCoefficient_gas_below,
    fun hk => ?_⟩
  clear_value delta k moved step
  subst step_eq
  refine ⟨roundToward_nearest _ (by omega), roundToward_tie _ (by omega), abs_roundToward_part_le hk delta,
    fun h => ?_, fun h => ?_, fun h => ?_, roundToward_part_eq_zero, fun hk' h => ?_⟩
  · have := roundToward_part hk (delta := delta) (by omega)
    omega
  · have := roundToward_part_of_nonpos hk (delta := delta) (by omega)
    omega
  · rw [h, mul_zero, roundToward_zero (by omega)]
  · exact roundToward_part_eq_zero (by rw [hk']; omega)

end Sys2Proof.Machine
end

section
/-! SET TRIM, the millisecond's trim, and CANCEL (09_time_and_schedules.md): what each request answers, branch by branch, what the
timebase's tick makes of the trim, and which slot SCHEDULE takes next. -/

namespace Sys2Proof.Machine

/-- A request that is accepted with no mark: the counterpart of `declined_of`. -/
theorem accepted_of_accept {c : Instr} {kind kind' tag : Byte} {act : State → Answer} {s t : State} {body : List Byte}
    (e : exec c s = goOn (takeRequest kind tag act s)) (free : s.link.outstanding = none) (k : kind + 0x80 = kind')
    (r : act s = accept t body) : Accepted c s t kind' tag 0 body :=
  accepted_of e free (by rw [r]; rfl) k (by rw [r]; rfl) (by rw [r]; rfl) (by rw [r]; rfl)

/-! ## The trim at the millisecond (R168) -/

theorem Timebase.carries_iff (t : Timebase) : t.carries = true ↔ 16777216 ≤ t.acc + t.rate := by
  simp [Timebase.carries]

theorem Timebase.advance_of_no_carry {t : Timebase} (below : t.acc + t.rate < 16777216) : t.advance = 1 := by
  simp [Timebase.advance, Timebase.carries_iff, below]

theorem Timebase.advance_of_carry_fast {t : Timebase} (carry : 16777216 ≤ t.acc + t.rate) (fast : t.sense = .fast) :
    t.advance = 2 := by
  simp [Timebase.advance, Timebase.carries_iff, carry, fast]

theorem Timebase.advance_of_carry_slow {t : Timebase} (carry : 16777216 ≤ t.acc + t.rate) (slow : t.sense = .slow) :
    t.advance = 0 := by
  simp [Timebase.advance, Timebase.carries_iff, carry, slow]

theorem Timebase.tick_room (t : Timebase) : t.tick.room = (t.room + t.advance) % 2 ^ 48 := rfl

theorem Timebase.tick_acc (t : Timebase) :
    t.tick.acc = if t.acc + t.rate < 16777216 then t.acc + t.rate else t.acc + t.rate - 16777216 := by
  by_cases below : t.acc + t.rate < 16777216
  · simp [Timebase.tick, Timebase.carries_iff, below]
  · simp [Timebase.tick, Timebase.carries_iff, below, not_lt.1 below]

/-- The millisecond ticks the timebase; reading the lines leaves it alone. -/
theorem exec_millisecond_time (lines : Lines) (s : State) :
    ∃ t, exec (.millisecond lines) s = .next t ∧ t.time = s.time.tick := ⟨_, rfl, rfl⟩

/-! ## SET TRIM (R170) -/

theorem exec_setTrim (tag : Byte) (rate : BitVec 16) (code : Byte) (s : State) :
    exec (.setTrim tag rate code) s = goOn (takeRequest 0x41 tag (answerSetTrim rate code) s) := rfl

theorem readCode_pair_eq_none {α : Type} {x y : α} {b : Byte} (h0 : b ≠ 0) (h1 : b ≠ 1) : readCode [x, y] b = none :=
  Option.eq_none_iff_forall_ne_some.2 fun _ h => by
    rcases readCode_pair_eq_some.1 h with ⟨e, _⟩ | ⟨e, _⟩
    · exact h0 e
    · exact h1 e

theorem readCode_sense (sense : Sense) : readCode [Sense.fast, Sense.slow] sense.code = some sense := by
  cases sense <;> rfl

section
variable {s : State} {rate : BitVec 16} {code : Byte}

theorem answerSetTrim_needsService (idle : s.link.service.debounced = false) :
    answerSetTrim rate code s = refuse s .needsService := by
  simp [answerSetTrim, State.serviceActive, idle]

theorem answerSetTrim_outOfRange (service : s.link.service.debounced = true) (notFast : code ≠ 0) (notSlow : code ≠ 1) :
    answerSetTrim rate code s = refuse s .outOfRange := by
  simp [answerSetTrim, State.serviceActive, service, readCode_pair_eq_none notFast notSlow]

theorem answerSetTrim_accept (service : s.link.service.debounced = true) (sense : Sense) :
    answerSetTrim rate sense.code s = accept (s.setTime { s.time with rate := rate.toNat, sense := sense })
      (bytesBE 2 rate.toNat ++ [sense.code] ++ bytesBE 3 s.time.acc) := by
  simp [answerSetTrim, State.serviceActive, service, readCode_sense]

end

/-- Settles O23: SET TRIM by its three branches, then the millisecond as one tick of the timebase, with or without a carry. -/
theorem setTrimReplacesRateAndSense : Obligations.SetTrimReplacesRateAndSense := by
  intro tag rate code s free
  have arm := exec_setTrim tag rate code s
  refine ⟨fun idle => ?_, fun service notFast notSlow => ?_, fun service sense => ?_, fun lines => ?_⟩
  · exact declined_of (status := .needsService) arm free rfl (answerSetTrim_needsService idle)
  · exact declined_of (status := .outOfRange) arm free rfl (answerSetTrim_outOfRange service notFast notSlow)
  · rintro rfl
    exact accepted_of_accept arm free rfl (answerSetTrim_accept service sense)
  · obtain ⟨t, ran, ticked⟩ := exec_millisecond_time lines s
    refine ⟨t, ran, ?_⟩
    rw [ticked]
    refine ⟨rfl, rfl, s.time.tick_acc, fun below => ?_, fun carry fast => ?_, fun carry slow => ?_, fun still bounded => ?_⟩
    · rw [Timebase.tick_room, Timebase.advance_of_no_carry below]
    · rw [Timebase.tick_room, Timebase.advance_of_carry_fast carry fast]
    · rw [Timebase.tick_room, Timebase.advance_of_carry_slow carry slow, Nat.add_zero]
    · have below : s.time.acc + s.time.rate < 16777216 := by omega
      exact ⟨by rw [Timebase.tick_acc, if_pos below, still, Nat.add_zero],
        by rw [Timebase.tick_room, Timebase.advance_of_no_carry below]⟩

/-! ## CANCEL (R176) -/

theorem exec_cancel (tag n : Byte) (s : State) :
    exec (.cancel tag n) s = goOn (takeRequest 0x43 tag (answerCancel n) s) := rfl

theorem answerCancel_outOfRange {n : Byte} (beyond : 8 ≤ n.toNat) (s : State) :
    answerCancel n s = refuse s .outOfRange := by
  simp [answerCancel, readIndex_none beyond]

theorem answerCancel_accept (k : Fin 8) (s : State) :
    answerCancel (indexByte k) s = accept (s.setSlot k none) [slotStateCode (s.slot k)] := by
  simp [answerCancel, readIndex_indexByte]

/-- SCHEDULE takes the FREE slot below which every slot is occupied (R173). -/
theorem freeSlot_eq_some {s : State} {k : Fin 8} :
    s.freeSlot = some k ↔ s.slot k = none ∧ ∀ j, j < k → (s.slot j).isSome = true := by
  rw [State.freeSlot, ← Fin.find?_eq_find?_finRange, Fin.find?_eq_some_iff]
  simp

/-- Settles O25: the two branches of CANCEL, then the freed slot as the lowest FREE one. -/
theorem cancelFreesTheSlot : Obligations.CancelFreesTheSlot := by
  refine ⟨fun tag n s free beyond => ?_, fun tag k s free => ⟨?_, State.setSlot_slot_same s k none, rfl, fun occupied => ?_⟩⟩
  · exact declined_of (status := .outOfRange) (exec_cancel tag n s) free rfl (answerCancel_outOfRange beyond s)
  · exact accepted_of_accept (exec_cancel tag (indexByte k) s) free rfl (answerCancel_accept k s)
  · refine freeSlot_eq_some.2 ⟨State.setSlot_slot_same s k none, fun j below => ?_⟩
    rw [State.setSlot_slot, if_neg below.ne']
    exact occupied j below

end Sys2Proof.Machine
end

section
/-! What a command can do: the answer of a request, and one case for each effect a command has on the part (`Effect`). Every law of a
run is shown to be kept by going through the cases of `Effect`, and not through the commands again. -/

namespace Sys2Proof.Machine

/-! ## The answers of the requests -/

/-- What a command answers once it is taken as a request; a command that is no request answers nothing and changes nothing. -/
def answerOf : Instr → State → Answer
  | .status _ => answerStatus
  | .readChannel _ channel => answerReadChannel channel
  | .readZone _ zone => answerReadZone zone
  | .readFan _ fan => answerReadFan fan
  | .readArbiter _ => answerReadArbiter
  | .readAlarms _ first => answerReadAlarms first
  | .readNotices _ => answerReadNotices
  | .readProbe _ probe => answerReadProbe probe
  | .readTime _ => answerReadTime
  | .readSchedule _ => answerReadSchedule
  | .acknowledge _ key => answerAcknowledge key
  | .clearFlags _ channel flags => answerClearFlags channel flags
  | .mask _ classes => answerMask classes
  | .lampTest _ => answerLampTest
  | .trace _ channel => answerTrace channel
  | .fanStart _ fan duration => answerFanStart fan duration
  | .fanStop _ fan => answerFanStop fan
  | .fanLock _ fan => answerFanLock fan
  | .fanRelease _ fan => answerFanRelease fan
  | .rotate _ zone => answerRotate zone
  | .channelHold _ channel => answerChannelHold channel
  | .channelResume _ channel => answerChannelResume channel
  | .zero _ channel => answerZero channel
  | .span _ channel known => answerSpan channel known
  | .bump _ channel => answerBump channel
  | .setTime _ time => answerSetTime time
  | .setTrim _ rate sense => answerSetTrim rate sense
  | .schedule _ fields => answerSchedule fields
  | .cancel _ slot => answerCancel slot
  | .setChannel _ channel fields => answerSetChannel channel fields
  | .setProfile _ profile coefficients => answerSetProfile profile coefficients
  | .setZone _ zone fields => answerSetZone zone fields
  | .setFan _ fan fields => answerSetFan fan fields
  | .setProbe _ probe fields => answerSetProbe probe fields
  | .setArbiter _ fields => answerSetArbiter fields
  | .arm _ => answerArm
  | .disarm _ => answerDisarm
  | .unknownKind _ _ => fun s => refuse s .unknownKind
  | _ => fun s => accept s

/-- A request is taken with its kind, its tag and its answer. -/
theorem exec_request {c : Instr} {kind tag : Byte} (h : requestOf c = some (kind, tag)) (s : State) :
    exec c s = goOn (takeRequest kind tag (answerOf c) s) := by
  cases c
  case unknownKind t k =>
    have named : (if k.toNat < 0x80 ∧ k ∉ requestKinds then some (k, t) else none) = some (kind, tag) := h
    split at named
    · cases named
      exact if_pos ‹_›
    · cases named
  all_goals cases h
  all_goals rfl

/-! ## The effects -/

/-- Channel `c` may take the place of channel `b` as far as the ranges go. -/
def KeepsRange (b c : Channel) : Prop := ChannelLaw b → ChannelLaw c

/-- A zone's record `r` differs from `z` in its gas level, its coupling and their timers alone. -/
def SameButLevels (z r : Zone) : Prop :=
  r = { z with gas := r.gas, holdTimer := r.holdTimer, coupling := r.coupling, lingerTimer := r.lingerTimer }

/-- What a command does to the part, beside the framing of its request and its reply. The guards say what the laws of a run need of
each. -/
inductive Effect (s : State) : State → Prop where
  | none : Effect s s
  | link (l : Link) (fewer : l.notices.length ≤ s.link.notices.length) (receiver : l.receiver = s.link.receiver) :
      Effect s (s.setLink l)
  | time (t : Timebase) (range : TimeLaw s → TimeLaw (s.setTime t)) : Effect s (s.setTime t)
  | lamp (t : Option Nat) : Effect s (s.setAlarm { s.alarm with lampTimer := t })
  | millisecond (lines : Lines) : Effect s ((s.setTime s.time.tick).readLines lines)
  | powerOn (lines : ResetLines) (receiver : Link.reset.receiver = s.link.receiver) : Effect s (s.poweredOn lines).failsafeStart
  | failsafe : Effect s s.failsafeStart
  | putChannel (i : Fin 16) (c : Channel) (cfg : c.cfg = (s.chan i).cfg) (state : c.state = (s.chan i).state)
      (reading : c.reading = (s.chan i).reading) (range : KeepsRange (s.chan i) c) :
      Effect s (s.does fun w => w.putChannel i c)
  | seen (i : Fin 16) : Effect s (s.setChan i (s.chan i).readFlags)
  | span (i : Fin 16) (k : Nat) : Effect s (s.setChan i { s.chan i with armedSpan := some k })
  | moveChannel (i : Fin 16) (c : Channel) (notes : List NoticeBody) (cfg : c.cfg = (s.chan i).cfg)
      (range : KeepsRange (s.chan i) c) : Effect s (s.does fun w => (w.noticeAll notes).moveAndTell i c)
  | sample (i : Fin 16) (code : Nat) (sampled : (s.chan i).state ≠ .off) : Effect s (s.does fun w => w.sample i code)
  | serviceFall : Effect s ((s.setLink { s.link with service := s.link.service.toggle }).does fun w =>
      w.forEachOpen (s.setLink { s.link with service := s.link.service.toggle }).underTest Work.serviceFalls)
  | acknowledge (keys : List (Fin 82)) : Effect s (s.does fun w =>
      (w.map fun s => s.setAlarm (s.alarm.acknowledge keys)).alarmPass (!(s.alarm.affected keys).isEmpty) [])
  | mask (channelNote flowNote : Bool) : Effect s (s.does fun w =>
      (w.map fun r => r.setAlarm (s.alarm.setMask channelNote flowNote s.room)).alarmPass
        (decide ((s.alarm.setMask channelNote flowNote s.room).records ≠ s.alarm.records))
        (createdNotices s.alarm (s.alarm.setMask channelNote flowNote s.room)))
  | setChannel (i : Fin 16) (c : ChannelCfg) (unarmed : s.setup.armed = false) :
      Effect s (s.setChan i { s.chan i with cfg := c })
  | setProfile (p : Fin 4) (r : Profile) : Effect s (s.setProfile p r)
  | setZone (z : Fin 6) (c : ZoneCfg) (unarmed : s.setup.armed = false) (order : c.order.Nodup) :
      Effect s (s.setZone z { s.zone z with cfg := c })
  | setFan (i : Fin 8) (c : FanCfg) (unarmed : s.setup.armed = false) : Effect s (s.setFan i { s.fan i with cfg := c })
  | setProbe (p : Fin 8) (c : ProbeCfg) (unarmed : s.setup.armed = false) :
      Effect s (s.setProbe p { s.probe p with cfg := c })
  | setArbiter (k w g : Nat) (unarmed : s.setup.armed = false) : Effect s (s.setArb { s.arb with k := k, w := w, g := g })
  | fanStart (i : Fin 8) (d : Nat) (present : (s.fan i).cfg.present = true) (takes : (s.fan i).takesClaims = true) :
      Effect s (s.does fun w => w.startManual i d)
  | fanStop (i : Fin 8) : Effect s (s.does fun w => w.removeClaim i .manual)
  | fanLock (i : Fin 8) (managed : (s.fan i).managed = true) (free : (s.fan i).state.lockedOut = false) :
      Effect s (s.does fun w => w.lockFan i)
  | fanRelease (i : Fin 8) (locked : (s.fan i).state.lockedOut = true) :
      Effect s (s.does fun w => w.releaseFan i)
  | rotate (z : Fin 6) (armed : s.setup.armed = true) (used : s.used z = true) : Effect s (s.does fun w => w.rotateZone z)
  | setTime (time : BitVec 48) : Effect s ((s.setTime { s.time with room := time.toNat }).does fun w =>
      w.forEachOpen (s.setTime { s.time with room := time.toNat }).dueSlots fun w k => w.fireSlot k true)
  | slotFire (k : Fin 8) : Effect s (s.does fun w => w.fireSlot k false)
  | arm (unarmed : s.setup.armed = false) (valid : s.invalid = .none) : Effect s (s.does Work.arm)
  | disarm (armed : s.setup.armed = true) : Effect s (s.does Work.disarm)
  | zoneLevel (z : Fin 6) (r : Zone) (active : (s.zone z).active = true) (same : SameButLevels (s.zone z) r) :
      Effect s (s.does fun w => w.evaluateDemand z r false)
  | eqz : Effect s (s.does fun w => ((w.map fun s => { s with eqz := s.eqz.toggle }).post (.eqz (!s.eqz.debounced))).forEachOpen
      s.activeZones fun w z => w.post (.coupling z (!s.eqz.debounced)))
  | flow (i : Fin 8) : Effect s (s.does fun w => w.takeFlow i)
  | fanFault (i : Fin 8) (detail : FanFault) (state : (s.fan i).state = .proving ∨ (s.fan i).state = .running) :
      Effect s (s.does fun w => w.moveFan i ((s.fan i).faulted s.clock detail))
  | minRun (i : Fin 8) (state : (s.fan i).state = .proving ∨ (s.fan i).state = .running) : Effect s (s.does fun w =>
      if (s.fan i).stopPending then
        w.moveFan i ({ s.fan i with minRunTimer := Option.none, minRunElapsed := true }.coasting s.clock)
      else w.moveFan i { s.fan i with minRunTimer := Option.none, minRunElapsed := true })
  | coast (i : Fin 8) (state : (s.fan i).state = .coasting) : Effect s (s.does fun w =>
      if (s.fan i).claims.none_ then w.enterIdle i else w.enterWaiting i)
  | retry (i : Fin 8) (state : (s.fan i).state = .fault) : Effect s (s.does fun w => w.retryFan i)
  | manualEnds (i : Fin 8) : Effect s (s.does fun w => (w.map fun s => s.setFan i { s.fan i with
      manualTimer := Option.none, manualDuration := Option.none }).removeClaim i .manual)
  | exerciseEnds (i : Fin 8) : Effect s (s.does fun w =>
      (w.map fun s => s.setFan i { s.fan i with exerciseTimer := Option.none }).removeClaim i .exercise)
  | exerciseDue (i : Fin 8) : Effect s (s.does fun w => w.exerciseFallsDue i)
  | flowNoted (i : Fin 8) : Effect s (s.does fun w => w.moveFan i { s.fan i with flowNote := true, noteTimer := Option.none })
  | flowCleared (i : Fin 8) : Effect s (s.does fun w => w.moveFan i { s.fan i with flowNote := false, clearTimer := Option.none })
  | ageOut : Effect s (s.does fun w => (w.map fun s => s.setArb { s.arb with history := s.arb.history.drop 1 }).consider)
  | spacing : Effect s (s.does fun w => (w.map fun s => s.setArb { s.arb with spacing := Option.none }).consider)
  | probe (p : Fin 8) (r : Probe) (cfg : r.cfg = (s.probe p).cfg)
      (contribution : (s.probe p).contribution = (s.probe p).contributes → r.contribution = r.contributes)
      (state : r.state.isSome = (s.probe p).state.isSome) : Effect s (s.does fun w => w.moveProbe p r)

/-! ## Each request's effect -/

/-- What an answer leaves: one of the effects, and nothing where it refuses. -/
structure Answers (s : State) (a : Answer) : Prop where
  effect : Effect s a.st
  refused : a.status ≠ .ok → a.st = s

theorem Answers.refuse (s : State) (status : Status) (body : List Byte) : Answers s (refuse s status body) := ⟨.none, fun _ => rfl⟩

theorem Answers.ok {s : State} {a : Answer} (effect : Effect s a.st) (ok : a.status = .ok) : Answers s a :=
  ⟨effect, fun h => absurd ok h⟩

theorem Answers.accept {s t : State} (effect : Effect s t) (body : List Byte) : Answers s (accept t body) := .ok effect rfl

theorem ChannelLaw.congr {b c : Channel} (r : c.reading = b.reading) (p : c.bumpPeak = b.bumpPeak ∨ c.bumpPeak = none)
    (x : c.secA = b.secA) (y : c.secB = b.secB) : KeepsRange b c := by
  rintro ⟨reading, peak, secA, secB⟩
  refine ⟨by rwa [r], fun v hv => ?_, by rwa [x], by rwa [y]⟩
  rcases p with p | p
  · exact peak v (by rw [← p, hv])
  · rw [p] at hv; cases hv

theorem answerReadChannel_answers (n : Byte) (s : State) : Answers s (answerReadChannel n s) := by
  unfold answerReadChannel
  split
  · exact .refuse ..
  · exact .accept (.seen _) _

theorem answerAcknowledge_answers (key : Byte) (s : State) : Answers s (answerAcknowledge key s) := by
  unfold answerAcknowledge
  split
  · exact .refuse ..
  · exact .accept (.acknowledge _) _

theorem answerClearFlags_answers (n : Byte) (flags : List Byte) (s : State) : Answers s (answerClearFlags n flags s) := by
  unfold answerClearFlags
  split
  · rename_i i listed _ _
    exact .accept (.putChannel i ((s.chan i).clearFlags listed) rfl rfl rfl (.congr rfl (.inl rfl) rfl rfl)) _
  · exact .refuse ..
  · exact .refuse ..

theorem answerMask_answers (classes : List Byte) (s : State) : Answers s (answerMask classes s) := by
  unfold answerMask
  split
  · exact .refuse ..
  · split
    · exact .refuse ..
    · exact .accept (.mask _ _) _

theorem answerTrace_answers (n : Byte) (s : State) : Answers s (answerTrace n s) := by
  unfold answerTrace
  split
  · exact .refuse ..
  · rename_i selection _
    exact .accept (.link { s.link with traceChannel := selection, traceIndex := 0, traceBuffer := none } le_rfl rfl) _

theorem answerFanStart_answers (n : Byte) (d : BitVec 24) (s : State) : Answers s (answerFanStart n d s) := by
  unfold answerFanStart
  split
  · exact .refuse ..
  · split
    · exact .refuse ..
    · split
      · exact .refuse ..
      · exact .ok (.fanStart _ _ (by simp_all) (by simp_all)) rfl

theorem answerFanStop_answers (n : Byte) (s : State) : Answers s (answerFanStop n s) := by
  unfold answerFanStop
  split
  · exact .refuse ..
  · split
    · exact .refuse ..
    · exact .ok (.fanStop _) rfl

theorem answerFanLock_answers (n : Byte) (s : State) : Answers s (answerFanLock n s) := by
  unfold answerFanLock
  split
  · exact .refuse ..
  · split
    · exact .refuse ..
    · split
      · exact .refuse ..
      · split
        · exact .refuse ..
        · split
          · exact .accept .none _
          · exact .accept (.fanLock _ (by simp_all) (by simp_all)) _

theorem answerFanRelease_answers (n : Byte) (s : State) : Answers s (answerFanRelease n s) := by
  unfold answerFanRelease
  split
  · exact .refuse ..
  · split
    · exact .refuse ..
    · split
      · exact .refuse ..
      · split
        · exact .refuse ..
        · exact .accept (.fanRelease _ (by simp_all)) _

theorem answerRotate_answers (n : Byte) (s : State) : Answers s (answerRotate n s) := by
  unfold answerRotate
  split
  · exact .refuse ..
  · split
    · exact .refuse ..
    · split
      · exact .refuse ..
      · exact .accept (.rotate _ (by simp_all) (by simp_all)) _

/-- A test request answers by its act once SERVICE and the number have been checked (R153). -/
theorem testRequest_answers {n : Byte} {s : State} {act : Fin 16 → Answer} (h : ∀ i, Answers s (act i)) :
    Answers s (testRequest n s act) := by
  unfold testRequest
  split
  · exact .refuse ..
  · split
    · exact .refuse ..
    · exact h _

theorem answerChannelHold_answers (n : Byte) (s : State) : Answers s (answerChannelHold n s) := by
  refine testRequest_answers fun i => ?_
  have held : Effect s (s.does fun w => w.moveAndTell i { (s.chan i).enter .hold s.clock with armedSpan := none }) :=
    .moveChannel i _ [] rfl (.congr rfl (.inl rfl) rfl rfl)
  dsimp only
  split
  · exact .accept held _
  · exact .accept held _
  all_goals exact .refuse ..

/-- Leaving HOLD or BUMP is a change of one channel's record with the notice of its test. -/
theorem leaveTest_effect (s : State) (i : Fin 16) (new : ChannelState) (reason : AbortReason) :
    Effect s (s.does fun w => w.leaveTest i new reason) :=
  .moveChannel i ((s.chan i).endTest.enter new s.clock) (abortNotices i (s.chan i) reason) rfl (.congr rfl (.inr rfl) rfl rfl)

theorem answerChannelResume_answers (n : Byte) (s : State) : Answers s (answerChannelResume n s) := by
  refine testRequest_answers fun i => ?_
  dsimp only
  split
  · exact .accept (leaveTest_effect s i _ _) _
  · exact .accept (leaveTest_effect s i _ _) _
  all_goals exact .refuse ..

theorem zeroChannel_effect (s : State) (i : Fin 16) (m : Int) : Effect s (s.does fun w => w.zeroChannel i m) := by
  by_cases held : (s.chan i).state = .hold
  · have e : (s.does fun w => w.zeroChannel i m) = s.does fun w => w.putChannel i { s.chan i with baseline := 256 * m } :=
      congrArg Work.finish (if_pos held)
    rw [e]
    exact .putChannel i _ rfl rfl rfl (.congr rfl (.inl rfl) rfl rfl)
  · have e : (s.does fun w => w.zeroChannel i m) =
        s.does fun w => (w.noticeAll []).moveAndTell i ({ s.chan i with baseline := 256 * m }.enter .hold s.clock) :=
      congrArg Work.finish (if_neg held)
    rw [e]
    exact .moveChannel i _ [] rfl (.congr rfl (.inl rfl) rfl rfl)

theorem answerZero_answers (n : Byte) (s : State) : Answers s (answerZero n s) := by
  refine testRequest_answers fun i => ?_
  dsimp only
  split
  · exact .refuse ..
  · split
    · exact .refuse ..
    · split
      · exact .refuse ..
      · exact .accept (zeroChannel_effect s i _) _

theorem answerSpan_answers (n : Byte) (known : BitVec 16) (s : State) : Answers s (answerSpan n known s) := by
  refine testRequest_answers fun i => ?_
  split
  · exact .refuse ..
  · dsimp only
    split
    · exact .accept (.span i _) _
    · exact .refuse ..

theorem answerBump_answers (n : Byte) (s : State) : Answers s (answerBump n s) := by
  refine testRequest_answers fun i => ?_
  dsimp only
  split
  · exact .accept (.moveChannel i ((s.chan i).enterBump s.clock) [] rfl (.congr rfl (.inr rfl) rfl rfl)) _
  · exact .refuse ..

theorem answerSetTime_answers (time : BitVec 48) (s : State) : Answers s (answerSetTime time s) := by
  unfold answerSetTime
  split
  · exact .refuse ..
  · exact .accept (.setTime time) _

theorem answerSetTrim_answers (rate : BitVec 16) (code : Byte) (s : State) : Answers s (answerSetTrim rate code s) := by
  unfold answerSetTrim
  split
  · exact .refuse ..
  · split
    · exact .refuse ..
    · rename_i sense _
      exact .accept (.time { s.time with rate := rate.toNat, sense := sense } fun h => ⟨h.room, h.acc, rate.isLt⟩) _

/-- A change of the schedule table leaves the clocks and the trim. -/
theorem setSlot_effect (s : State) (k : Fin 8) (r : Option Slot) : Effect s (s.setSlot k r) :=
  .time _ fun h => ⟨h.room, h.acc, h.rate⟩

theorem answerSchedule_answers (f : ScheduleFields) (s : State) : Answers s (answerSchedule f s) := by
  unfold answerSchedule
  split
  · exact .refuse ..
  · split
    · exact .refuse ..
    · split
      · exact .refuse ..
      · exact .ok (setSlot_effect s _ _) rfl

theorem answerCancel_answers (n : Byte) (s : State) : Answers s (answerCancel n s) := by
  unfold answerCancel
  split
  · exact .refuse ..
  · exact .accept (setSlot_effect s _ _) _

theorem answerSetChannel_answers (n : Byte) (f : ChannelFields) (s : State) : Answers s (answerSetChannel n f s) := by
  unfold answerSetChannel
  split
  · exact .refuse ..
  · split
    · split
      · exact .refuse ..
      · split
        · exact .refuse ..
        · exact .accept (.setChannel _ _ (by simp_all)) _
    · exact .refuse ..
    · exact .refuse ..

theorem answerSetProfile_answers (n : Byte) (v : Vector (BitVec 16) 10) (s : State) : Answers s (answerSetProfile n v s) := by
  unfold answerSetProfile
  split
  · exact .refuse ..
  · split
    · split
      · exact .refuse ..
      · exact .accept (.setProfile _ _) _
    · exact .refuse ..
    · exact .refuse ..

theorem answerSetZone_answers (n : Byte) (f : ZoneFields) (s : State) : Answers s (answerSetZone n f s) := by
  unfold answerSetZone
  split
  · exact .refuse ..
  · split
    · split
      · exact .refuse ..
      · exact .accept (.setZone _ _ (by simp_all) (ZoneFields_read_eq_some.1 ‹_›).order.2.1) _
    · exact .refuse ..
    · exact .refuse ..

theorem answerSetFan_answers (n : Byte) (f : FanFields) (s : State) : Answers s (answerSetFan n f s) := by
  unfold answerSetFan
  split
  · exact .refuse ..
  · split
    · split
      · exact .refuse ..
      · exact .accept (.setFan _ _ (by simp_all)) _
    · exact .refuse ..
    · exact .refuse ..

theorem answerSetProbe_answers (n : Byte) (f : ProbeFields) (s : State) : Answers s (answerSetProbe n f s) := by
  unfold answerSetProbe
  split
  · exact .refuse ..
  · split
    · split
      · exact .refuse ..
      · exact .accept (.setProbe _ _ (by simp_all)) _
    · exact .refuse ..
    · exact .refuse ..

theorem answerSetArbiter_answers (f : ArbiterFields) (s : State) : Answers s (answerSetArbiter f s) := by
  unfold answerSetArbiter
  split
  · exact .refuse ..
  · split
    · exact .refuse ..
    · split
      · exact .refuse ..
      · exact .accept (.setArbiter _ _ _ (by simp_all)) _

theorem answerArm_answers (s : State) : Answers s (answerArm s) := by
  unfold answerArm
  split
  · exact .refuse ..
  · split
    · exact .refuse ..
    · split
      · exact .refuse ..
      · exact .accept (.arm (by simp_all) ‹_›) _

theorem answerDisarm_answers (s : State) : Answers s (answerDisarm s) := by
  unfold answerDisarm
  split
  · exact .refuse ..
  · split
    · exact .refuse ..
    · exact .accept (.disarm (by simp_all)) _

theorem answerReadZone_answers (n : Byte) (s : State) : Answers s (answerReadZone n s) := by
  unfold answerReadZone
  split
  · exact .refuse ..
  · exact .accept .none _

theorem answerReadFan_answers (n : Byte) (s : State) : Answers s (answerReadFan n s) := by
  unfold answerReadFan
  split
  · exact .refuse ..
  · exact .accept .none _

theorem answerReadProbe_answers (n : Byte) (s : State) : Answers s (answerReadProbe n s) := by
  unfold answerReadProbe
  split
  · exact .refuse ..
  · exact .accept .none _

theorem answerReadAlarms_answers (n : Byte) (s : State) : Answers s (answerReadAlarms n s) := by
  unfold answerReadAlarms
  split
  · exact .refuse ..
  · exact .accept .none _

theorem answerReadNotices_answers (s : State) : Answers s (answerReadNotices s) :=
  .accept (.link { s.link with notices := s.link.notices.drop 6 } (by simp) rfl) _

/-- Every answer leaves one of the effects. -/
theorem answerOf_answers (c : Instr) (s : State) : Answers s (answerOf c s) := by
  cases c with
  | readChannel _ n => exact answerReadChannel_answers n s
  | readZone _ n => exact answerReadZone_answers n s
  | readFan _ n => exact answerReadFan_answers n s
  | readAlarms _ n => exact answerReadAlarms_answers n s
  | readNotices _ => exact answerReadNotices_answers s
  | readProbe _ n => exact answerReadProbe_answers n s
  | acknowledge _ n => exact answerAcknowledge_answers n s
  | clearFlags _ n flags => exact answerClearFlags_answers n flags s
  | mask _ classes => exact answerMask_answers classes s
  | lampTest _ => exact .accept (.lamp _) _
  | trace _ n => exact answerTrace_answers n s
  | fanStart _ n d => exact answerFanStart_answers n d s
  | fanStop _ n => exact answerFanStop_answers n s
  | fanLock _ n => exact answerFanLock_answers n s
  | fanRelease _ n => exact answerFanRelease_answers n s
  | rotate _ n => exact answerRotate_answers n s
  | channelHold _ n => exact answerChannelHold_answers n s
  | channelResume _ n => exact answerChannelResume_answers n s
  | zero _ n => exact answerZero_answers n s
  | span _ n k => exact answerSpan_answers n k s
  | bump _ n => exact answerBump_answers n s
  | setTime _ t => exact answerSetTime_answers t s
  | setTrim _ r b => exact answerSetTrim_answers r b s
  | schedule _ f => exact answerSchedule_answers f s
  | cancel _ n => exact answerCancel_answers n s
  | setChannel _ n f => exact answerSetChannel_answers n f s
  | setProfile _ n v => exact answerSetProfile_answers n v s
  | setZone _ n f => exact answerSetZone_answers n f s
  | setFan _ n f => exact answerSetFan_answers n f s
  | setProbe _ n f => exact answerSetProbe_answers n f s
  | setArbiter _ f => exact answerSetArbiter_answers f s
  | arm _ => exact answerArm_answers s
  | disarm _ => exact answerDisarm_answers s
  | unknownKind _ _ => exact .refuse ..
  | _ => exact .accept .none _

/-- A request whose payload has another length than its fields take is refused, and otherwise acts. -/
theorem withLength_answers {s : State} {act : State → Answer} (fits : Bool) (h : Answers s (act s)) :
    Answers s (withLength fits act s) := by
  cases fits with
  | false => exact .refuse ..
  | true => exact h

/-- A received request acts as one of the commands, its length checked, or is of an unknown kind. -/
theorem answerRequest_cases (kind : Byte) (p : List Byte) :
    (∃ c fits, answerRequest kind p = withLength fits (answerOf c)) ∨
      answerRequest kind p = fun s => refuse s .unknownKind := by
  unfold answerRequest
  split
  · exact .inl ⟨(.status 0), _, rfl⟩
  · exact .inl ⟨(.readChannel 0 _), _, rfl⟩
  · exact .inl ⟨(.readZone 0 _), _, rfl⟩
  · exact .inl ⟨(.readFan 0 _), _, rfl⟩
  · exact .inl ⟨(.readArbiter 0), _, rfl⟩
  · exact .inl ⟨(.readAlarms 0 _), _, rfl⟩
  · exact .inl ⟨(.readNotices 0), _, rfl⟩
  · exact .inl ⟨(.readProbe 0 _), _, rfl⟩
  · exact .inl ⟨(.readTime 0), _, rfl⟩
  · exact .inl ⟨(.readSchedule 0), _, rfl⟩
  · exact .inl ⟨(.acknowledge 0 _), _, rfl⟩
  · exact .inl ⟨(.clearFlags 0 _ _), _, rfl⟩
  · exact .inl ⟨(.mask 0 _), _, rfl⟩
  · exact .inl ⟨(.lampTest 0), _, rfl⟩
  · exact .inl ⟨(.trace 0 _), _, rfl⟩
  · exact .inl ⟨(.fanStart 0 _ _), _, rfl⟩
  · exact .inl ⟨(.fanStop 0 _), _, rfl⟩
  · exact .inl ⟨(.fanLock 0 _), _, rfl⟩
  · exact .inl ⟨(.fanRelease 0 _), _, rfl⟩
  · exact .inl ⟨(.rotate 0 _), _, rfl⟩
  · exact .inl ⟨(.channelHold 0 _), _, rfl⟩
  · exact .inl ⟨(.channelResume 0 _), _, rfl⟩
  · exact .inl ⟨(.zero 0 _), _, rfl⟩
  · exact .inl ⟨(.span 0 _ _), _, rfl⟩
  · exact .inl ⟨(.bump 0 _), _, rfl⟩
  · exact .inl ⟨(.setTime 0 _), _, rfl⟩
  · exact .inl ⟨(.setTrim 0 _ _), _, rfl⟩
  · exact .inl ⟨(.schedule 0 _), _, rfl⟩
  · exact .inl ⟨(.cancel 0 _), _, rfl⟩
  · exact .inl ⟨(.setChannel 0 _ _), _, rfl⟩
  · exact .inl ⟨(.setProfile 0 _ _), _, rfl⟩
  · exact .inl ⟨(.setZone 0 _ _), _, rfl⟩
  · exact .inl ⟨(.setFan 0 _ _), _, rfl⟩
  · exact .inl ⟨(.setProbe 0 _ _), _, rfl⟩
  · exact .inl ⟨(.setArbiter 0 _), _, rfl⟩
  · exact .inl ⟨(.arm 0), _, rfl⟩
  · exact .inl ⟨(.disarm 0), _, rfl⟩
  · exact .inr rfl

/-- What a received request does is one of the effects, or nothing. -/
theorem answerRequest_answers (kind : Byte) (p : List Byte) (s : State) : Answers s (answerRequest kind p s) := by
  rcases answerRequest_cases kind p with ⟨c, fits, h⟩ | h
  · rw [h]
    exact withLength_answers fits (answerOf_answers c s)
  · rw [h]
    exact .refuse ..

end Sys2Proof.Machine
end

section
/-! Every command has one of the effects (`exec_runs`), and a law that the effects keep is kept by every step (`step_keeps`). Then the
statements about requests and events in general. -/

namespace Sys2Proof.Machine

/-! ## Probes -/

/-- A probe's record `q` stands in for `r`: it contributes a spill by its state where `r` does, and is evaluated where `r` is. -/
structure ProbeFollows (r q : Probe) : Prop where
  cfg : q.cfg = r.cfg
  contribution : r.contribution = r.contributes → q.contribution = q.contributes
  state : q.state.isSome = r.state.isSome

theorem ProbeFollows.trans {r q p : Probe} (a : ProbeFollows r q) (b : ProbeFollows q p) : ProbeFollows r p :=
  ⟨b.cfg.trans a.cfg, b.contribution ∘ a.contribution, b.state.trans a.state⟩

/-- A record with the same state, held spill and contribution. -/
theorem ProbeFollows.of_same {r q : Probe} (cfg : q.cfg = r.cfg) (state : q.state = r.state) (held : q.heldSpill = r.heldSpill)
    (contribution : q.contribution = r.contribution) : ProbeFollows r q := by
  refine ⟨cfg, fun h => ?_, by rw [state]⟩
  unfold Probe.contributes at h ⊢
  rw [contribution, h, state, held]

theorem Probe.takeWet_follows (r : Probe) (clock room : Nat) : ProbeFollows r (r.takeWet clock room) := by
  unfold Probe.takeWet
  split
  all_goals exact ⟨rfl, by simp_all [Probe.contributes], by simp_all⟩

theorem Probe.takeDry_follows (r : Probe) (clock : Nat) : ProbeFollows r (r.takeDry clock) := by
  unfold Probe.takeDry
  split
  all_goals exact ⟨rfl, by simp_all [Probe.contributes], by simp_all⟩

theorem Probe.takeLine_follows (r : Probe) (old new : LineCond) (clock room : Nat) :
    ProbeFollows r (r.takeLine old new clock room) := by
  have lose : ProbeFollows r (if LineCond.good old then r.loseLine clock else r) := by
    split
    · exact .of_same rfl rfl rfl rfl
    · exact .of_same rfl rfl rfl rfl
  unfold Probe.takeLine
  split
  · exact .of_same rfl rfl rfl rfl
  · split
    · exact .of_same rfl rfl rfl rfl
    · cases new with
      | wet => exact r.takeWet_follows clock room
      | dry => exact r.takeDry_follows clock
      | shorted => exact lose
      | opened => exact lose

theorem Probe.fail_follows {r : Probe} (h : r.state.any (fun st => st ≠ .fault) = true) : ProbeFollows r r.fail := by
  refine ⟨rfl, fun k => ?_, ?_⟩
  · rw [show r.fail.contribution = r.contribution from rfl, k]
    unfold Probe.contributes Probe.fail
    cases hs : r.state with
    | none => rw [hs] at h; cases h
    | some st => cases st <;> simp_all
  · cases hs : r.state with
    | none => rw [hs] at h; cases h
    | some st => rfl

theorem Probe.recover_follows {r : Probe} (h : r.state = some .fault) (room : Nat) : ProbeFollows r (r.recover room) := by
  unfold Probe.recover
  cases r.line with
  | dry => exact ⟨rfl, fun _ => rfl, by rw [h]; rfl⟩
  | wet => exact ⟨rfl, fun _ => rfl, by rw [h]; rfl⟩
  | shorted => exact .of_same rfl rfl rfl rfl
  | opened => exact .of_same rfl rfl rfl rfl

theorem Effect.ofProbe {s : State} {p : Fin 8} {r : Probe} (h : ProbeFollows (s.probe p) r) :
    Effect s (s.does fun w => w.moveProbe p r) := .probe p r h.cfg h.contribution h.state

/-! ## Every command -/

/-- A step's whole work: the framing of its request, one effect, and the framing of its reply. -/
def Does (s t : State) : Prop :=
  ∃ l a, l.notices = s.link.notices ∧ Effect (s.setLink l) a ∧ (t = a ∨ ∃ r, t = a.sendReply r)

/-- An outcome that goes on with such work. -/
def Runs (s : State) (o : Host.Outcome State Fault Refusal) : Prop := ∃ t, o = .next t ∧ Does s t

theorem Runs.of_effect {s t : State} (h : Effect s t) : Runs s (goOn t) := ⟨t, rfl, s.link, t, rfl, h, .inl rfl⟩

theorem Runs.of_link {s : State} (l : Link) (h : l.notices = s.link.notices) : Runs s (goOn (s.setLink l)) :=
  ⟨_, rfl, l, _, h, .none, .inl rfl⟩

/-- An event acts where it has come and changes nothing elsewhere. -/
theorem Runs.of_guard {s t : State} {p : Prop} [Decidable p] (h : p → Effect s t) : Runs s (if p then goOn t else goOn s) := by
  split
  · exact .of_effect (h ‹_›)
  · exact .of_effect .none

theorem takeRequest_does {kind tag : Byte} {act : State → Answer} {s : State} :
    takeRequest kind tag act s = s ∨ ∃ r, takeRequest kind tag act s = (act s).st.sendReply r := by
  cases free : s.link.outstanding with
  | none => exact .inr ⟨_, takeRequest_taken free⟩
  | some r => exact .inl (takeRequest_busy free)

theorem Runs.of_request {kind tag : Byte} {act : State → Answer} {s : State} (h : Answers s (act s)) :
    Runs s (goOn (takeRequest kind tag act s)) := by
  rcases takeRequest_does (kind := kind) (tag := tag) (act := act) (s := s) with e | ⟨r, e⟩
  · rw [e]; exact .of_effect .none
  · rw [e]; exact ⟨_, rfl, s.link, (act s).st, rfl, h.effect, .inr ⟨r, rfl⟩⟩

theorem execFrameReceived_runs (s : State) : Runs s (execFrameReceived s) := by
  unfold execFrameReceived
  split
  · exact .of_effect .none
  · split
    · exact .of_effect .none
    · split
      · exact .of_link _ rfl
      · rename_i f _ _ _
        have h := answerRequest_answers f.kind f.payload s.frameChecked
        rcases takeRequest_does (kind := f.kind) (tag := f.tag) (act := answerRequest f.kind f.payload)
          (s := s.frameChecked) with e | ⟨r, e⟩
        · rw [e]; exact .of_link _ rfl
        · rw [e]; exact ⟨_, rfl, s.frameChecked.link, _, rfl, h.effect, .inr ⟨r, rfl⟩⟩

theorem takeByte_link (s : State) (b : Byte) : ∃ r : Receiver, s.takeByte b = s.setReceiver r := by
  have hunt : ∃ r : Receiver, s.hunt b = s.setReceiver r := by
    unfold State.hunt
    split
    · exact ⟨_, rfl⟩
    · exact ⟨_, rfl⟩
  unfold State.takeByte
  split
  · exact hunt
  · split
    · exact hunt
    · dsimp only
      split
      · exact ⟨_, rfl⟩
      · exact ⟨_, rfl⟩

theorem execServiceDebounce_runs (s : State) : Runs s (execServiceDebounce s) := by
  unfold execServiceDebounce
  split
  · dsimp only
    split
    · exact .of_link _ rfl
    · exact .of_effect .serviceFall
  · exact .of_effect .none

theorem execFrameSent_runs (s : State) : Runs s (execFrameSent s) := by
  unfold execFrameSent
  split
  · exact .of_effect .none
  · exact .of_link { s.link with outstanding := none, transmitter := .free } rfl
  · exact .of_link { s.link with transmitter := if s.link.outstanding.isSome then .reply else .free } rfl

theorem execTraceFrameSend_runs (s : State) : Runs s (execTraceFrameSend s) := by
  unfold execTraceFrameSend
  split
  · rename_i r _ _ _
    exact .of_link { s.link with transmitter := .trace r, traceBuffer := none } rfl
  all_goals exact .of_effect .none

/-- Every command goes on with one of the effects. -/
theorem exec_runs (c : Instr) (s : State) : Runs s (exec c s) := by
  cases h : requestOf c with
  | some r =>
    rw [exec_request h s]
    exact .of_request (answerOf_answers c s)
  | none =>
    cases c with
    | unknownKind tag kind =>
      change Runs s (execUnknownKind tag kind s)
      unfold execUnknownKind
      split
      · exact .of_request (.refuse ..)
      · exact .of_effect .none
    | powerOnReset lines =>
      exact ⟨_, rfl, { s.link with receiver := Link.reset.receiver }, _, rfl, .powerOn lines rfl, .inl rfl⟩
    | sampleEvent i code => exact .of_guard fun g => .sample i _ (by unfold State.samples at g; simp_all)
    | warmupExpiry i =>
      refine .of_guard fun g => ?_
      by_cases window : (s.chan i).warmupWindow = true
      · simp only [window, if_true]
        exact .moveChannel i ((s.chan i).enter .tracking s.clock) [] rfl (.congr rfl (.inl rfl) rfl rfl)
      · simp only [window]
        exact .putChannel i _ rfl rfl rfl (.congr rfl (.inl rfl) rfl rfl)
    | holdLimitExpiry i => exact .of_guard fun _ => leaveTest_effect s i _ _
    | recoverLimitExpiry i =>
      exact .of_guard fun _ => .moveChannel i ((s.chan i).enter (.fault .noRecovery) s.clock) [] rfl (.congr rfl (.inl rfl) rfl rfl)
    | bumpTimerExpiry i =>
      exact .of_guard fun _ => .moveChannel i ((s.chan i).endTest.enter (.fault .bumpFail) s.clock)
        [.testResult i (.bumpFail (s.chan i).bumpPeak)] rfl (.congr rfl (.inr rfl) rfl rfl)
    | zoneHoldExpiry z => exact .of_guard fun g => .zoneLevel z _ g.1 rfl
    | lingerExpiry z => exact .of_guard fun g => .zoneLevel z _ g.1 rfl
    | eqzDebounce => exact .of_guard fun _ => .eqz
    | flowDebounce i => exact .of_guard fun _ => .flow i
    | provingExpiry i => exact .of_guard fun g => .fanFault i _ (.inl g.1)
    | minRunExpiry i => exact .of_guard fun g => .minRun i g.1
    | coastExpiry i => exact .of_guard fun g => .coast i g.1
    | retryExpiry i => exact .of_guard fun g => .retry i g.1
    | flowLossExpiry i => exact .of_guard fun g => .fanFault i _ (.inr g.1)
    | manualTimerExpiry i => exact .of_guard fun _ => .manualEnds i
    | exerciseRunExpiry i => exact .of_guard fun _ => .exerciseEnds i
    | exerciseDue i => exact .of_guard fun _ => .exerciseDue i
    | flowNoteExpiry i => exact .of_guard fun _ => .flowNoted i
    | flowClearExpiry i => exact .of_guard fun _ => .flowCleared i
    | historyAgeOut => exact .of_guard fun _ => .ageOut
    | spacingExpiry => exact .of_guard fun _ => .spacing
    | probeLineChange p resistance =>
      refine .of_effect (.ofProbe (.trans (q := { s.probe p with line := classify resistance }) (.of_same rfl rfl rfl rfl) ?_))
      split
      · exact Probe.takeLine_follows ..
      · exact .of_same rfl rfl rfl rfl
    | wetDebounceExpiry p => exact .of_guard fun g => .ofProbe ⟨rfl, fun _ => rfl, by rw [g.1]; rfl⟩
    | dryDebounceExpiry p => exact .of_guard fun g => .ofProbe ⟨rfl, fun _ => rfl, by rw [g.1]; rfl⟩
    | supervisionExpiry p => exact .of_guard fun g => .ofProbe (Probe.fail_follows g.1)
    | recoveryExpiry p => exact .of_guard fun g => .ofProbe (Probe.recover_follows g.1 _)
    | lampTestExpiry => exact .of_guard fun _ => .lamp none
    | failsafeTimerExpiry => exact .of_guard fun _ => .failsafe
    | slotFire k => exact .of_guard fun _ => .slotFire k
    | serviceDebounce => exact execServiceDebounce_runs s
    | frameReceived => exact execFrameReceived_runs s
    | crcMismatch =>
      change Runs s (execCrcMismatch s)
      unfold execCrcMismatch
      split
      · exact .of_effect .none
      · split
        · exact .of_effect .none
        · exact .of_link _ rfl
    | badLengthByte =>
      change Runs s (execBadLengthByte s)
      unfold execBadLengthByte
      split
      · exact .of_effect .none
      · split
        · exact .of_link _ rfl
        · exact .of_effect .none
    | interbyteGap =>
      change Runs s (execInterbyteGap s)
      unfold execInterbyteGap
      split
      · exact .of_effect .none
      · split
        · exact .of_link _ rfl
        · exact .of_effect .none
    | framingFault => exact .of_link _ rfl
    | breakLine => exact .of_link _ rfl
    | frameSent => exact execFrameSent_runs s
    | traceFrameSend => exact execTraceFrameSend_runs s
    | millisecond lines => exact .of_effect (.millisecond lines)
    | receivedByte b =>
      obtain ⟨r, e⟩ := takeByte_link s b
      change Runs s (goOn (s.takeByte b))
      rw [e]
      exact .of_link _ rfl
    | _ => cases h

/-- A law that no change of the link's own fields touches, that takes no notice of the queue of commands, and that every effect keeps,
is kept by every step. -/
theorem step_keeps {P : State → Prop} (link : ∀ s l, l.notices = s.link.notices → P s → P (s.setLink l))
    (pending : ∀ s cs, P s → P (s.withPending cs)) (effect : ∀ s a, Effect s a → P s → P a) {s t : State}
    (h : step s = .next t) (p : P s) : P t := by
  unfold step at h
  split at h
  · cases h; exact p
  · rename_i c rest _
    obtain ⟨u, e, l, a, same, did, left⟩ := exec_runs c (s.withPending rest)
    rw [e] at h
    cases h
    have after := effect _ _ did (link _ l same (pending s rest p))
    rcases left with rfl | ⟨r, rfl⟩
    · exact after
    · exact link a { a.link with outstanding := some r, transmitter := _ } rfl after

/-! ## The statements -/

/-- Settles O1: both branches of the step. -/
theorem stepTakesFrontCommand : Obligations.StepTakesFrontCommand := by
  refine ⟨fun c rest s h => ?_, fun s h => ?_⟩
  · unfold step; rw [h]
  · unfold step; rw [h]

/-- Settles O3: a taken request leaves its answer with its reply, and a refused one no effect. -/
theorem oneReplyPerRequest : Obligations.OneReplyPerRequest := by
  intro c kind tag s h free
  refine ⟨(answerOf c s).st, (answerOf c s).status, (answerOf c s).marks, (answerOf c s).body, ?_, (answerOf_answers c s).refused⟩
  rw [exec_request h s, takeRequest_taken free]
  rfl

/-- Settles O4: a busy part takes no request. -/
theorem busyPartDiscardsRequests : Obligations.BusyPartDiscardsRequests := by
  intro c kind tag r s h busy
  rw [exec_request h s, takeRequest_busy busy]
  rfl

end Sys2Proof.Machine
end

section
/-! How far the shared operations reach. Every operation of a fan and of a zone changes nothing but the zones, the fans, the arbiter's
running fields, the notice queue and the count of orders drawn (`Within`). -/

namespace Sys2Proof.Machine

/-- The notices that a hand-over may queue: those of the alarm unit, the zones and the fans. -/
def NoticeBody.consequent : NoticeBody → Bool
  | .alarmChange .. => true | .regimeChange _ => true | .permitChange _ => true | .zoneChange .. => true | .fanChange .. => true
  | .channelChange .. => false | .testResult .. => false | .scheduleFired .. => false

/-- A notice queue that has gone on with such notices alone. -/
def Consequences (q r : List Notice) : Prop :=
  ∃ more : List Notice, r = more.foldl enqueue q ∧ ∀ n ∈ more, n.body.consequent = true

theorem Consequences.refl (q : List Notice) : Consequences q q := ⟨[], rfl, fun _ h => (nomatch h)⟩

theorem Consequences.trans {p q r : List Notice} (a : Consequences p q) (b : Consequences q r) : Consequences p r := by
  obtain ⟨m, rfl, hm⟩ := a
  obtain ⟨n, rfl, hn⟩ := b
  exact ⟨m ++ n, by rw [List.foldl_append], fun x mem => (List.mem_append.1 mem).elim (hm x) (hn x)⟩

theorem Consequences.follows {q r : List Notice} (h : Consequences q r) : NoticesFollow q r := ⟨h.choose, h.choose_spec.1⟩

theorem Consequences.one (s : State) {b : NoticeBody} (h : b.consequent = true) : Consequences s.link.notices (s.notice b).link.notices :=
  ⟨[{ time := s.room, body := b, overflow := false }], rfl, fun n mem => by rw [List.mem_singleton.1 mem]; exact h⟩

/-- Nothing has changed but the zones, the fans, what the arbiter runs, the notice queue, which has gone on, and the count of orders. -/
structure Within (s t : State) : Prop where
  rest : t = { s with
    zones := t.zones, fans := t.fans, arb := t.arb, choices := t.choices, link := { s.link with notices := t.link.notices } }
  notices : Consequences s.link.notices t.link.notices
  arb : t.arb.k = s.arb.k ∧ t.arb.w = s.arb.w ∧ t.arb.g = s.arb.g

theorem Within.refl (s : State) : Within s s := ⟨rfl, .refl _, rfl, rfl, rfl⟩

theorem Within.trans {s t u : State} (a : Within s t) (b : Within t u) : Within s u := by
  refine ⟨?_, a.notices.trans b.notices, b.arb.1.trans a.arb.1, b.arb.2.1.trans a.arb.2.1, b.arb.2.2.trans a.arb.2.2⟩
  have e := b.rest
  rw [a.rest] at e
  exact e

theorem Within.alarm {s t : State} (h : Within s t) : t.alarm = s.alarm := by rw [h.rest]
theorem Within.setup {s t : State} (h : Within s t) : t.setup = s.setup := by rw [h.rest]
theorem Within.probes {s t : State} (h : Within s t) : t.probes = s.probes := by rw [h.rest]
theorem Within.chans {s t : State} (h : Within s t) : t.chans = s.chans := by rw [h.rest]
theorem Within.time {s t : State} (h : Within s t) : t.time = s.time := by rw [h.rest]
theorem Within.pending {s t : State} (h : Within s t) : t.pending = s.pending := by rw [h.rest]
theorem Within.eqz {s t : State} (h : Within s t) : t.eqz = s.eqz := by rw [h.rest]

theorem within_setFan (s : State) (i : Fin 8) (f : Fan) : Within s (s.setFan i f) := ⟨rfl, .refl _, rfl, rfl, rfl⟩
theorem within_setZone (s : State) (z : Fin 6) (r : Zone) : Within s (s.setZone z r) := ⟨rfl, .refl _, rfl, rfl, rfl⟩
theorem within_notice (s : State) {b : NoticeBody} (h : b.consequent = true) : Within s (s.notice b) := ⟨rfl, .one s h, rfl, rfl, rfl⟩
theorem within_choices (s : State) (n : Nat) : Within s { s with choices := n } := ⟨rfl, .refl _, rfl, rfl, rfl⟩

theorem within_setArb (s : State) {a : Arbiter} (k : a.k = s.arb.k) (w : a.w = s.arb.w) (g : a.g = s.arb.g) :
    Within s (s.setArb a) := ⟨rfl, .refl _, k, w, g⟩

theorem within_leaveWaiting (s : State) (i : Fin 8) : Within s (s.leaveWaiting i) := within_setArb s rfl rfl rfl

theorem within_ite {s : State} {p : Prop} [Decidable p] {a b : Work} (ha : Within s a.st) (hb : Within s b.st) :
    Within s (if p then a else b).st := by
  split
  · exact ha
  · exact hb

theorem within_mapFan (w : Work) (i : Fin 8) (g : State → Fan) : Within w.st (w.map fun s => s.setFan i (g s)).st :=
  within_setFan ..

theorem within_mapZone (w : Work) (z : Fin 6) (g : State → Zone) : Within w.st (w.map fun s => s.setZone z (g s)).st :=
  within_setZone ..

theorem within_mapArb (w : Work) {g : State → Arbiter} (h : (g w.st).k = w.st.arb.k ∧ (g w.st).w = w.st.arb.w ∧
    (g w.st).g = w.st.arb.g) : Within w.st (w.map fun s => s.setArb (g s)).st := within_setArb _ h.1 h.2.1 h.2.2

theorem within_mapLeave (w : Work) (i : Fin 8) : Within w.st (w.map fun s => s.leaveWaiting i).st := within_leaveWaiting ..

theorem within_foldl {α : Type} {f : Work → α → Work} (h : ∀ w a, Within w.st (f w a).st) (xs : List α) (w : Work) :
    Within w.st (xs.foldl f w).st := by
  induction xs generalizing w with
  | nil => exact .refl _
  | cons x xs ih => exact (h w x).trans (ih (f w x))

theorem within_forEachOpen {α : Type} {f : Work → α → Work} (h : ∀ w a, Within w.st (f w a).st) (xs : List α) (w : Work) :
    Within w.st (w.forEachOpen xs f).st := by
  have drawn : Within w.st (w.map fun s => { s with choices := s.choices + drawsFor xs }).st := within_choices _ _
  exact drawn.trans (within_foldl h _ _)

/-! ## Fans -/

theorem within_moveFan (w : Work) (i : Fin 8) (f : Fan) : Within w.st (w.moveFan i f).st := by
  have noted : Within w.st (if f.state = (w.st.fan i).state then w.st.setFan i (f.remeasure (w.st.fan i) w.st.clock)
      else (w.st.setFan i (f.remeasure (w.st.fan i) w.st.clock)).notice (.fanChange i f.state f.reportedDetail)) := by
    split
    · exact within_setFan ..
    · exact (within_setFan ..).trans (within_notice _ rfl)
  unfold Work.moveFan
  dsimp only
  split
  · rw [handCondition_st, handCondition_st, apply_ite Work.st]
    exact noted
  · refine .trans ?_ (within_forEachOpen (f := fun w z => w.post (.availability z)) (fun w z => .refl w.st) _ _)
    rw [handCondition_st, handCondition_st, apply_ite Work.st]
    exact noted

theorem within_enterRunning (w : Work) (i : Fin 8) : Within w.st (w.enterRunning i).st := within_moveFan ..

theorem within_enterProving (w : Work) (i : Fin 8) : Within w.st (w.enterProving i).st := by
  unfold Work.enterProving
  dsimp only
  split
  · exact (within_moveFan ..).trans (within_enterRunning ..)
  · exact within_moveFan ..

theorem within_stopOrCoast (w : Work) (i : Fin 8) : Within w.st (w.stopOrCoast i).st := by
  unfold Work.stopOrCoast
  split
  · exact within_moveFan ..
  · exact within_setFan ..

theorem within_consider (w : Work) : Within w.st w.consider.st := by
  unfold Work.consider
  split
  · rename_i i _
    have granted : Within w.st (w.map fun s => s.setArb (s.arb.granted i s.clock)).st := within_mapArb w ⟨rfl, rfl, rfl⟩
    exact (granted.trans (within_mapFan _ i _)).trans (within_enterProving _ i)
  · exact .refl _

theorem within_enterWaiting (w : Work) (i : Fin 8) : Within w.st (w.enterWaiting i).st := by
  unfold Work.enterWaiting
  refine .trans ?_ (within_consider _)
  exact (within_moveFan w i _).trans (within_mapArb _ ⟨rfl, rfl, rfl⟩)

theorem within_testExercise (w : Work) (i : Fin 8) : Within w.st (w.testExercise i).st := by
  unfold Work.testExercise
  split
  · exact (within_mapFan w i _).trans (within_enterWaiting _ i)
  · exact .refl _

theorem within_enterIdle (w : Work) (i : Fin 8) : Within w.st (w.enterIdle i).st :=
  (within_moveFan ..).trans (within_testExercise ..)

theorem within_addClaim (w : Work) (i : Fin 8) (src : Source) : Within w.st (w.addClaim i src).st := by
  have added : Within w.st (w.map fun s => s.setFan i { s.fan i with claims := (s.fan i).claims.add src }).st :=
    within_mapFan ..
  unfold Work.addClaim
  dsimp only
  split
  · exact .refl _
  · split
    · exact added.trans (within_enterWaiting _ i)
    · exact added.trans (within_consider _)
    · exact added.trans (within_setFan ..)
    · exact added.trans (within_setFan ..)
    all_goals exact added

theorem within_removeClaim (w : Work) (i : Fin 8) (src : Source) : Within w.st (w.removeClaim i src).st := by
  have removed : Within w.st (w.map fun s => s.setFan i ((s.fan i).withoutClaim src)).st := within_mapFan ..
  unfold Work.removeClaim
  dsimp only
  split
  · exact .refl _
  · split
    · split
      · exact (removed.trans (within_mapLeave _ i)).trans (within_enterIdle _ i)
      · exact removed.trans (within_stopOrCoast _ i)
      · exact removed.trans (within_stopOrCoast _ i)
      all_goals exact removed
    · split
      · exact removed.trans (within_consider _)
      all_goals exact removed

theorem within_startManual (w : Work) (i : Fin 8) (d : Nat) : Within w.st (w.startManual i d).st := by
  have claimed := (within_mapFan w i fun s => { s.fan i with manualDuration := if d = 0 then none else some d }).trans
    (within_addClaim _ i .manual)
  exact within_ite (claimed.trans (within_mapFan _ i _)) claimed

theorem within_exerciseFallsDue (w : Work) (i : Fin 8) : Within w.st (w.exerciseFallsDue i).st := by
  unfold Work.exerciseFallsDue
  dsimp only
  split
  · exact within_setFan ..
  · exact (within_mapFan w i _).trans (within_testExercise _ i)

theorem within_takeFlow (w : Work) (i : Fin 8) : Within w.st (w.takeFlow i).st := by
  unfold Work.takeFlow
  dsimp only
  split
  · split
    · exact (within_moveFan ..).trans (within_enterRunning ..)
    · exact within_moveFan ..
  all_goals exact within_moveFan ..

theorem within_retryFan (w : Work) (i : Fin 8) : Within w.st (w.retryFan i).st := by
  unfold Work.retryFan
  dsimp only
  split
  · exact within_moveFan ..
  · exact (within_moveFan ..).trans (within_testExercise ..)

theorem within_lockFan (w : Work) (i : Fin 8) : Within w.st (w.lockFan i).st :=
  (within_moveFan w i _).trans (within_mapLeave _ i)

theorem within_releaseFan (w : Work) (i : Fin 8) : Within w.st (w.releaseFan i).st := by
  unfold Work.releaseFan
  dsimp only
  split
  · exact (within_moveFan ..).trans (within_testExercise ..)
  · split
    · exact (within_moveFan ..).trans (within_testExercise ..)
    · exact within_moveFan ..

/-! ## Zones -/

theorem within_allocate (w : Work) (z : Fin 6) : Within w.st (w.allocate z).st :=
  ((within_mapZone w z _).trans (within_foldl (fun v f => within_removeClaim v f (.zone z)) _ _)).trans
    (within_foldl (fun v f => within_addClaim v f (.zone z)) _ _)

theorem within_endEvaluation (w : Work) (z : Fin 6) (before : Zone) : Within w.st (w.endEvaluation z before).st := by
  unfold Work.endEvaluation
  dsimp only
  split
  · exact .refl _
  · exact within_notice _ rfl

theorem within_demandStep (w : Work) (z : Fin 6) (always : Bool) : Within w.st (w.demandStep z always).st := by
  unfold Work.demandStep
  dsimp only
  split
  · exact (within_mapZone w z _).trans (within_allocate _ z)
  · exact within_mapZone w z _

theorem within_evaluateSight (w : Work) (z : Fin 6) : Within w.st (w.evaluateSight z).st :=
  ((within_mapZone w z _).trans (within_demandStep _ z false)).trans (within_endEvaluation _ z _)

theorem within_evaluateDemand (w : Work) (z : Fin 6) (r : Zone) (always : Bool) :
    Within w.st (w.evaluateDemand z r always).st :=
  ((within_mapZone w z _).trans (within_demandStep _ z always)).trans (within_endEvaluation _ z _)

theorem within_evaluateAllocation (w : Work) (z : Fin 6) (r : Zone) : Within w.st (w.evaluateAllocation z r).st :=
  ((within_mapZone w z _).trans (within_allocate _ z)).trans (within_endEvaluation _ z _)

theorem within_takeCoupling (w : Work) (z : Fin 6) (active : Bool) : Within w.st (w.takeCoupling z active).st := by
  unfold Work.takeCoupling
  dsimp only
  split
  · exact within_setZone ..
  · exact within_evaluateDemand ..

theorem within_takeSpill (w : Work) (z : Fin 6) : Within w.st (w.takeSpill z).st := by
  unfold Work.takeSpill
  dsimp only
  split
  · exact .refl _
  · exact within_evaluateDemand ..

theorem within_rotateZone (w : Work) (z : Fin 6) : Within w.st (w.rotateZone z).st := within_evaluateAllocation ..

theorem within_ifActive (w : Work) (z : Fin 6) {f : Work → Work} (h : Within w.st (f w).st) : Within w.st (w.ifActive z f).st := by
  unfold Work.ifActive
  split
  · exact h
  · exact .refl _

theorem within_perform (w : Work) (a : Action) : Within w.st (w.perform a).st := by
  cases a with
  | rotate z => exact within_rotateZone w z
  | start f d => exact within_startManual w f d
  | exercise f => exact (within_mapFan w f _).trans (within_exerciseFallsDue _ f)
  | mark t => exact .refl _

/-! ## ARM's steps -/

theorem within_armFan (w : Work) (i : Fin 8) : Within w.st (w.armFan i).st := by
  unfold Work.armFan
  dsimp only
  split
  · exact within_setFan ..
  · split
    · exact (within_mapFan w i _).trans (within_enterProving _ i)
    · exact (within_mapFan w i _).trans (within_enterIdle _ i)

theorem within_armFans (w : Work) : Within w.st w.armFans.st := within_foldl within_armFan _ w

theorem within_armZone (w : Work) (z : Fin 6) : Within w.st (w.armZone z).st :=
  (within_mapZone w z _).trans (within_evaluateSight _ z)

theorem within_armStop (w : Work) (i : Fin 8) : Within w.st (w.armStop i).st := by
  unfold Work.armStop
  dsimp only
  split
  · split
    · exact within_stopOrCoast ..
    · exact within_stopOrCoast ..
    all_goals exact .refl _
  · exact .refl _

end Sys2Proof.Machine
end

section
/-! How far a channel's operations reach (`OnChannel`), and the fields that every command keeps or moves within their ranges (`Core`).
From these: no command touches the queue of commands, and every step keeps the ranges. -/

namespace Sys2Proof.Machine

/-! ## Channels -/

/-- Channel `c` follows `b`: the same configuration but for the gain, which a span sets (R159), and within the ranges. -/
structure ChannelFollows (b c : Channel) : Prop where
  cfg : c.cfg = { b.cfg with gain := c.cfg.gain }
  range : KeepsRange b c

theorem ChannelFollows.refl (c : Channel) : ChannelFollows c c := ⟨rfl, id⟩

theorem ChannelFollows.trans {a b c : Channel} (x : ChannelFollows a b) (y : ChannelFollows b c) : ChannelFollows a c := by
  refine ⟨?_, y.range ∘ x.range⟩
  have e := y.cfg
  rw [x.cfg] at e
  exact e

theorem ChannelFollows.of_same {b c : Channel} (cfg : c.cfg = b.cfg) (r : c.reading = b.reading)
    (p : c.bumpPeak = b.bumpPeak ∨ c.bumpPeak = none) (x : c.secA = b.secA) (y : c.secB = b.secB) : ChannelFollows b c :=
  ⟨by rw [cfg], .congr r p x y⟩

/-- Nothing has changed but one channel, within its ranges, and the notice queue, which has gone on. -/
structure OnChannel (i : Fin 16) (s t : State) : Prop where
  rest : t = { s with chans := vset s.chans i (t.chan i), link := { s.link with notices := t.link.notices } }
  notices : NoticesFollow s.link.notices t.link.notices
  follows : ChannelFollows (s.chan i) (t.chan i)

theorem OnChannel.refl (i : Fin 16) (s : State) : OnChannel i s s := by
  refine ⟨?_, .refl _, .refl _⟩
  unfold State.chan
  rw [vset_vget]

theorem OnChannel.trans {i : Fin 16} {s t u : State} (a : OnChannel i s t) (b : OnChannel i t u) : OnChannel i s u := by
  refine ⟨?_, a.notices.trans b.notices, a.follows.trans b.follows⟩
  have e := b.rest
  rw [a.rest] at e
  simpa using e

theorem OnChannel.chan_ne {i j : Fin 16} {s t : State} (h : OnChannel i s t) (ne : i ≠ j) : t.chan j = s.chan j := by
  rw [h.rest]
  exact vget_vset_ne _ _ ne

theorem onChannel_notice (i : Fin 16) (s : State) (b : NoticeBody) : OnChannel i s (s.notice b) := by
  refine ⟨?_, ⟨[_], rfl⟩, .refl _⟩
  change _ = { s with chans := vset s.chans i (vget s.chans i), link := _ }
  rw [vset_vget]
  rfl

theorem onChannel_noticeAll (i : Fin 16) (bs : List NoticeBody) (w : Work) : OnChannel i w.st (w.noticeAll bs).st := by
  induction bs generalizing w with
  | nil => exact .refl i _
  | cons b bs ih => exact (onChannel_notice i w.st b).trans (ih (w.notice b))

theorem onChannel_setChan {i : Fin 16} {s : State} {c : Channel} (h : ChannelFollows (s.chan i) c) :
    OnChannel i s (s.setChan i c) := by
  refine ⟨?_, .refl _, by rwa [State.setChan_chan_same]⟩
  rw [State.setChan_chan_same]
  rfl

theorem onChannel_putChannel {w : Work} {i : Fin 16} {c : Channel} (h : ChannelFollows (w.st.chan i) c) :
    OnChannel i w.st (w.putChannel i c).st := by
  rw [putChannel_st]
  exact onChannel_setChan h

theorem onChannel_moveChannel {w : Work} {i : Fin 16} {c : Channel} (h : ChannelFollows (w.st.chan i) c) :
    OnChannel i w.st (w.moveChannel i c).st := by
  by_cases e : (w.st.chan i).state = c.state
  · rw [moveChannel_same e]
    exact onChannel_putChannel h
  · rw [moveChannel_changed e]
    exact (onChannel_setChan h).trans (onChannel_notice i _ _)

theorem onChannel_tellZone {i : Fin 16} {s : State} {w : Work} (h : OnChannel i s w.st) : OnChannel i s (w.tellZone i).st := by
  rw [tellZone_st]
  exact h

theorem onChannel_moveAndTell {w : Work} {i : Fin 16} {c : Channel} (h : ChannelFollows (w.st.chan i) c) :
    OnChannel i w.st (w.moveAndTell i c).st := onChannel_tellZone (onChannel_moveChannel h)

/-! ## The sample event -/

theorem clampInt_mem (lo hi x : Int) (h : lo ≤ hi) : lo ≤ clampInt lo hi x ∧ clampInt lo hi x ≤ hi := by
  unfold clampInt
  omega

theorem SectionLaw.shift {h : Section} (l : SectionLaw h) (k : Coefficients) (x y : Int) :
    SectionLaw (h.shift x (h.output k y)) := ⟨clampInt_mem _ _ _ (by decide), l.y1⟩

theorem follows_occurIf (c : Channel) (test : Bool) (flag : ChannelFlag) : ChannelFollows c (c.occurIf test flag) := by
  unfold Channel.occurIf
  split
  · exact .of_same rfl rfl (.inl rfl) rfl rfl
  · exact .refl c

theorem follows_stepFilter (c : Channel) (p : Profile) (s : Int) : ChannelFollows c (c.stepFilter p s) :=
  ⟨rfl, fun h => ⟨h.reading, h.peak, h.secA.shift _ _ _, h.secB.shift _ _ _⟩⟩

/-- A valid input, which R4's codes give, is within the 16-bit range. -/
def SampleValue (s : Int) : Prop := -32768 ≤ s ∧ s ≤ 32767

theorem follows_preloadWith (c : Channel) {s : Int} (h : SampleValue s) : ChannelFollows c (c.preloadWith s) :=
  ⟨rfl, fun l => ⟨l.reading, l.peak, ⟨h, h⟩, ⟨h, h⟩⟩⟩

theorem follows_fed (c : Channel) (p : Profile) {s : Int} (h : c.preload = true → SampleValue s) :
    ChannelFollows c (c.fed p s) := by
  have ready : ChannelFollows c (if c.preload then c.preloadWith s else c) := by
    split
    · exact follows_preloadWith c (h ‹_›)
    · exact .refl c
  exact ((ready.trans (follows_stepFilter _ p s)).trans (follows_occurIf ..)).trans (follows_occurIf ..)

theorem follows_completeWindow (c : Channel) : ChannelFollows c c.completeWindow :=
  ⟨rfl, fun h => ⟨fun _ e => Option.some.inj e ▸ readingOf_le _, h.peak, h.secA, h.secB⟩⟩

theorem follows_completionFlags (c : Channel) (raw : Int) : ChannelFollows c (c.completionFlags raw) :=
  (follows_occurIf ..).trans (follows_occurIf ..)

theorem follows_raisePeak (c : Channel) {r : Nat} (h : r ≤ 1000) : ChannelFollows c (c.raisePeak r) := by
  refine ⟨rfl, fun l => ⟨l.reading, fun v e => ?_, l.secA, l.secB⟩⟩
  change maxReading c.bumpPeak (some r) = some v at e
  cases peak : c.bumpPeak with
  | none => rw [peak] at e; cases e; exact h
  | some b =>
    rw [peak] at e
    cases e
    exact max_le (l.peak b peak) h

theorem follows_enter (c : Channel) (st : ChannelState) (clock : Nat) : ChannelFollows c (c.enter st clock) :=
  .of_same rfl rfl (.inl rfl) rfl rfl

theorem onChannel_completionTests (w : Work) (i : Fin 16) (m raw : Int) : OnChannel i w.st (w.completionTests i m raw).st := by
  unfold Work.completionTests
  dsimp only
  split
  · split
    · exact onChannel_moveChannel (follows_enter ..)
    · exact .refl i _
  · refine onChannel_moveChannel ?_
    split
    · exact .of_same rfl rfl (.inl rfl) rfl rfl
    · exact .of_same rfl rfl (.inl rfl) rfl rfl
  · split
    · split
      · exact (onChannel_notice i w.st _).trans
          (onChannel_moveChannel (w := w.notice _) ⟨rfl, fun h => ⟨h.reading, h.peak, h.secA, h.secB⟩⟩)
      · exact (onChannel_notice i w.st _).trans (onChannel_moveChannel (w := w.notice _) (.of_same rfl rfl (.inl rfl) rfl rfl))
    · exact .refl i _
  · split
    · exact (onChannel_notice i w.st _).trans (onChannel_moveChannel (w := w.notice _) (.of_same rfl rfl (.inr rfl) rfl rfl))
    · exact onChannel_moveChannel (follows_raisePeak _ (readingOf_le raw))
  · split
    · exact onChannel_moveChannel (follows_enter ..)
    · exact .refl i _
  · exact .refl i _
  · exact .refl i _

theorem onChannel_complete (w : Work) (i : Fin 16) : OnChannel i w.st (w.complete i).st := by
  refine onChannel_tellZone (.trans (onChannel_putChannel ?_) (onChannel_completionTests _ i _ _))
  exact (follows_completeWindow _).trans (follows_completionFlags _ _)

theorem onChannel_feed (w : Work) (i : Fin 16) {s : Int} (h : (w.st.chan i).preload = true → SampleValue s) :
    OnChannel i w.st (w.feed i s).st := by
  have put : OnChannel i w.st (w.putChannel i ((w.st.chan i).fed (w.st.profile (w.st.chan i).cfg.profile) s)).st :=
    onChannel_putChannel (follows_fed _ _ h)
  unfold Work.feed
  dsimp only
  split
  · exact put.trans (onChannel_complete _ i)
  · exact put

theorem onChannel_recoverLoop {w : Work} {i : Fin 16} {c : Channel} (h : ChannelFollows (w.st.chan i) c) :
    OnChannel i w.st (w.recoverLoop i c).st := by
  unfold Work.recoverLoop
  split
  · exact onChannel_tellZone (onChannel_moveChannel (h.trans
      ⟨rfl, fun l => ⟨fun _ e => (nomatch e), l.peak, l.secA, l.secB⟩⟩))
  · exact onChannel_putChannel (h.trans (.of_same rfl rfl (.inl rfl) rfl rfl))

theorem onChannel_validSample {w : Work} {i : Fin 16} {c : Channel} {code : Nat} (valid : rangeOf code = none)
    (h : ChannelFollows (w.st.chan i) c) : OnChannel i w.st (w.validSample i c code).st := by
  have taken : ChannelFollows (w.st.chan i) { c with oorCount := 0, lastValid := some ((code : Int) - 800) } :=
    h.trans (.of_same rfl rfl (.inl rfl) rfl rfl)
  have value : SampleValue ((code : Int) - 800) := by
    unfold rangeOf at valid
    unfold SampleValue
    split at valid
    · cases valid
    · split at valid
      · cases valid
      · omega
  unfold Work.validSample
  dsimp only
  split
  · exact onChannel_recoverLoop taken
  · exact (onChannel_putChannel taken).trans (onChannel_feed _ i fun _ => value)

theorem onChannel_outOfRangeInLoopFault {w : Work} {i : Fin 16} {c : Channel} (dir : LoopDir)
    (h : ChannelFollows (w.st.chan i) c) : OnChannel i w.st (w.outOfRangeInLoopFault i c dir).st := by
  unfold Work.outOfRangeInLoopFault
  dsimp only
  split
  · exact onChannel_moveChannel (h.trans (.of_same rfl rfl (.inl rfl) rfl rfl))
  · exact onChannel_putChannel (h.trans (.of_same rfl rfl (.inl rfl) rfl rfl))

theorem noticeAll_chan (bs : List NoticeBody) (w : Work) (i : Fin 16) : (w.noticeAll bs).st.chan i = w.st.chan i := by
  induction bs generalizing w with
  | nil => rfl
  | cons b bs ih => exact ih (w.notice b)

theorem onChannel_outOfRangeSample {w : Work} {i : Fin 16} {c : Channel} (dir : LoopDir)
    (h : ChannelFollows (w.st.chan i) c) : OnChannel i w.st (w.outOfRangeSample i c dir).st := by
  have counted : ChannelFollows (w.st.chan i) ({ c with oorDir := dir, oorCount := c.oorCount + 1 }.occur .loopHold) :=
    h.trans (.of_same rfl rfl (.inl rfl) rfl rfl)
  have put := onChannel_putChannel counted
  unfold Work.outOfRangeSample
  dsimp only
  split
  · have moved : OnChannel i w.st ((w.noticeAll (abortNotices i c .loop)).moveChannel i
        (({ c with oorDir := dir, oorCount := c.oorCount + 1 }.occur .loopHold).loopFaulted dir w.st.clock)).st := by
      refine (onChannel_noticeAll i _ w).trans (onChannel_moveChannel ?_)
      rw [noticeAll_chan]
      exact counted.trans (.of_same rfl rfl (.inr rfl) rfl rfl)
    split
    · exact moved
    · exact onChannel_tellZone moved
  · split
    · rename_i unset _
      refine put.trans (onChannel_feed _ i fun pending => ?_)
      rw [putChannel_st, State.setChan_chan_same, unset] at pending
      cases pending
    all_goals exact put

theorem onChannel_sample (w : Work) (i : Fin 16) (code : Nat) : OnChannel i w.st (w.sample i code).st := by
  have taken : ChannelFollows (w.st.chan i) { w.st.chan i with lastCode := some code, sampledAt := some w.st.clock } :=
    .of_same rfl rfl (.inl rfl) rfl rfl
  unfold Work.sample
  dsimp only
  split
  · exact onChannel_validSample ‹_› taken
  · split
    · exact onChannel_outOfRangeInLoopFault _ taken
    · exact onChannel_outOfRangeSample _ taken

theorem onChannel_serviceWork (w : Work) (i : Fin 16) :
    OnChannel i w.st ((w.notice (.testResult i (.testAborted .service (w.st.chan i).armedSpan.isSome))).moveAndTell i
      ((w.st.chan i).endTest.enter .recover w.st.clock)).st :=
  (onChannel_notice i w.st _).trans (onChannel_moveAndTell (w := w.notice _) (.of_same rfl rfl (.inr rfl) rfl rfl))

end Sys2Proof.Machine
end

section
/-! What every command keeps whatever it does: the queue of commands, and the ranges of the notice queue, of the time fields and of the
channels (`Core`). -/

namespace Sys2Proof.Machine

/-! ## Core fields -/

/-- From `s` to `t` the queue of commands has stayed, and the ranges have been kept. -/
structure Core (s t : State) : Prop where
  pending : t.pending = s.pending
  receiver : t.link.receiver = s.link.receiver
  notices : NoticeLaw s → NoticeLaw t
  time : TimeLaw s → TimeLaw t
  channels : (∀ i, ChannelLaw (s.chan i)) → ∀ i, ChannelLaw (t.chan i)

theorem Core.refl (s : State) : Core s s := ⟨rfl, rfl, id, id, id⟩

theorem Core.trans {s t u : State} (a : Core s t) (b : Core t u) : Core s u :=
  ⟨b.pending.trans a.pending, b.receiver.trans a.receiver, b.notices ∘ a.notices, b.time ∘ a.time, b.channels ∘ a.channels⟩

theorem markNewest_length (q : List Notice) : (markNewest q).length = q.length := by
  induction q using markNewest.induct with
  | case1 => rfl
  | case2 n => rfl
  | case3 n m rest ih => simp [markNewest, ih]

theorem enqueue_length_le (q : List Notice) (n : Notice) (h : q.length ≤ 32) : (enqueue q n).length ≤ 32 := by
  unfold enqueue
  split
  · simp; omega
  · rwa [markNewest_length]

/-- A queue that has gone on holds no more than R193 lets it (R193). -/
theorem NoticesFollow.length_le {q r : List Notice} (h : NoticesFollow q r) (bound : q.length ≤ 32) : r.length ≤ 32 := by
  obtain ⟨more, rfl⟩ := h
  induction more generalizing q with
  | nil => exact bound
  | cons n more ih => exact ih (enqueue_length_le q n bound)

theorem TimeLaw.of_eq {s t : State} (e : t.time = s.time) (h : TimeLaw s) : TimeLaw t :=
  ⟨by rw [e]; exact h.room, by rw [e]; exact h.acc, by rw [e]; exact h.rate⟩

theorem Core.of_keeps {s t : State} (h : CascadeKeeps s t) : Core s t :=
  ⟨h.pending, h.receiver, h.notices.length_le, .of_eq h.time, fun l i => by unfold State.chan; rw [h.chans]; exact l i⟩

theorem Core.of_within {s t : State} (h : Within s t) : Core s t :=
  ⟨h.pending, by rw [h.rest], h.notices.follows.length_le, .of_eq h.time, fun l i => by unfold State.chan; rw [h.chans]; exact l i⟩

theorem Core.of_onChannel {i : Fin 16} {s t : State} (h : OnChannel i s t) : Core s t := by
  refine ⟨by rw [h.rest], by rw [h.rest], h.notices.length_le, .of_eq (by rw [h.rest]), fun l j => ?_⟩
  by_cases e : i = j
  · subst e
    exact h.follows.range (l i)
  · rw [h.chan_ne e]
    exact l j

/-- A change that reaches neither the queue of commands, nor the notices, nor the clocks, nor a channel. -/
theorem Core.of_same {s t : State} (p : t.pending = s.pending) (r : t.link.receiver = s.link.receiver) (n : t.link.notices = s.link.notices) (x : t.time = s.time)
    (c : t.chans = s.chans) : Core s t :=
  ⟨p, r, fun h => by unfold NoticeLaw; rwa [n], .of_eq x, fun l i => by unfold State.chan; rw [c]; exact l i⟩

theorem core_setChan {s : State} {i : Fin 16} {c : Channel} (h : KeepsRange (s.chan i) c) : Core s (s.setChan i c) := by
  refine ⟨rfl, rfl, id, .of_eq rfl, fun l j => ?_⟩
  rw [State.setChan_chan]
  split
  · exact h (l i)
  · exact l j

theorem Core.does {s : State} {f : Work → Work} (h : Core s.begin.st (f s.begin).st) : Core s (s.does f) :=
  Core.trans (s := s) h (.of_keeps (does_keeps s f))

theorem core_settle (fuel : Nat) (w : Work) : Core w.st (w.settle fuel).st := .of_keeps (settle_keeps fuel w)

theorem core_foldl {α : Type} {f : Work → α → Work} (h : ∀ w a, Core w.st (f w a).st) (xs : List α) (w : Work) :
    Core w.st (xs.foldl f w).st := by
  induction xs generalizing w with
  | nil => exact .refl _
  | cons x xs ih => exact (h w x).trans (ih (f w x))

theorem core_forEachOpen {α : Type} {f : Work → α → Work} (h : ∀ w a, Core w.st (f w a).st) (xs : List α) (w : Work) :
    Core w.st (w.forEachOpen xs f).st := by
  have drawn : Core w.st (w.map fun s => { s with choices := s.choices + drawsFor xs }).st := .of_same rfl rfl rfl rfl rfl
  exact drawn.trans (core_foldl h _ _)

theorem core_notice (s : State) (b : NoticeBody) : Core s (s.notice b) :=
  ⟨rfl, rfl, NoticesFollow.length_le ⟨[_], rfl⟩, .of_eq rfl, id⟩

theorem core_alarmPass (w : Work) (changed : Bool) (notes : List NoticeBody) : Core w.st (w.alarmPass changed notes).st :=
  .of_keeps (calm_alarmPass w changed notes).keeps

theorem core_setAlarm (s : State) (a : Alarm) : Core s (s.setAlarm a) := .of_same rfl rfl rfl rfl rfl

theorem core_mapAlarm (w : Work) (g : State → Alarm) : Core w.st (w.map fun s => s.setAlarm (g s)).st := core_setAlarm ..

theorem core_passAlarm (w : Work) (g : State → Alarm) (changed : Bool) (notes : List NoticeBody) :
    Core w.st ((w.map fun s => s.setAlarm (g s)).alarmPass changed notes).st := (core_mapAlarm w g).trans (core_alarmPass ..)

theorem core_setSlot (s : State) (k : Fin 8) (r : Option Slot) : Core s (s.setSlot k r) :=
  ⟨rfl, rfl, id, fun h => ⟨h.room, h.acc, h.rate⟩, id⟩

theorem core_serviceFalls (w : Work) (i : Fin 16) : Core w.st (w.serviceFalls i).st :=
  (Core.of_onChannel (onChannel_serviceWork w i)).trans (core_settle _ _)

/-- A slot's action, performed or skipped (R175). -/
def Work.act (w : Work) (a : Action) : Work := if w.st.outcomeOf a = .performed then w.perform a else w

/-- A slot that holds `r` has fired: its notice is queued and it has moved on; its hand-overs are still to be taken. -/
def Work.fired (w : Work) (k : Fin 8) (r : Slot) (jump : Bool) : Work :=
  ((w.act r.action).notice (.scheduleFired k r.action (w.st.outcomeOf r.action) jump)).map fun s => s.setSlot k (r.movedOn s.room)

theorem fireSlot_some {w : Work} {k : Fin 8} {r : Slot} (h : w.st.slot k = some r) (jump : Bool) :
    w.fireSlot k jump = (w.fired k r jump).settle settleLimit := by
  unfold Work.fireSlot
  rw [h]
  rfl

theorem fireSlot_none {w : Work} {k : Fin 8} (h : w.st.slot k = none) (jump : Bool) : w.fireSlot k jump = w := by
  unfold Work.fireSlot
  rw [h]

theorem within_act (w : Work) (a : Action) : Within w.st (w.act a).st := within_ite (within_perform w a) (.refl _)

theorem core_fireSlot (w : Work) (k : Fin 8) (jump : Bool) : Core w.st (w.fireSlot k jump).st := by
  cases h : w.st.slot k with
  | none => rw [fireSlot_none h]; exact .refl _
  | some r =>
    rw [fireSlot_some h]
    have fired : Core w.st (w.fired k r jump).st :=
      ((Core.of_within (within_act w r.action)).trans (core_notice _ _)).trans (core_setSlot _ _ _)
    exact fired.trans (core_settle _ _)

/-! ## ARM, DISARM, power-on reset and the clocks -/

theorem core_armChannels (w : Work) : Core w.st w.armChannels.st := by
  refine core_foldl (fun v i => .of_onChannel (onChannel_moveChannel ?_)) _ _
  exact ⟨rfl, fun l => ⟨fun _ e => (nomatch e), fun _ e => (nomatch e), l.secA, l.secB⟩⟩

theorem core_armProbes (w : Work) : Core w.st w.armProbes.st := by
  refine core_foldl (fun v p => ?_) _ _
  exact .of_same rfl rfl rfl rfl rfl

/-- ARM's steps 1 to 5: everything but the zones. -/
def Work.armReady (w : Work) : Work :=
  (w.map fun s => (s.setSetup s.setup.arm).setArb s.arb.cleared).armChannels.armFans.armProbes

/-- ARM's step 6, with what steps 3 to 6 hand on taken. -/
def Work.armZoned (w : Work) : Work := (w.armReady.forEachOpen w.armReady.st.usedZones Work.armZone).settle settleLimit

/-- ARM up to the permit for the new part state. -/
def Work.armPassed (w : Work) : Work := (w.armZoned.alarmPass false []).settle settleLimit

/-- The fans that an ARM places in PROVING or RUNNING: the present ones with their output on (R99). -/
def State.startedFans (s : State) : List (Fin 8) := (List.finRange 8).filter fun i => (s.fan i).cfg.present && (s.fan i).output

theorem Work.arm_eq (w : Work) : w.arm = w.st.startedFans.foldl Work.armStop w.armPassed := rfl

theorem core_armReady (w : Work) : Core w.st w.armReady.st := by
  have first : Core w.st (w.map fun s => (s.setSetup s.setup.arm).setArb s.arb.cleared).st := .of_same rfl rfl rfl rfl rfl
  exact ((first.trans (core_armChannels _)).trans (.of_within (within_armFans _))).trans (core_armProbes _)

theorem core_armPassed (w : Work) : Core w.st w.armPassed.st := by
  have zoned : Core w.st w.armZoned.st :=
    ((core_armReady w).trans (core_forEachOpen (fun v z => .of_within (within_armZone v z)) _ _)).trans (core_settle _ _)
  exact (zoned.trans (core_alarmPass _ false [])).trans (core_settle _ _)

theorem core_arm (w : Work) : Core w.st w.arm.st :=
  (core_armPassed w).trans (core_foldl (fun v i => .of_within (within_armStop v i)) _ _)

theorem core_disarmChannel (w : Work) (i : Fin 16) : Core w.st (w.disarmChannel i).st := by
  have put : Core w.st (w.map fun s => s.setChan i (w.st.chan i).disarmed).st :=
    core_setChan fun l => ⟨fun _ e => (nomatch e), fun _ e => (nomatch e), l.secA, l.secB⟩
  unfold Work.disarmChannel
  dsimp only
  split
  · exact put
  · exact put.trans (core_notice _ _)

theorem core_disarmZone (w : Work) (z : Fin 6) : Core w.st (w.disarmZone z).st := by
  unfold Work.disarmZone
  dsimp only
  split
  · exact (Core.of_within (within_setZone w.st z _)).trans (core_notice _ _)
  · exact .of_within (within_setZone w.st z _)

theorem core_disarmFan (w : Work) (i : Fin 8) : Core w.st (w.disarmFan i).st := by
  unfold Work.disarmFan
  dsimp only
  split
  · exact (Core.of_within (within_mapFan w i _)).trans (core_notice _ _)
  · exact .of_within (within_mapFan w i _)

/-- DISARM's steps 1 to 3. -/
def Work.disarmBlocks (w : Work) : Work :=
  (List.finRange 8).foldl Work.disarmFan ((List.finRange 6).foldl Work.disarmZone ((List.finRange 16).foldl Work.disarmChannel w))

/-- DISARM's step 4: no probe is evaluated (R125). -/
def State.unprobed (s : State) : State := { s with probes := s.probes.map fun r => Probe.absent r.cfg r.line }

/-- DISARM's steps 4 and 5, and the alarm unit emptied. -/
def Work.disarmEmptied (w : Work) : Work :=
  ((w.map State.unprobed).map fun s => (s.setArb s.arb.cleared).handToStraps).map fun s =>
    s.setAlarm s.alarm.emptied

theorem Work.disarm_eq (w : Work) :
    w.disarm = (w.disarmBlocks.disarmEmptied.alarmPass (!w.st.alarm.table.isEmpty) []).map State.traceOff := rfl

theorem core_disarmBlocks (w : Work) : Core w.st w.disarmBlocks.st :=
  ((core_foldl core_disarmChannel (List.finRange 16) w).trans (core_foldl core_disarmZone (List.finRange 6) _)).trans
    (core_foldl core_disarmFan (List.finRange 8) _)

theorem core_unprobed (s : State) : Core s s.unprobed := .of_same rfl rfl rfl rfl rfl

theorem core_strapped (s : State) : Core s (s.setArb s.arb.cleared).handToStraps := .of_same rfl rfl rfl rfl rfl

theorem core_traceOff (s : State) : Core s s.traceOff := .of_same rfl rfl rfl rfl rfl

theorem core_disarmEmptied (w : Work) : Core w.st w.disarmEmptied.st :=
  ((core_unprobed w.st).trans (core_strapped _)).trans (core_setAlarm _ _)

theorem core_disarm (w : Work) : Core w.st w.disarm.st := by
  rw [Work.disarm_eq]
  exact (((core_disarmBlocks w).trans (core_disarmEmptied _)).trans (core_alarmPass _ _ [])).trans (core_traceOff _)

theorem core_failsafeStart (s : State) : Core s s.failsafeStart := by
  unfold State.failsafeStart
  split
  · exact .of_same rfl rfl rfl rfl rfl
  · exact .of_same rfl rfl rfl rfl rfl

theorem channelLaw_reset : ChannelLaw .reset :=
  ⟨fun _ e => (nomatch e), fun _ e => (nomatch e), ⟨by decide, by decide⟩, ⟨by decide, by decide⟩⟩

theorem core_poweredOn {s : State} (lines : ResetLines) (receiver : Link.reset.receiver = s.link.receiver) :
    Core s (s.poweredOn lines) := by
  refine ⟨rfl, receiver, fun _ => Nat.zero_le 32, fun _ => ⟨Nat.two_pow_pos 48, Nat.two_pow_pos 24, Nat.two_pow_pos 16⟩, fun _ i => ?_⟩
  change ChannelLaw (vget (Vector.replicate 16 Channel.reset) i)
  rw [vget_replicate]
  exact channelLaw_reset

theorem core_millisecond (s : State) (lines : Lines) : Core s ((s.setTime s.time.tick).readLines lines) := by
  refine ⟨rfl, rfl, id, fun h => ⟨Nat.mod_lt _ (by decide), ?_, h.rate⟩, id⟩
  have acc := h.acc
  have rate := h.rate
  change s.time.tick.acc < _
  rw [Timebase.tick_acc]
  split
  · omega
  · omega

/-! ## Every effect -/

theorem effect_core {s a : State} (h : Effect s a) : Core s a := by
  cases h with
  | none => exact .refl s
  | link l fewer receiver => exact ⟨rfl, receiver, fun n => fewer.trans n, .of_eq rfl, id⟩
  | time t range => exact ⟨rfl, rfl, id, range, id⟩
  | lamp t => exact .of_same rfl rfl rfl rfl rfl
  | millisecond lines => exact core_millisecond s lines
  | powerOn lines receiver => exact (core_poweredOn lines receiver).trans (core_failsafeStart _)
  | failsafe => exact core_failsafeStart s
  | putChannel i c cfg state reading range =>
    refine .does ?_
    rw [putChannel_st]
    exact core_setChan range
  | seen i => exact core_setChan (.congr rfl (.inl rfl) rfl rfl)
  | span i k => exact core_setChan (.congr rfl (.inl rfl) rfl rfl)
  | moveChannel i c notes cfg range =>
    refine .does (.of_onChannel ((onChannel_noticeAll i notes _).trans (onChannel_moveAndTell ?_)))
    rw [noticeAll_chan]
    exact ⟨by rw [cfg]; rfl, range⟩
  | sample i code _ => exact .does (.of_onChannel (onChannel_sample _ i code))
  | serviceFall =>
    refine .trans (t := s.setLink { s.link with service := s.link.service.toggle }) (.of_same rfl rfl rfl rfl rfl) ?_
    exact .does (core_forEachOpen core_serviceFalls _ _)
  | acknowledge keys => exact .does (core_passAlarm ..)
  | mask x y => exact .does (core_passAlarm _ (fun _ => s.alarm.setMask x y s.room) _ _)
  | setChannel i c _ => exact core_setChan (.congr rfl (.inl rfl) rfl rfl)
  | setProfile p r => exact .of_same rfl rfl rfl rfl rfl
  | setZone z c _ _ => exact .of_same rfl rfl rfl rfl rfl
  | setFan i c _ => exact .of_same rfl rfl rfl rfl rfl
  | setProbe p c _ => exact .of_same rfl rfl rfl rfl rfl
  | setArbiter k w g _ => exact .of_same rfl rfl rfl rfl rfl
  | fanStart i d _ _ => exact .does (.of_within (within_startManual _ i d))
  | fanStop i => exact .does (.of_within (within_removeClaim _ i _))
  | fanLock i _ _ => exact .does (.of_within (within_lockFan _ i))
  | fanRelease i _ => exact .does (.of_within (within_releaseFan _ i))
  | rotate z _ _ => exact .does (.of_within (within_rotateZone _ z))
  | setTime time =>
    refine .trans (t := s.setTime { s.time with room := time.toNat }) ⟨rfl, rfl, id, fun h => ⟨time.isLt, h.acc, h.rate⟩, id⟩ ?_
    exact .does (core_forEachOpen (fun v k => core_fireSlot v k true) _ _)
  | slotFire k => exact .does (core_fireSlot _ k false)
  | arm _ _ => exact .does (core_arm _)
  | disarm _ => exact .does (core_disarm _)
  | zoneLevel z r _ _ => exact .does (.of_within (within_evaluateDemand _ z r false))
  | eqz =>
    have toggled : Core s.begin.st ((s.begin.map fun s => { s with eqz := s.eqz.toggle }).post (.eqz (!s.eqz.debounced))).st :=
      .of_same rfl rfl rfl rfl rfl
    exact .does (toggled.trans (core_forEachOpen (f := fun w z => w.post (.coupling z (!s.eqz.debounced)))
      (fun v z => .refl v.st) _ _))
  | flow i => exact .does (.of_within (within_takeFlow _ i))
  | fanFault i detail _ => exact .does (.of_within (within_moveFan _ i _))
  | minRun i _ => exact .does (.of_within (within_ite (within_moveFan _ i _) (within_moveFan _ i _)))
  | coast i _ => exact .does (.of_within (within_ite (within_enterIdle _ i) (within_enterWaiting _ i)))
  | retry i _ => exact .does (.of_within (within_retryFan _ i))
  | manualEnds i => exact .does (.of_within ((within_mapFan _ i _).trans (within_removeClaim _ i _)))
  | exerciseEnds i => exact .does (.of_within ((within_mapFan _ i _).trans (within_removeClaim _ i _)))
  | exerciseDue i => exact .does (.of_within (within_exerciseFallsDue _ i))
  | flowNoted i => exact .does (.of_within (within_moveFan _ i _))
  | flowCleared i => exact .does (.of_within (within_moveFan _ i _))
  | ageOut =>
    refine .does (.of_within (.trans ?_ (within_consider _)))
    exact within_mapArb s.begin ⟨rfl, rfl, rfl⟩
  | spacing =>
    refine .does (.of_within (.trans ?_ (within_consider _)))
    exact within_mapArb s.begin ⟨rfl, rfl, rfl⟩
  | probe p r _ _ _ => exact .does (.of_same rfl rfl rfl rfl rfl)

/-- Settles O2: every command goes on, and no effect touches the queue of commands. -/
theorem everyCommandCompletes : Obligations.EveryCommandCompletes := by
  intro c s
  obtain ⟨t, ran, l, a, -, did, left⟩ := exec_runs c s
  refine ⟨t, ran, ?_⟩
  rcases left with rfl | ⟨r, rfl⟩
  · exact (effect_core did).pending
  · exact (effect_core did).pending

/-- Settles O54: each range is kept by every effect. -/
theorem everyStepKeepsTheRanges : Obligations.EveryStepKeepsTheRanges := by
  intro s t h
  refine ⟨?_, ?_, ?_⟩
  · exact step_keeps (P := NoticeLaw) (fun s l e p => by unfold NoticeLaw; rw [State.setLink_link, e]; exact p)
      (fun _ _ p => p) (fun _ _ did => (effect_core did).notices) h
  · exact step_keeps (P := TimeLaw) (fun _ _ _ p => ⟨p.room, p.acc, p.rate⟩) (fun _ _ p => ⟨p.room, p.acc, p.rate⟩)
      (fun _ _ did => (effect_core did).time) h
  · exact step_keeps (P := fun s => ∀ i, ChannelLaw (s.chan i)) (fun _ _ _ p => p) (fun _ _ p => p)
      (fun _ _ did => (effect_core did).channels) h

end Sys2Proof.Machine
end

section
/-! The laws of the alarm unit and of the probes. Such a law rests on the alarm unit, the part state and the probes alone (`AlarmLaw`), so
that the work of channels, zones, fans and the arbiter keeps it, and each of the few effects that reach these is looked at by itself. -/

namespace Sys2Proof.Machine

/-! ## Laws of the alarm unit and the probes -/

/-- The alarm unit, the part state and the probes have stayed. -/
structure AlarmKept (s t : State) : Prop where
  alarm : t.alarm = s.alarm
  armed : t.setup.armed = s.setup.armed
  probes : t.probes = s.probes

theorem AlarmKept.refl (s : State) : AlarmKept s s := ⟨rfl, rfl, rfl⟩
theorem AlarmKept.trans {s t u : State} (a : AlarmKept s t) (b : AlarmKept t u) : AlarmKept s u :=
  ⟨b.alarm.trans a.alarm, b.armed.trans a.armed, b.probes.trans a.probes⟩

theorem AlarmKept.of_within {s t : State} (h : Within s t) : AlarmKept s t := ⟨h.alarm, by rw [h.setup], h.probes⟩
theorem AlarmKept.of_onChannel {i : Fin 16} {s t : State} (h : OnChannel i s t) : AlarmKept s t := by
  rw [h.rest]
  exact ⟨rfl, rfl, rfl⟩

theorem alarmKept_traceOff (s : State) : AlarmKept s s.traceOff := ⟨rfl, rfl, rfl⟩

/-- Folding work that keeps a property keeps it. -/
theorem foldl_keeps {α : Type} {P : State → Prop} {f : Work → α → Work} (h : ∀ w a, P w.st → P (f w a).st) (xs : List α)
    (w : Work) (p : P w.st) : P (xs.foldl f w).st := by
  induction xs generalizing w with
  | nil => exact p
  | cons x xs ih => exact ih _ (h w x p)

/-- A law that rests on the alarm unit, the part state and the probes, and that every hand-over keeps. -/
structure AlarmLaw (P : State → Prop) : Prop where
  rests : ∀ {s t}, AlarmKept s t → P s → P t
  take : ∀ w h, P w.st → P (Work.take w h).st

section
variable {P : State → Prop} (L : AlarmLaw P)
include L

theorem AlarmLaw.settle (fuel : Nat) (w : Work) (p : P w.st) : P (w.settle fuel).st := by
  induction fuel generalizing w with
  | zero => exact p
  | succ fuel ih =>
    unfold Work.settle
    split
    · exact p
    · exact ih _ (L.take _ _ p)

theorem AlarmLaw.does {s : State} {f : Work → Work} (p : P (f s.begin).st) : P (s.does f) := L.settle _ _ p

theorem AlarmLaw.of_within {s t : State} (p : P s) (h : Within s t) : P t := L.rests (.of_within h) p

theorem AlarmLaw.forEachOpen {α : Type} {f : Work → α → Work} (h : ∀ w a, P w.st → P (f w a).st) (xs : List α) (w : Work)
    (p : P w.st) : P (w.forEachOpen xs f).st :=
  foldl_keeps h _ _ (L.of_within p (within_choices _ _))

theorem AlarmLaw.fireSlot (w : Work) (k : Fin 8) (jump : Bool) (p : P w.st) : P (w.fireSlot k jump).st := by
  cases h : w.st.slot k with
  | none => rw [fireSlot_none h]; exact p
  | some r =>
    rw [fireSlot_some h]
    have fired : AlarmKept w.st (w.fired k r jump).st := (AlarmKept.of_within (within_act w r.action)).trans ⟨rfl, rfl, rfl⟩
    exact L.settle _ _ (L.rests fired p)

/-- Such a law is kept by every effect where it is kept by those that reach the alarm unit, the part state or a probe. -/
theorem AlarmLaw.effect {s a : State} (h : Effect s a) (p : P s)
    (lamp : ∀ t, P (s.setAlarm { s.alarm with lampTimer := t }))
    (acknowledge : ∀ keys changed, P ((s.begin.map fun s => s.setAlarm (s.alarm.acknowledge keys)).alarmPass changed []).st)
    (mask : ∀ x y changed notes, P ((s.begin.map fun r => r.setAlarm (s.alarm.setMask x y s.room)).alarmPass changed notes).st)
    (powerOn : ∀ lines, P (s.poweredOn lines)) (arm : s.setup.armed = false → P s.begin.armPassed.st)
    (disarm : P (s.begin.disarmBlocks.disarmEmptied.alarmPass (!s.alarm.table.isEmpty) []).st)
    (setProbe : ∀ i c, s.setup.armed = false → P (s.setProbe i { s.probe i with cfg := c }))
    (probe : ∀ i r, ProbeFollows (s.probe i) r → P (s.setProbe i r)) : P a := by
  have failsafe (u : State) (q : P u) : P u.failsafeStart := by
    refine L.rests (s := u) ?_ q
    unfold State.failsafeStart
    split
    · exact ⟨rfl, rfl, rfl⟩
    · exact ⟨rfl, rfl, rfl⟩
  have within {f : Work → Work} (k : Within s.begin.st (f s.begin).st) : P (s.does f) := L.does (L.of_within (s := s) p k)
  have channel {i : Fin 16} {f : Work → Work} (k : OnChannel i s.begin.st (f s.begin).st) : P (s.does f) :=
    L.does (L.rests (s := s) (.of_onChannel k) p)
  cases h with
  | none => exact p
  | link l _ _ => exact L.rests (s := s) ⟨rfl, rfl, rfl⟩ p
  | time t _ => exact L.rests (s := s) ⟨rfl, rfl, rfl⟩ p
  | lamp t => exact lamp t
  | millisecond lines => exact L.rests (s := s) ⟨rfl, rfl, rfl⟩ p
  | powerOn lines _ => exact failsafe _ (powerOn lines)
  | failsafe => exact failsafe s p
  | putChannel i c cfg _ _ range => exact channel (onChannel_putChannel ⟨by rw [cfg]; rfl, range⟩)
  | seen i => exact L.rests (s := s) ⟨rfl, rfl, rfl⟩ p
  | span i k => exact L.rests (s := s) ⟨rfl, rfl, rfl⟩ p
  | moveChannel i c notes cfg range =>
    refine channel ((onChannel_noticeAll i notes _).trans (onChannel_moveAndTell ?_))
    rw [noticeAll_chan]
    exact ⟨by rw [cfg]; rfl, range⟩
  | sample i code _ => exact channel (onChannel_sample _ i code)
  | serviceFall =>
    refine L.does (L.forEachOpen (fun w i q => ?_) _ _ (L.rests (s := s) ⟨rfl, rfl, rfl⟩ p))
    exact L.settle _ _ (L.rests (.of_onChannel (onChannel_serviceWork w i)) q)
  | acknowledge keys => exact L.does (acknowledge keys _)
  | mask x y => exact L.does (mask x y _ _)
  | setChannel i c _ => exact L.rests (s := s) ⟨rfl, rfl, rfl⟩ p
  | setProfile i r => exact L.rests (s := s) ⟨rfl, rfl, rfl⟩ p
  | setZone z c _ _ => exact L.rests (s := s) ⟨rfl, rfl, rfl⟩ p
  | setFan i c _ => exact L.rests (s := s) ⟨rfl, rfl, rfl⟩ p
  | setProbe i c unarmed => exact setProbe i c unarmed
  | setArbiter k w g _ => exact L.rests (s := s) ⟨rfl, rfl, rfl⟩ p
  | fanStart i d _ _ => exact within (within_startManual _ i d)
  | fanStop i => exact within (within_removeClaim _ i _)
  | fanLock i _ _ => exact within (within_lockFan _ i)
  | fanRelease i _ => exact within (within_releaseFan _ i)
  | rotate z _ _ => exact within (within_rotateZone _ z)
  | setTime time =>
    exact L.does (L.forEachOpen (fun w k q => L.fireSlot w k true q) _ _ (L.rests (s := s) ⟨rfl, rfl, rfl⟩ p))
  | slotFire k => exact L.does (L.fireSlot _ k false p)
  | arm unarmed _ =>
    refine L.does ?_
    rw [Work.arm_eq]
    exact foldl_keeps (fun w i q => L.of_within q (within_armStop w i)) _ _ (arm unarmed)
  | disarm _ =>
    refine L.does ?_
    rw [Work.disarm_eq]
    exact L.rests (alarmKept_traceOff _) disarm
  | zoneLevel z r _ _ => exact within (within_evaluateDemand _ z r false)
  | eqz =>
    refine L.does (L.forEachOpen (f := fun w z => w.post (.coupling z (!s.eqz.debounced))) (fun w z q => q) _ _ ?_)
    exact L.rests (s := s) ⟨rfl, rfl, rfl⟩ p
  | flow i => exact within (within_takeFlow _ i)
  | fanFault i detail _ => exact within (within_moveFan _ i _)
  | minRun i _ => exact within (within_ite (within_moveFan _ i _) (within_moveFan _ i _))
  | coast i _ => exact within (within_ite (within_enterIdle _ i) (within_enterWaiting _ i))
  | retry i _ => exact within (within_retryFan _ i)
  | manualEnds i => exact within ((within_mapFan _ i _).trans (within_removeClaim _ i _))
  | exerciseEnds i => exact within ((within_mapFan _ i _).trans (within_removeClaim _ i _))
  | exerciseDue i => exact within (within_exerciseFallsDue _ i)
  | flowNoted i => exact within (within_moveFan _ i _)
  | flowCleared i => exact within (within_moveFan _ i _)
  | ageOut =>
    refine within (.trans ?_ (within_consider _))
    exact within_mapArb s.begin ⟨rfl, rfl, rfl⟩
  | spacing =>
    refine within (.trans ?_ (within_consider _))
    exact within_mapArb s.begin ⟨rfl, rfl, rfl⟩
  | probe i r cfg contribution state => exact L.does (probe i r ⟨cfg, contribution, state⟩)

end

/-! ## The alarm unit's pass -/

/-- The alarm unit after a pass: the regime and the permit are derived, and the version moves with the table (R148). -/
theorem alarmPass_alarm (w : Work) (changed : Bool) (notes : List NoticeBody) :
    (w.alarmPass changed notes).st.alarm = { w.st.alarm with
      regime := regimeOf w.st.alarm
      permit := permitOf w.st.alarm w.st.setup.armed
      version := if changed then w.st.alarm.version + 1 else w.st.alarm.version } := by
  unfold Work.alarmPass
  dsimp only
  split
  · exact (pays_noticeAll _ _).alarm
  · exact (pays_handRegime _ _ _).alarm.trans (pays_noticeAll _ _).alarm

theorem alarmPass_setup (w : Work) (changed : Bool) (notes : List NoticeBody) :
    (w.alarmPass changed notes).st.setup = w.st.setup := (calm_alarmPass w changed notes).keeps.setup

theorem alarmPass_probes (w : Work) (changed : Bool) (notes : List NoticeBody) :
    (w.alarmPass changed notes).st.probes = w.st.probes := (calm_alarmPass w changed notes).keeps.probes

/-! ## The derived regime and permit -/

/-- A pass derives the regime and the permit, whatever they were. -/
theorem derived_alarmPass (w : Work) (changed : Bool) (notes : List NoticeBody) : DerivedLaw (w.alarmPass changed notes).st := by
  refine ⟨?_, ?_⟩
  · rw [alarmPass_alarm]; rfl
  · rw [alarmPass_alarm, alarmPass_setup]; rfl

/-- A hand-over reaches the alarm unit, or leaves it, the part state and the probes. -/
theorem take_alarmKept (w : Work) (h : Handover) : AlarmKept w.st (w.take h).st ∨
    (∃ k image, h = .condition k image) ∨ (∃ z yes, h = .paused z yes) ∨ ∃ active, h = .eqz active := by
  cases h with
  | condition k image => exact .inr (.inl ⟨k, image, rfl⟩)
  | paused z yes => exact .inr (.inr (.inl ⟨z, yes, rfl⟩))
  | eqz active => exact .inr (.inr (.inr ⟨active, rfl⟩))
  | member z => exact .inl (.of_within (within_ifActive w z (within_evaluateSight w z)))
  | coupling z active => exact .inl (.of_within (within_ifActive w z (within_takeCoupling w z active)))
  | spill z => exact .inl (.of_within (within_ifActive w z (within_takeSpill w z)))
  | critical z => exact .inl (.of_within (within_ifActive w z (within_evaluateDemand w z _ true)))
  | availability z => exact .inl (.of_within (within_ifActive w z (within_evaluateAllocation w z _)))
  | toArbiter => exact .inl (.of_within (within_consider w))
  | toFans fell =>
    exact .inl (.of_within (within_ite (within_forEachOpen (fun v i => within_testExercise v i) _ _) (.refl _)))
  | completion i =>
    refine .inl ?_
    change AlarmKept w.st (w.st.buildTrace i)
    unfold State.buildTrace
    split
    · exact ⟨rfl, rfl, rfl⟩
    · exact .refl _

/-- A hand-over that reaches the alarm unit is a pass over a new state of it. -/
theorem take_cases (w : Work) (h : Handover) : AlarmKept w.st (w.take h).st ∨
    ∃ a : Alarm, ∃ changed notes, w.take h = (w.map fun s => s.setAlarm a).alarmPass changed notes := by
  rcases take_alarmKept w h with k | ⟨k, image, rfl⟩ | ⟨z, yes, rfl⟩ | ⟨active, rfl⟩
  · exact .inl k
  · exact .inr ⟨_, _, _, rfl⟩
  · exact .inr ⟨{ w.st.alarm with paused := vset w.st.alarm.paused z yes }, _, _, rfl⟩
  · exact .inr ⟨{ w.st.alarm with eqz := active }, _, _, rfl⟩

theorem derivedLaw_alarmLaw : AlarmLaw DerivedLaw where
  rests {s t} k p := ⟨by rw [k.alarm]; exact p.regime, by rw [k.alarm, k.armed]; exact p.permit⟩
  take w h p := by
    rcases take_cases w h with k | ⟨a, changed, notes, e⟩
    · exact ⟨by rw [k.alarm]; exact p.regime, by rw [k.alarm, k.armed]; exact p.permit⟩
    · rw [e]
      exact derived_alarmPass ..

theorem regimeOf_reset : regimeOf .reset = .normal := by
  simp [regimeOf, Alarm.reset, Alarm.image, Image.inactive]

theorem permitOf_reset : permitOf .reset false = .holdFloat := by
  simp [permitOf, Alarm.reset, Alarm.anyRecord, Alarm.record]

theorem derivedLaw_reset : DerivedLaw .reset := ⟨regimeOf_reset.symm, permitOf_reset.symm⟩

/-- Settles O57: every pass of the alarm unit derives both, and nothing else reaches them. -/
theorem everyStepDerivesRegimeAndPermit : Obligations.EveryStepDerivesRegimeAndPermit := by
  intro s t law h
  have L := derivedLaw_alarmLaw
  refine step_keeps (P := DerivedLaw) (fun _ _ _ => L.rests ⟨rfl, rfl, rfl⟩) (fun _ _ => L.rests ⟨rfl, rfl, rfl⟩) (fun s a did p => ?_) h law
  refine L.effect did p ?_ ?_ ?_ ?_ ?_ ?_ ?_ ?_
  · exact fun t => ⟨p.regime, p.permit⟩
  · exact fun _ _ => derived_alarmPass ..
  · exact fun _ _ _ _ => derived_alarmPass ..
  · exact fun _ => ⟨derivedLaw_reset.regime, derivedLaw_reset.permit⟩
  · exact fun _ => L.settle _ _ (derived_alarmPass ..)
  · exact derived_alarmPass ..
  · exact fun _ _ _ => ⟨p.regime, p.permit⟩
  · exact fun _ _ _ => ⟨p.regime, p.permit⟩

end Sys2Proof.Machine
end

section
/-! The probes' law through ARM and DISARM, and the table's law through the alarm requests. -/

namespace Sys2Proof.Machine

/-! ## ARM -/

theorem alarmKept_moveChannel (w : Work) (i : Fin 16) (c : Channel) : AlarmKept w.st (w.moveChannel i c).st := by
  unfold Work.moveChannel Work.putChannel
  dsimp only
  split <;> split <;> first | exact ⟨rfl, rfl, rfl⟩ | (split <;> exact ⟨rfl, rfl, rfl⟩)

theorem alarmKept_foldl {α : Type} {f : Work → α → Work} (h : ∀ w a, AlarmKept w.st (f w a).st) (xs : List α) (w : Work) :
    AlarmKept w.st (xs.foldl f w).st :=
  foldl_keeps (P := fun t => AlarmKept w.st t) (fun v a k => k.trans (h v a)) xs w (.refl _)

theorem alarmKept_armChannels (w : Work) : AlarmKept w.st w.armChannels.st :=
  alarmKept_foldl (fun v i => alarmKept_moveChannel v i _) _ w

/-- ARM up to its step 4. -/
def Work.armPlaced (w : Work) : Work :=
  (w.map fun s => (s.setSetup s.setup.arm).setArb s.arb.cleared).armChannels.armFans

theorem Work.armReady_eq (w : Work) : w.armReady = w.armPlaced.armProbes := rfl

/-- ARM's steps 1 to 4 reach neither the alarm unit nor the probes, and make the part ARMED. -/
theorem armPlaced_kept (w : Work) : w.armPlaced.st.alarm = w.st.alarm ∧ w.armPlaced.st.setup.armed = true ∧
    w.armPlaced.st.probes = w.st.probes := by
  unfold Work.armPlaced
  have k := (alarmKept_armChannels (w.map fun s => (s.setSetup s.setup.arm).setArb s.arb.cleared)).trans
    (.of_within (within_armFans _))
  exact ⟨k.alarm, k.armed, k.probes⟩

/-- Placing probes: each one listed takes its line from DRY (R125), and no other changes. -/
theorem armProbes_fold (xs : List (Fin 8)) (nodup : xs.Nodup) (w : Work) (q : Fin 8) :
    (xs.foldl (fun w p => w.moveProbe p ((w.st.probe p).arm w.st.clock w.st.room)) w).st.probe q =
      if q ∈ xs then (w.st.probe q).arm w.st.clock w.st.room else w.st.probe q := by
  induction xs generalizing w with
  | nil => simp
  | cons p xs ih =>
    obtain ⟨fresh, nodup⟩ := List.nodup_cons.1 nodup
    rw [List.foldl_cons, ih nodup, moveProbe_st]
    by_cases e : p = q
    · subst e
      simp [fresh]
    · simp only [State.setProbe_probe, if_neg e, List.mem_cons, Ne.symm e, false_or]
      rfl

theorem armProbes_probe (w : Work) (q : Fin 8) : w.armProbes.st.probe q =
    if (w.st.probe q).cfg.present then (w.st.probe q).arm w.st.clock w.st.room else w.st.probe q := by
  unfold Work.armProbes State.presentProbes
  rw [armProbes_fold _ ((List.nodup_finRange 8).filter _)]
  simp

theorem armProbes_alarm (w : Work) : w.armProbes.st.alarm = w.st.alarm ∧ w.armProbes.st.setup = w.st.setup :=
  foldl_keeps (P := fun t => t.alarm = w.st.alarm ∧ t.setup = w.st.setup)
    (f := fun w p => w.moveProbe p ((w.st.probe p).arm w.st.clock w.st.room)) (fun _ _ k => k) _ w ⟨rfl, rfl⟩

theorem armReady_alarm (w : Work) : w.armReady.st.alarm = w.st.alarm := by
  rw [Work.armReady_eq, (armProbes_alarm _).1, (armPlaced_kept w).1]

theorem armReady_armed (w : Work) : w.armReady.st.setup.armed = true := by
  rw [Work.armReady_eq, (armProbes_alarm _).2, (armPlaced_kept w).2.1]

/-- A pass in which nothing has been handed over is that of an EQZ that has not changed. -/
theorem alarmPass_eq_takeEqz (w : Work) : w.alarmPass false [] = w.takeEqz w.st.alarm.eqz := rfl

/-- What holds once the probes are placed holds through the rest of ARM, but for its last step. -/
theorem AlarmLaw.armPassed {P : State → Prop} (L : AlarmLaw P) {w : Work} (p : P w.armReady.st) : P w.armPassed.st := by
  have zoned : P w.armZoned.st := L.settle _ _ (L.forEachOpen (fun v z q => L.of_within q (within_armZone v z)) _ _ p)
  unfold Work.armPassed
  rw [alarmPass_eq_takeEqz]
  exact L.settle _ _ (L.take _ (.eqz _) zoned)

/-! ## The probes -/

theorem ProbeLaw.congr {s t : State} (armed : t.setup.armed = s.setup.armed) (probes : t.probes = s.probes) (p : ProbeLaw s) :
    ProbeLaw t := by
  have e (i : Fin 8) : t.probe i = s.probe i := by unfold State.probe; rw [probes]
  exact ⟨fun i => by rw [e]; exact p.contribution i, fun i => by rw [e, armed]; exact p.evaluated i⟩

theorem probeLaw_alarmLaw : AlarmLaw ProbeLaw where
  rests k p := p.congr k.armed k.probes
  take w h p := by
    rcases take_cases w h with k | ⟨a, changed, notes, e⟩
    · exact p.congr k.armed k.probes
    · rw [e]
      exact p.congr (by rw [alarmPass_setup]; rfl) (by rw [alarmPass_probes]; rfl)

/-- A probe that is not evaluated contributes nothing. -/
theorem probeLaw_of_absent {s : State} (h : ∀ i, (s.probe i).state = none ∧ (s.probe i).contribution = false)
    (unarmed : s.setup.armed = false) : ProbeLaw s := by
  refine ⟨fun i => ?_, fun i => ?_⟩
  · rw [(h i).2]
    unfold Probe.contributes
    rw [(h i).1]
  · rw [(h i).1, unarmed]
    rfl

theorem Probe.arm_law (r : Probe) (clock room : Nat) :
    (r.arm clock room).contribution = (r.arm clock room).contributes ∧ (r.arm clock room).state.isSome = true ∧
      (r.arm clock room).cfg = r.cfg := by
  have k := Probe.takeLine_follows { Probe.absent r.cfg r.line with state := some .dry } .dry r.line clock room
  exact ⟨k.contribution rfl, k.state, k.cfg⟩

theorem probeLaw_setProbe {s : State} {i : Fin 8} {r : Probe} (p : ProbeLaw s) (c : r.contribution = r.contributes)
    (e : r.state.isSome = (s.setup.armed && r.cfg.present)) : ProbeLaw (s.setProbe i r) := by
  refine ⟨fun j => ?_, fun j => ?_⟩
  · rw [State.setProbe_probe]
    split
    · exact c
    · exact p.contribution j
  · rw [State.setProbe_probe]
    split
    · exact e
    · exact p.evaluated j

theorem probeLaw_armReady {s : State} (p : ProbeLaw s) (unarmed : s.setup.armed = false) : ProbeLaw s.begin.armReady.st := by
  have placed := (armPlaced_kept s.begin).2.2
  have same (i : Fin 8) : s.begin.armPlaced.st.probe i = s.probe i := by unfold State.probe; rw [placed]; rfl
  refine ⟨fun i => ?_, fun i => ?_⟩
  · rw [Work.armReady_eq, armProbes_probe, same]
    split
    · exact (Probe.arm_law ..).1
    · exact p.contribution i
  · rw [armReady_armed, Work.armReady_eq, armProbes_probe, same]
    split
    · rename_i present
      obtain ⟨-, state, cfg⟩ := (s.probe i).arm_law s.begin.armPlaced.st.clock s.begin.armPlaced.st.room
      rw [state, cfg, present]
      rfl
    · rename_i absent
      rw [p.evaluated, unarmed, Bool.eq_false_iff.2 absent]
      rfl

theorem probeLaw_passAlarm {s : State} (p : ProbeLaw s) (g : State → Alarm) (changed : Bool) (notes : List NoticeBody) :
    ProbeLaw ((s.begin.map fun s => s.setAlarm (g s)).alarmPass changed notes).st :=
  ProbeLaw.congr (by rw [alarmPass_setup]; rfl) (by rw [alarmPass_probes]; rfl) p

theorem probeLaw_poweredOn (s : State) (lines : ResetLines) : ProbeLaw (s.poweredOn lines) := by
  refine probeLaw_of_absent (fun i => ?_) rfl
  have e : (s.poweredOn lines).probe i = Probe.absent .reset (classify (vget lines.probes i)) := vget_map ..
  rw [e]
  exact ⟨rfl, rfl⟩

theorem probeLaw_disarmEmptied (w : Work) : ProbeLaw w.disarmEmptied.st := by
  refine probeLaw_of_absent (fun i => ?_) rfl
  have e : w.disarmEmptied.st.probe i = Probe.absent (w.st.probe i).cfg (w.st.probe i).line := vget_map ..
  rw [e]
  exact ⟨rfl, rfl⟩

/-- Settles O59: the probes' own events keep the law, ARM and DISARM set it up, and nothing else reaches a probe. -/
theorem everyStepKeepsTheProbeLaw : Obligations.EveryStepKeepsTheProbeLaw := by
  intro s t law h
  have L := probeLaw_alarmLaw
  refine step_keeps (P := ProbeLaw) (fun _ _ _ => L.rests ⟨rfl, rfl, rfl⟩) (fun _ _ => L.rests ⟨rfl, rfl, rfl⟩) (fun s a did p => ?_) h law
  refine L.effect did p ?_ ?_ ?_ ?_ ?_ ?_ ?_ ?_
  · exact fun _ => ProbeLaw.congr (s := s) rfl rfl p
  · exact fun keys _ => probeLaw_passAlarm p (fun s => s.alarm.acknowledge keys) _ _
  · exact fun x y _ _ => probeLaw_passAlarm p (fun _ => s.alarm.setMask x y s.room) _ _
  · exact fun lines => probeLaw_poweredOn s lines
  · exact fun unarmed => L.armPassed (probeLaw_armReady p unarmed)
  · exact ProbeLaw.congr (congrArg Setup.armed (alarmPass_setup ..)) (alarmPass_probes ..) (probeLaw_disarmEmptied _)
  · refine fun i c unarmed => probeLaw_setProbe p (p.contribution i) ?_
    have e := p.evaluated i
    rw [unarmed] at e ⊢
    exact e
  · exact fun i r k => probeLaw_setProbe p (k.contribution (p.contribution i)) (by rw [k.state, k.cfg]; exact p.evaluated i)

/-! ## The table -/

theorem TableLaw.congr {a b : Alarm} (images : b.images = a.images) (records : b.records = a.records)
    (x : b.maskChannelNote = a.maskChannelNote) (y : b.maskFlowNote = a.maskFlowNote) (p : TableLaw a) : TableLaw b := by
  intro k
  have m : b.masks (classOf k) = a.masks (classOf k) := by unfold Alarm.masks; rw [x, y]
  rw [m]
  unfold Alarm.record Alarm.image
  rw [images, records]
  exact p k

theorem tableLaw_alarmPass {w : Work} {changed : Bool} {notes : List NoticeBody} (p : TableLaw w.st.alarm) :
    TableLaw (w.alarmPass changed notes).st.alarm := by
  rw [alarmPass_alarm]
  exact p.congr rfl rfl rfl rfl

/-- A hand-over leaves an ACTIVE record just while its condition is active (R129 to R132). -/
theorem recordAfter_active (c : AlarmClass) (room : Nat) (before after : Image) (r : Option Record)
    (h : r.any Record.active = before.active) : (recordAfter c false room before after r).any Record.active = after.active := by
  unfold recordAfter
  rw [if_neg (by decide)]
  cases hb : before.active <;> cases ha : after.active
  case false.false => rw [h, hb]
  case false.true =>
    cases r with
    | none => rfl
    | some r => cases hs : r.state <;> simp [recordAtRise, hs, Record.active]
  case true.true =>
    cases r with
    | none => rw [hb] at h; cases h
    | some r =>
      rw [hb] at h
      unfold recordAtChange
      dsimp only
      split
      · exact h
      · split
        · rfl
        · exact h
  case true.false =>
    cases r with
    | none => rfl
    | some r =>
      unfold recordAtClear
      dsimp only
      split
      · cases hs : r.state <;> simp [Record.active, hs]
      · rfl

/-- The alarm unit with a hand-over of a condition in its image and its record, before the pass. -/
def Alarm.taken (a : Alarm) (k : Fin 82) (image : Image) (room : Nat) : Alarm :=
  { a with
    images := vset a.images k image
    records := vset a.records k (recordAfter (classOf k) (a.masks (classOf k)) room (a.image k) image (a.record k)) }

theorem takeCondition_eq (w : Work) (k : Fin 82) (image : Image) : ∃ changed notes,
    w.takeCondition k image = (w.map fun s => s.setAlarm (s.alarm.taken k image s.room)).alarmPass changed notes := ⟨_, _, rfl⟩

section
variable (a : Alarm) (k : Fin 82) (image : Image) (room : Nat)

@[simp] theorem Alarm.taken_masks (c : AlarmClass) : (a.taken k image room).masks c = a.masks c := rfl

theorem Alarm.taken_image (j : Fin 82) : (a.taken k image room).image j = if k = j then image else a.image j := vget_vset ..

theorem Alarm.taken_record (j : Fin 82) : (a.taken k image room).record j =
    if k = j then recordAfter (classOf k) (a.masks (classOf k)) room (a.image k) image (a.record k) else a.record j :=
  vget_vset ..

end

theorem tableLaw_taken {a : Alarm} (p : TableLaw a) (k : Fin 82) (image : Image) (room : Nat) : TableLaw (a.taken k image room) := by
  intro j
  have before := p j
  rw [Alarm.taken_masks, Alarm.taken_record, Alarm.taken_image]
  by_cases e : k = j
  · subst e
    rw [if_pos rfl, if_pos rfl]
    by_cases m : a.masks (classOf k) = true
    · rw [if_pos m] at before ⊢
      rw [m, before]
      rfl
    · rw [if_neg m] at before ⊢
      rw [Bool.eq_false_iff.2 m]
      exact recordAfter_active _ room _ image _ before
  · rwa [if_neg e, if_neg e]

/-- A pass whose alarm unit obeys the table's law leaves one that does. -/
theorem tableLaw_passAlarm {w : Work} {g : State → Alarm} (p : TableLaw (g w.st)) (changed : Bool) (notes : List NoticeBody) :
    TableLaw ((w.map fun s => s.setAlarm (g s)).alarmPass changed notes).st.alarm := by
  refine tableLaw_alarmPass ?_
  exact p

theorem tableLaw_alarmLaw : AlarmLaw fun s => TableLaw s.alarm where
  rests k p := by rw [k.alarm]; exact p
  take w h p := by
    rcases take_alarmKept w h with k | ⟨k, image, rfl⟩ | ⟨z, yes, rfl⟩ | ⟨active, rfl⟩
    · rw [k.alarm]
      exact p
    · obtain ⟨changed, notes, e⟩ := takeCondition_eq w k image
      change TableLaw (w.takeCondition k image).st.alarm
      rw [e]
      exact tableLaw_passAlarm (g := fun s => s.alarm.taken k image s.room) (tableLaw_taken p k image _) _ _
    · exact tableLaw_passAlarm (g := fun s => { s.alarm with paused := vset s.alarm.paused z yes }) (p.congr rfl rfl rfl rfl) _ _
    · exact tableLaw_passAlarm (g := fun s => { s.alarm with eqz := active }) (p.congr rfl rfl rfl rfl) _ _

/-- An acknowledgement leaves every ACTIVE record ACTIVE and makes none so (R133). -/
theorem acknowledge_active (r : Option Record) : (r.bind Record.acknowledge).any Record.active = r.any Record.active := by
  cases r with
  | none => rfl
  | some r => cases h : r.state <;> simp [Record.acknowledge, Record.active, h]

theorem masks_congr {a b : Alarm} (x : b.maskChannelNote = a.maskChannelNote) (y : b.maskFlowNote = a.maskFlowNote)
    (c : AlarmClass) : b.masks c = a.masks c := by
  unfold Alarm.masks
  rw [x, y]

theorem acknowledge_masks (a : Alarm) (keys : List (Fin 82)) (c : AlarmClass) : (a.acknowledge keys).masks c = a.masks c :=
  masks_congr (by simp only [Alarm.acknowledge]) (by simp only [Alarm.acknowledge]) c

theorem acknowledge_image (a : Alarm) (keys : List (Fin 82)) (k : Fin 82) : (a.acknowledge keys).image k = a.image k := by
  simp only [Alarm.image, Alarm.acknowledge]

theorem acknowledge_record (a : Alarm) (keys : List (Fin 82)) (k : Fin 82) : (a.acknowledge keys).record k =
    if keys.contains k then (a.record k).bind Record.acknowledge else a.record k := by
  simp only [Alarm.record, Alarm.acknowledge, vget_ofFn]

theorem tableLaw_acknowledge {a : Alarm} (p : TableLaw a) (keys : List (Fin 82)) : TableLaw (a.acknowledge keys) := by
  intro k
  have before := p k
  rw [acknowledge_record, acknowledge_masks, acknowledge_image]
  split
  · rw [if_pos ‹_›] at before
    rw [before]
    simp
  · rw [if_neg ‹_›] at before
    rw [← before]
    split
    · exact acknowledge_active _
    · rfl

theorem setMask_masks (a : Alarm) (x y : Bool) (room : Nat) (c : AlarmClass) : (a.setMask x y room).masks c =
    { a with maskChannelNote := x, maskFlowNote := y }.masks c :=
  masks_congr (by simp only [Alarm.setMask]) (by simp only [Alarm.setMask]) c

theorem setMask_image (a : Alarm) (x y : Bool) (room : Nat) (k : Fin 82) : (a.setMask x y room).image k = a.image k := by
  simp only [Alarm.image, Alarm.setMask]

theorem setMask_record (a : Alarm) (x y : Bool) (room : Nat) (k : Fin 82) : (a.setMask x y room).record k =
    recordAtMasking (classOf k) (a.masks (classOf k)) ((a.setMask x y room).masks (classOf k)) room (a.image k) (a.record k) := by
  rw [setMask_masks]
  simp only [Alarm.record, Alarm.setMask, vget_ofFn]

theorem tableLaw_setMask {a : Alarm} (p : TableLaw a) (x y : Bool) (room : Nat) : TableLaw (a.setMask x y room) := by
  intro k
  have before := p k
  rw [setMask_record, setMask_image]
  cases was : a.masks (classOf k) <;> cases now : (a.setMask x y room).masks (classOf k) <;>
    simp only [was, if_true, if_false, Bool.false_eq_true] at before ⊢
  · exact before
  · rfl
  · rw [before]
    unfold recordAtMasking
    dsimp only
    cases active : (a.image k).active with
    | false => rfl
    | true => rfl
  · exact before

theorem tableLaw_empty {a : Alarm} (records : ∀ k, a.record k = none) (images : ∀ k, a.image k = .inactive) : TableLaw a := by
  intro k
  rw [records, images]
  split
  · rfl
  · rfl

theorem everyEffectKeepsTheTable {s t : State} (h : Effect s t) (p : TableLaw s.alarm) : TableLaw t.alarm := by
  have L := tableLaw_alarmLaw
  refine L.effect h p ?_ ?_ ?_ ?_ ?_ ?_ ?_ ?_
  · exact fun _ => p.congr rfl rfl rfl rfl
  · exact fun keys _ => tableLaw_passAlarm (g := fun s => s.alarm.acknowledge keys) (tableLaw_acknowledge p keys) _ _
  · exact fun x y _ _ => tableLaw_passAlarm (g := fun _ => s.alarm.setMask x y s.room) (tableLaw_setMask p x y _) _ _
  · exact fun lines => tableLaw_empty (fun k => vget_replicate ..) (fun k => vget_replicate ..)
  · exact fun _ => L.armPassed (by rw [armReady_alarm]; exact p)
  · refine tableLaw_alarmPass (tableLaw_empty (fun k => ?_) (fun k => ?_))
    · exact vget_replicate ..
    · exact vget_replicate ..
  · exact fun _ _ _ => p
  · exact fun _ _ _ => p

end Sys2Proof.Machine
end

section
/-! The statements about requests and events in general, and about the reports. -/

namespace Sys2Proof.Machine

/-! ## Events that have not come, and SERVICE -/

/-- Settles O5: each event's command is guarded by its own test. -/
theorem eventsThatHaveNotComeChangeNothing : Obligations.EventsThatHaveNotComeChangeNothing := by
  intro c s h
  have skip {p : Prop} [Decidable p] (t : State) (not : ¬p) : (if p then goOn t else goOn s) = .next s := if_neg not
  have both {a b : Bool} (e : (a && b) = false) : ¬(a = true ∧ b = true) := by simpa using e
  cases c with
  | sampleEvent i code => exact skip _ (by rw [show s.samples i = false from h]; decide)
  | warmupExpiry i => exact skip _ (by simpa [hasCome] using h)
  | holdLimitExpiry i => exact skip _ (by simpa [hasCome] using h)
  | recoverLimitExpiry i => exact skip _ (by simpa [hasCome] using h)
  | bumpTimerExpiry i => exact skip _ (by simpa [hasCome] using h)
  | zoneHoldExpiry z => exact skip _ (both h)
  | lingerExpiry z => exact skip _ (both h)
  | eqzDebounce => exact skip _ (Bool.eq_false_iff.1 h)
  | flowDebounce i => exact skip _ (Bool.eq_false_iff.1 h)
  | provingExpiry i => exact skip _ (by simpa [hasCome] using h)
  | minRunExpiry i => exact skip _ (by simpa [hasCome] using h)
  | coastExpiry i => exact skip _ (by simpa [hasCome] using h)
  | retryExpiry i => exact skip _ (by simpa [hasCome] using h)
  | flowLossExpiry i => exact skip _ (by simpa [hasCome] using h)
  | manualTimerExpiry i => exact skip _ (Bool.eq_false_iff.1 h)
  | exerciseRunExpiry i => exact skip _ (Bool.eq_false_iff.1 h)
  | exerciseDue i => exact skip _ (Bool.eq_false_iff.1 h)
  | flowNoteExpiry i => exact skip _ (Bool.eq_false_iff.1 h)
  | flowClearExpiry i => exact skip _ (Bool.eq_false_iff.1 h)
  | historyAgeOut => exact skip _ (Bool.eq_false_iff.1 h)
  | spacingExpiry => exact skip _ (Bool.eq_false_iff.1 h)
  | wetDebounceExpiry p => exact skip _ (by simpa [hasCome] using h)
  | dryDebounceExpiry p => exact skip _ (by simpa [hasCome] using h)
  | supervisionExpiry p => exact skip _ (by simpa [hasCome] using h)
  | recoveryExpiry p => exact skip _ (by simpa [hasCome] using h)
  | lampTestExpiry => exact skip _ (Bool.eq_false_iff.1 h)
  | failsafeTimerExpiry => exact skip _ (Bool.eq_false_iff.1 h)
  | slotFire k => exact skip _ (Bool.eq_false_iff.1 h)
  | serviceDebounce => exact if_neg (Bool.eq_false_iff.1 h)
  | _ => cases h

/-- The kinds of the service requests (R191). -/
def serviceKinds : List Byte :=
  [0x22, 0x23, 0x30, 0x31, 0x32, 0x33, 0x34, 0x40, 0x41, 0x50, 0x51, 0x52, 0x53, 0x54, 0x55, 0x5E, 0x5F]

/-- Each service request checks SERVICE before anything else (R192). -/
theorem answerOf_needsService {c : Instr} {kind tag : Byte} {s : State} (h : requestOf c = some (kind, tag))
    (service : kind ∈ serviceKinds) (idle : s.link.service.debounced = false) : answerOf c s = refuse s .needsService := by
  have out : (!s.serviceActive) = true := by unfold State.serviceActive; rw [idle]; rfl
  cases c
  case unknownKind t k =>
    have named : (if k.toNat < 0x80 ∧ k ∉ requestKinds then some (k, t) else none) = some (kind, tag) := h
    split at named
    · rename_i unknown
      cases named
      exact absurd ((by decide : ∀ x ∈ serviceKinds, x ∈ requestKinds) _ service) unknown.2
    · cases named
  all_goals cases h
  all_goals first
    | exact if_pos out
    | exact absurd service (by decide)

/-- Settles O6: the first check of each service request. -/
theorem serviceRequestsNeedService : Obligations.ServiceRequestsNeedService := by
  intro c kind tag s h service idle free
  exact declined_of (status := .needsService) (exec_request h s) free rfl (answerOf_needsService h service idle)

/-! ## Numbers beyond their table -/

/-- A request that is refused, by its answer. -/
theorem declined_request {c : Instr} {kind kind' tag : Byte} {s : State} {status : Status} {body : List Byte}
    (h : requestOf c = some (kind, tag)) (free : s.link.outstanding = none) (k : kind + 0x80 = kind')
    (r : answerOf c s = refuse s status body) : Declined c s kind' tag status.code body :=
  declined_of (exec_request h s) free k r

/-- A request that is accepted with no mark, by its answer. -/
theorem accepted_request {c : Instr} {kind kind' tag : Byte} {s t : State} {body : List Byte}
    (h : requestOf c = some (kind, tag)) (free : s.link.outstanding = none) (k : kind + 0x80 = kind')
    (r : answerOf c s = accept t body) : Accepted c s t kind' tag 0 body :=
  accepted_of_accept (exec_request h s) free k r

theorem mapM_eq_none {α β : Type} {f : α → Option β} {xs : List α} {x : α} (mem : x ∈ xs) (h : f x = none) :
    xs.mapM f = none := by
  induction xs with
  | nil => cases mem
  | cons y ys ih =>
    rw [List.mapM_cons]
    rcases List.mem_cons.1 mem with rfl | later
    · rw [h]; rfl
    · rw [ih later]
      cases f y <;> rfl

theorem indexByte_toNat {n : Nat} (h : n ≤ 256) (i : Fin n) : (indexByte i).toNat = i.val := by
  have := i.isLt
  simp [indexByte]
  omega

section
variable {n : Byte} {s : State}

theorem testRequest_outOfRange (service : s.link.service.debounced = true) (h : 16 ≤ n.toNat) (act : Fin 16 → Answer) :
    testRequest n s act = refuse s .outOfRange := by
  unfold testRequest State.serviceActive
  rw [service, readIndex_none h]
  rfl

theorem answerReadChannel_outOfRange (h : 16 ≤ n.toNat) : answerReadChannel n s = refuse s .outOfRange := by
  unfold answerReadChannel; rw [readIndex_none h]

theorem answerClearFlags_outOfRange (h : 16 ≤ n.toNat) (flags : List Byte) :
    answerClearFlags n flags s = refuse s .outOfRange := by
  unfold answerClearFlags; rw [readIndex_none h]

theorem answerClearFlags_badFlag (i : Fin 16) {flags : List Byte} (h : ∃ b ∈ flags, 5 ≤ b.toNat) :
    answerClearFlags (indexByte i) flags s = refuse s .outOfRange := by
  obtain ⟨b, mem, beyond⟩ := h
  unfold answerClearFlags
  rw [readIndex_indexByte (by decide), mapM_eq_none mem (readIndex_none beyond)]

theorem answerTrace_outOfRange (h : 16 ≤ n.toNat) (notNone : n ≠ 0xFF) : answerTrace n s = refuse s .outOfRange := by
  unfold answerTrace readIndexOrNone
  rw [if_neg notNone, readIndex_none h]
  rfl

theorem answerReadZone_outOfRange (h : 6 ≤ n.toNat) : answerReadZone n s = refuse s .outOfRange := by
  unfold answerReadZone; rw [readIndex_none h]

theorem answerRotate_outOfRange (h : 6 ≤ n.toNat) : answerRotate n s = refuse s .outOfRange := by
  unfold answerRotate; rw [readIndex_none h]

theorem answerReadFan_outOfRange (h : 8 ≤ n.toNat) : answerReadFan n s = refuse s .outOfRange := by
  unfold answerReadFan; rw [readIndex_none h]

theorem answerReadProbe_outOfRange (h : 8 ≤ n.toNat) : answerReadProbe n s = refuse s .outOfRange := by
  unfold answerReadProbe; rw [readIndex_none h]

theorem answerFanStart_outOfRange (h : 8 ≤ n.toNat) (d : BitVec 24) : answerFanStart n d s = refuse s .outOfRange := by
  unfold answerFanStart; rw [readIndex_none h]

theorem answerFanStop_outOfRange (h : 8 ≤ n.toNat) : answerFanStop n s = refuse s .outOfRange := by
  unfold answerFanStop; rw [readIndex_none h]

theorem answerFanLock_outOfRange (service : s.link.service.debounced = true) (h : 8 ≤ n.toNat) :
    answerFanLock n s = refuse s .outOfRange := by
  unfold answerFanLock State.serviceActive
  rw [service, readIndex_none h]
  rfl

theorem answerFanRelease_outOfRange (service : s.link.service.debounced = true) (h : 8 ≤ n.toNat) :
    answerFanRelease n s = refuse s .outOfRange := by
  unfold answerFanRelease State.serviceActive
  rw [service, readIndex_none h]
  rfl

theorem answerReadAlarms_outOfRange (h : 81 < n.toNat) : answerReadAlarms n s = refuse s .outOfRange := if_pos h

theorem answerAcknowledge_outOfRange (h : 81 < n.toNat) (notAll : n ≠ 0xFF) :
    answerAcknowledge n s = refuse s .outOfRange := by
  unfold answerAcknowledge acknowledgedKeys
  rw [if_neg notAll, readIndex_none h]
  rfl

/-- SCHEDULE's fields name no action where its code is none, or the zone or fan that it needs lies beyond its table (R173). -/
theorem readAction_eq_none {f : ScheduleFields} (h : 4 ≤ f.action.toNat ∨ (f.action = 0 ∧ 6 ≤ f.target.toNat)
    ∨ ((f.action = 1 ∨ f.action = 2) ∧ 8 ≤ f.target.toNat)) : ScheduleFields.readAction f = none := by
  refine Option.eq_none_iff_forall_ne_some.2 fun a gives => ?_
  obtain ⟨_, _, _, _, _, _, named⟩ := ScheduleFields_readAction_eq_some.1 gives
  rcases named with ⟨code, _, z, target, _⟩ | ⟨code, _, _, i, target, _⟩ | ⟨code, _, i, target, _⟩ | ⟨code, _, _⟩
  · have := indexByte_toNat (by decide) z
    rw [code, target] at h
    rcases h with h | ⟨_, h⟩ | ⟨h, _⟩
    · exact absurd h (by decide)
    · omega
    · exact absurd h (by decide)
  · have := indexByte_toNat (by decide) i
    rw [code, target] at h
    rcases h with h | ⟨h, _⟩ | ⟨_, h⟩
    · exact absurd h (by decide)
    · exact absurd h (by decide)
    · omega
  · have := indexByte_toNat (by decide) i
    rw [code, target] at h
    rcases h with h | ⟨h, _⟩ | ⟨_, h⟩
    · exact absurd h (by decide)
    · exact absurd h (by decide)
    · omega
  · rw [code] at h
    exact absurd h (by simp)

theorem answerSchedule_outOfRange {f : ScheduleFields} (h : ScheduleFields.readAction f = none) :
    answerSchedule f s = refuse s .outOfRange := by
  unfold answerSchedule; rw [h]

end

/-- Settles O7: each refusal by the answer of its request. -/
theorem badNumbersAndKindsAreRefused : Obligations.BadNumbersAndKindsAreRefused := by
  have out {c : Instr} {kind kind' tag : Byte} {s : State} (free : s.link.outstanding = none)
      (r : answerOf c s = refuse s .outOfRange) (h : requestOf c = some (kind, tag)) (k : kind + 0x80 = kind') :
      Declined c s kind' tag 3 [] := declined_request (status := .outOfRange) h free k r
  refine ⟨fun tag n s free => ⟨fun h => ⟨?_, fun flags => ?_⟩, fun h all => ?_, fun h => ⟨?_, ?_⟩,
    fun h => ⟨?_, ?_, fun d => ?_, ?_, ?_⟩, fun h => ⟨?_, fun all => ?_⟩, fun service => ⟨fun h => ⟨?_, ?_⟩,
    fun h => ⟨?_, ?_, ?_, fun k => ?_, ?_⟩⟩⟩, fun tag s free => ⟨fun i flags h => ?_, fun f h => ?_⟩, fun tag kind s free low unknown => ?_⟩
  · exact out free (answerReadChannel_outOfRange h) rfl rfl
  · exact out free (answerClearFlags_outOfRange h flags) rfl rfl
  · exact out free (answerTrace_outOfRange h all) rfl rfl
  · exact out free (answerReadZone_outOfRange h) rfl rfl
  · exact out free (answerRotate_outOfRange h) rfl rfl
  · exact out free (answerReadFan_outOfRange h) rfl rfl
  · exact out free (answerReadProbe_outOfRange h) rfl rfl
  · exact out free (answerFanStart_outOfRange h d) rfl rfl
  · exact out free (answerFanStop_outOfRange h) rfl rfl
  · exact out free (answerCancel_outOfRange h s) rfl rfl
  · exact out free (answerReadAlarms_outOfRange h) rfl rfl
  · exact out free (answerAcknowledge_outOfRange h all) rfl rfl
  · exact out free (answerFanLock_outOfRange service h) rfl rfl
  · exact out free (answerFanRelease_outOfRange service h) rfl rfl
  · exact out free (testRequest_outOfRange service h _) rfl rfl
  · exact out free (testRequest_outOfRange service h _) rfl rfl
  · exact out free (testRequest_outOfRange service h _) rfl rfl
  · exact out free (testRequest_outOfRange service h _) rfl rfl
  · exact out free (testRequest_outOfRange service h _) rfl rfl
  · exact out free (answerClearFlags_badFlag i h) rfl rfl
  · exact out free (answerSchedule_outOfRange (readAction_eq_none h)) rfl rfl
  · exact declined_request (status := .unknownKind) (if_pos ⟨low, unknown⟩) free rfl rfl

end Sys2Proof.Machine
end

section
/-! The statements about the reports, LAMP TEST, TRACE and the state after reset. -/

namespace Sys2Proof.Machine

/-! ## Reports -/

@[simp] theorem bytesBE_length (n v : Nat) : (bytesBE n v).length = n := by
  induction n with
  | zero => rfl
  | succ n ih => simp [bytesBE, ih]

@[simp] theorem optionalBE_length (n : Nat) (v : Option Nat) : (optionalBE n v).length = n + 1 := by
  cases v <;> simp [optionalBE]

@[simp] theorem secondsBE_length (n : Nat) : (secondsBE n).length = 4 := by
  unfold secondsBE
  split <;> simp

/-- A slot's row holds at most 29 bytes (R177, R201). -/
theorem slotRow_length (room : Nat) (r : Option Slot) : (slotRow room r).length ≤ 29 := by
  cases r with
  | none => simp [slotRow]
  | some r =>
    cases h : r.stale
    · simp [slotRow, h]
    · simp [slotRow, h]

theorem flatten_length_le {α β : Type} {f : α → List β} {n : Nat} (h : ∀ x, (f x).length ≤ n) (xs : List α) :
    (xs.map f).flatten.length ≤ n * xs.length := by
  induction xs with
  | nil => simp
  | cons x xs ih =>
    have := h x
    simp only [List.map_cons, List.flatten_cons, List.length_append, List.length_cons, Nat.mul_succ]
    omega

theorem toList_map_vget {α β : Type} {n : Nat} (f : α → β) (v : Vector α n) :
    v.toList.map f = (List.finRange n).map fun k => f (vget v k) := by
  apply List.ext_getElem
  · simp
  · intro i _ _
    simp [vget]

theorem answerReadSchedule_rows (s : State) : answerReadSchedule s =
    accept s (bytesBE 6 s.time.room ++ ((List.finRange 8).map fun k => slotRow s.time.room (s.slot k)).flatten) := by
  unfold answerReadSchedule
  rw [toList_map_vget]
  rfl

theorem answerReadAlarms_accept (k : Fin 82) (s : State) : answerReadAlarms (indexByte k) s =
    accept s (bytesBE 2 s.alarm.version.toNat ++ bytesBE 1 s.alarm.table.length
      ++ listBE (((s.alarm.report.drop k.val).take 8).map fun x => Record.bytes x.1 x.2)) := by
  have e := indexByte_toNat (by decide) k
  have := k.isLt
  unfold answerReadAlarms
  rw [e, if_neg (by omega)]

theorem answerReadNotices_accept (s : State) : answerReadNotices s =
    accept (s.setLink { s.link with notices := s.link.notices.drop 6 })
      (bytesBE 1 (min 6 s.link.notices.length) ++ bytesBE 1 (s.link.notices.length - 6)
        ++ listBE ((s.link.notices.take 6).map Notice.bytes)) := by
  rw [← List.length_take, ← List.length_drop]
  rfl

theorem answerReadZone_accept (z : Fin 6) (s : State) : answerReadZone (indexByte z) s = accept s (s.zoneBody z) := by
  unfold answerReadZone
  rw [readIndex_indexByte (by decide)]

theorem answerReadFan_accept (i : Fin 8) (s : State) : answerReadFan (indexByte i) s = accept s (s.fanBody i) := by
  unfold answerReadFan
  rw [readIndex_indexByte (by decide)]

theorem answerReadProbe_accept (p : Fin 8) (s : State) : answerReadProbe (indexByte p) s = accept s (s.probeBody p) := by
  unfold answerReadProbe
  rw [readIndex_indexByte (by decide)]

theorem answerReadChannel_accept (i : Fin 16) (s : State) : answerReadChannel (indexByte i) s =
    accept (s.setChan i (s.chan i).readFlags) (s.channelBody i) := by
  unfold answerReadChannel
  rw [readIndex_indexByte (by decide)]

/-- Settles O8: each report by its answer, and the length of the slots' rows. -/
theorem reportsLeaveAllButTheNoticesTheyReturn : Obligations.ReportsLeaveAllButTheNoticesTheyReturn := by
  refine ⟨fun tag s free => ⟨?_, fun z => ?_, fun i => ?_, ?_, fun k => ?_, fun p => ?_, ?_, ?_, ?_⟩, fun tag s free => ?_⟩
  · exact accepted_request rfl free rfl rfl
  · exact accepted_request rfl free rfl (answerReadZone_accept z s)
  · exact accepted_request rfl free rfl (answerReadFan_accept i s)
  · exact accepted_request rfl free rfl rfl
  · exact accepted_request rfl free rfl (answerReadAlarms_accept k s)
  · exact accepted_request rfl free rfl (answerReadProbe_accept p s)
  · exact accepted_request rfl free rfl rfl
  · exact accepted_request rfl free rfl (answerReadSchedule_rows s)
  · have := flatten_length_le (fun k => slotRow_length s.time.room (s.slot k)) (List.finRange 8)
    rw [List.length_finRange] at this
    rw [List.length_append, bytesBE_length]
    omega
  · exact accepted_request rfl free rfl (answerReadNotices_accept s)

/-- Settles O9: READ CHANNEL by its answer, and each flag after it. -/
theorem readChannelMarksFlagsSeen : Obligations.ReadChannelMarksFlagsSeen := by
  intro tag i s free
  refine ⟨_, accepted_request rfl free rfl (answerReadChannel_accept i s), ?_, fun k => ?_⟩
  · rw [State.setChan_chan_same]
    rfl
  · rw [State.setChan_chan_same]
    unfold Channel.readFlags
    dsimp only
    rw [vget_map]
    exact ⟨rfl, rfl⟩

/-! ## LAMP TEST and TRACE -/

theorem anyOf_iff (a : Alarm) (test : Record → Bool) :
    a.anyOf test = true ↔ ∃ k r, a.record k = some r ∧ test r = true := by
  simp [Alarm.anyOf, Alarm.anyRecord, Option.any_eq_true]

theorem entryOn_iff (s : State) :
    s.entryOn = true ↔ s.alarm.regime = .gasAlarm ∨ s.alarm.regime = .critical ∨ s.setup.armed = false := by
  unfold State.entryOn
  cases s.alarm.regime <;> simp [Regime.alarming]

/-- Settles O13: the timer's start and its expiry, and what the outputs compute. -/
theorem lampTestRunsTenSeconds : Obligations.LampTestRunsTenSeconds := by
  refine ⟨fun tag s free => accepted_request rfl free rfl rfl, fun s t lit => ?_, fun s => ⟨?_, ?_, entryOn_iff s, fun dark => ?_⟩⟩
  · refine ⟨by simp [State.horn, lit], by simp [State.beacon, lit], by simp [State.entry, lit], fun h => ?_⟩
    refine ⟨s.setAlarm { s.alarm with lampTimer := none }, ?_, rfl, rfl, rfl, rfl⟩
    exact if_pos (by rw [lit]; exact decide_eq_true h)
  · simp [Alarm.hornOn, anyOf_iff]
  · simp [Alarm.beaconOn, anyOf_iff]
  · simp [State.horn, State.beacon, State.entry, dark]

theorem readIndexOrNone_indexOrNone (selection : Option (Fin 16)) :
    readIndexOrNone 16 (indexOrNone selection) = some selection := by
  cases selection with
  | none => rfl
  | some i =>
    have e : indexOrNone (some i) = indexByte i := rfl
    have ne : indexByte i ≠ 0xFF := by revert i; decide
    unfold readIndexOrNone
    rw [e, if_neg ne, readIndex_indexByte (by decide)]
    rfl

/-- Settles O14: TRACE by its answer. -/
theorem traceSelectsAndStartsAgain : Obligations.TraceSelectsAndStartsAgain := by
  intro tag selection s free
  refine accepted_request rfl free rfl ?_
  change answerTrace _ s = _
  unfold answerTrace
  rw [readIndexOrNone_indexOrNone]

/-! ## Reset -/

theorem reset_chan (i : Fin 16) : State.reset.chan i = .reset := vget_replicate ..
theorem reset_zone (z : Fin 6) : State.reset.zone z = .inactive .reset := vget_replicate ..
theorem reset_fan (i : Fin 8) : State.reset.fan i = .reset := vget_replicate ..
theorem reset_probe (p : Fin 8) : State.reset.probe p = .absent .reset .dry := vget_replicate ..
theorem reset_requestTime (i : Fin 8) : State.reset.requestTime i = none := vget_replicate ..
theorem reset_image (k : Fin 82) : State.reset.alarm.image k = .inactive := vget_replicate ..
theorem reset_record (k : Fin 82) : State.reset.alarm.record k = none := vget_replicate ..
theorem reset_paused (z : Fin 6) : vget State.reset.alarm.paused z = false := vget_replicate ..

theorem fanLaw_reset : FanLaw .reset where
  output i h := by rw [reset_fan] at h; cases h
  waiting i := by rw [reset_fan, reset_requestTime]; simp [Fan.reset]
  unarmed _ i := by rw [reset_fan]; rfl
  absent i _ := by rw [reset_fan]; rfl
  managed h := by cases h
  failsafe i h := by cases h

theorem claimLaw_reset : ClaimLaw .reset where
  order z := by rw [reset_zone]; exact List.nodup_nil
  listed z := by rw [reset_zone]; exact List.Sublist.refl _
  active z := by rw [reset_zone]; rfl
  inactive z _ := by rw [reset_zone]; rfl
  held z i := by
    rw [reset_zone, reset_fan, show Fan.reset.claims.zones = .replicate 6 false from rfl, vget_replicate]
    simp [Zone.inactive]
  available z i h := by rw [reset_zone] at h; cases h
  enough z h := by rw [reset_zone] at h; cases h
  shortfall z := by rw [reset_zone]; rfl
  unclaimed i _ := by rw [reset_fan]; rfl
  waiting i h := by rw [reset_fan] at h; cases h
  stopping i h := by rw [reset_fan] at h; rcases h with h | h <;> cases h

theorem zoneLaw_reset : ZoneLaw .reset where
  sight z h := by rw [reset_zone] at h; cases h
  voted z h := by rw [reset_zone] at h; cases h
  spill z h := by rw [reset_zone] at h; cases h
  demand z h := by rw [reset_zone] at h; cases h

theorem promptLaw_reset : PromptLaw .reset where
  waits i h := by rw [reset_fan] at h; cases h
  owes i h := by rw [reset_fan] at h; cases h

theorem imageLaw_reset : ImageLaw .reset where
  channelFault i := by rw [reset_image, reset_chan]; rfl
  channelNote i := by
    rw [reset_image, reset_chan, show Channel.reset.flags = .replicate 5 .reset from rfl]
    simp [FlagMark.reset]
  gas z := by rw [reset_image, reset_zone]; rfl
  blind z := by rw [reset_image, reset_zone]; rfl
  shortfall z := by rw [reset_image, reset_zone]; rfl
  paused z := by rw [reset_paused, reset_zone]; rfl
  spill p := by rw [reset_image, reset_probe]; rfl
  probeFault p := by rw [reset_image, reset_probe]; rfl
  fanFail i := by rw [reset_image, reset_fan]; simp [Fan.reset]
  flowNote i := by rw [reset_image, reset_fan]; rfl
  eqz := rfl

theorem probeLaw_reset : ProbeLaw .reset :=
  probeLaw_of_absent (fun i => by rw [reset_probe]; exact ⟨rfl, rfl⟩) rfl

/-- Settles O60: each law of the reset values. -/
theorem resetObeysEveryLaw : Obligations.ResetObeysEveryLaw :=
  ⟨Nat.zero_le 32, ⟨Nat.two_pow_pos 48, Nat.two_pow_pos 24, Nat.two_pow_pos 16⟩,
    fun i => by rw [reset_chan]; exact channelLaw_reset, fanLaw_reset, claimLaw_reset, zoneLaw_reset,
    ⟨Nat.zero_le _, fun _ => rfl⟩, promptLaw_reset, derivedLaw_reset, tableLaw_empty reset_record reset_image, imageLaw_reset,
    probeLaw_reset⟩

end Sys2Proof.Machine
end

section
/-! The statements about ACKNOWLEDGE, CLEAR FLAGS and MASK: a pass of the alarm unit that leaves the regime, said whole. -/

namespace Sys2Proof.Machine

/-! ## A pass that leaves the regime -/

/-- The notice that is queued at a room time (R193). -/
def noticeAt (room : Nat) (b : NoticeBody) : Notice := { time := room, body := b, overflow := false }

theorem foldl_notice (bs : List NoticeBody) (s : State) : bs.foldl State.notice s =
    s.setLink { s.link with notices := bs.foldl (fun q b => enqueue q (noticeAt s.time.room b)) s.link.notices } := by
  induction bs generalizing s with
  | nil => rfl
  | cons b bs ih => exact ih (s.notice b)

theorem noticeAll_out (bs : List NoticeBody) (w : Work) : (w.noticeAll bs).out = w.out := by
  induction bs generalizing w with
  | nil => rfl
  | cons b bs ih => exact ih (w.notice b)

/-- The PERMIT CHANGE notice of a pass (R142). -/
def permitNotices (was now : Permit) : List NoticeBody := if now = was then [] else [.permitChange now]

/-- The alarm unit after a pass that leaves its regime. -/
def Alarm.passed (a : Alarm) (changed armed : Bool) : Alarm :=
  { a with permit := permitOf a armed, version := if changed then a.version + 1 else a.version }

/-- A pass that leaves the regime hands nothing on. -/
theorem alarmPass_steady {w : Work} (changed : Bool) (notes : List NoticeBody) (steady : regimeOf w.st.alarm = w.st.alarm.regime) :
    w.alarmPass changed notes = (w.map fun s => s.setAlarm (s.alarm.passed changed s.setup.armed)).noticeAll
      (notes ++ permitNotices w.st.alarm.permit (permitOf w.st.alarm w.st.setup.armed)) := by
  unfold Work.alarmPass
  dsimp only
  rw [if_pos steady, if_pos steady, List.append_nil, steady]
  rfl

/-- The part after a pass over the alarm unit `b` that leaves the regime. -/
def State.passed (s : State) (b : Alarm) (changed : Bool) (notes : List NoticeBody) : State :=
  (s.setAlarm (b.passed changed s.setup.armed)).setLink { s.link with
    notices := (notes ++ permitNotices b.permit (permitOf b s.setup.armed)).foldl
      (fun q n => enqueue q (noticeAt s.time.room n)) s.link.notices }

/-- A step that is one such pass over a new alarm unit: the alarm unit and the notices are all that it changes. -/
theorem does_alarmPass {s : State} {g : State → Alarm} (changed : Bool) (notes : List NoticeBody)
    (steady : regimeOf (g s) = (g s).regime) :
    (s.does fun w => (w.map fun s => s.setAlarm (g s)).alarmPass changed notes) =
      s.passed (g s) changed notes := by
  have pass := alarmPass_steady (w := s.begin.map fun s => s.setAlarm (g s)) changed notes steady
  rw [does_quiet, pass, noticeAll_st, foldl_notice]
  · rfl
  · rw [pass, noticeAll_out]
    rfl

/-- The alarm unit `b` differs from `a` in its records and its masks alone. -/
def SameButRecords (a b : Alarm) : Prop :=
  b = { a with records := b.records, maskChannelNote := b.maskChannelNote, maskFlowNote := b.maskFlowNote }

theorem SameButRecords.regimeOf {a b : Alarm} (h : SameButRecords a b) : regimeOf b = regimeOf a := by
  rw [show b = _ from h]
  rfl

/-- A pass over such an alarm unit changes the records, the masks, the version, the permit and the notices alone. -/
theorem State.passed_rest {s : State} {b : Alarm} (h : SameButRecords s.alarm b) (changed : Bool) (notes : List NoticeBody) :
    s.passed b changed notes = { s with
      alarm := { s.alarm with
        maskChannelNote := b.maskChannelNote, maskFlowNote := b.maskFlowNote
        records := (s.passed b changed notes).alarm.records
        version := (s.passed b changed notes).alarm.version
        permit := (s.passed b changed notes).alarm.permit }
      link := { s.link with notices := (s.passed b changed notes).link.notices } } := by
  have images : b.images = s.alarm.images := by rw [show b = _ from h]
  have paused : b.paused = s.alarm.paused := by rw [show b = _ from h]
  have eqz : b.eqz = s.alarm.eqz := by rw [show b = _ from h]
  have regime : b.regime = s.alarm.regime := by rw [show b = _ from h]
  have lamp : b.lampTimer = s.alarm.lampTimer := by rw [show b = _ from h]
  unfold State.passed Alarm.passed
  rw [images, paused, eqz, regime, lamp]
  rfl

/-! ## ACKNOWLEDGE (R133) -/

/-- The keys that an ACKNOWLEDGE names, by the test that the statement gives them. -/
theorem acknowledgedKeys_named {key : Byte} {named : Fin 82 → Bool}
    (h : (key = 0xFF ∧ named = fun _ => true) ∨ ∃ k : Fin 82, key = indexByte k ∧ named = fun j => decide (j = k)) :
    ∃ keys, acknowledgedKeys key = some keys ∧ (∀ k, keys.contains k = named k) ∧
      ∀ test : Fin 82 → Bool, keys.filter test = (List.finRange 82).filter fun k => named k && test k := by
  rcases h with ⟨rfl, rfl⟩ | ⟨k, rfl, rfl⟩
  · exact ⟨List.finRange 82, if_pos rfl, fun k => by simp, fun test => by simp⟩
  · have ne : indexByte k ≠ 0xFF := by
      intro e
      have := indexByte_toNat (by decide) k
      rw [e] at this
      have := k.isLt
      simp at *
      omega
    refine ⟨[k], ?_, fun j => by simp, fun test => ?_⟩
    · unfold acknowledgedKeys
      rw [if_neg ne, readIndex_indexByte (by decide)]
      rfl
    · have single : (List.finRange 82).filter (fun j => decide (j = k)) = [k] := by
        rw [List.filter_eq, List.count_finRange]
        rfl
      simp only [Bool.and_comm (decide _)]
      rw [← List.filter_filter, single]

theorem answerAcknowledge_read {key : Byte} {keys : List (Fin 82)} {s : State} (named : acknowledgedKeys key = some keys) :
    answerAcknowledge key s = accept (s.does fun w => (w.map fun s => s.setAlarm (s.alarm.acknowledge keys)).alarmPass
      (!(s.alarm.affected keys).isEmpty) []) (bytesBE 1 (s.alarm.affected keys).length) := by
  unfold answerAcknowledge
  rw [named]

/-- What the alarm unit is once the records of these keys are acknowledged. -/
structure Acknowledged (a : Alarm) (keys : List (Fin 82)) (b : Alarm) : Prop where
  rest : b = { a with records := b.records }
  same : SameButRecords a b
  record : ∀ k, b.record k = if keys.contains k then (a.record k).bind Record.acknowledge else a.record k

theorem acknowledge_acknowledged (a : Alarm) (keys : List (Fin 82)) : Acknowledged a keys (a.acknowledge keys) :=
  ⟨by simp only [Alarm.acknowledge], by simp only [SameButRecords, Alarm.acknowledge], acknowledge_record a keys⟩

/-- ACKNOWLEDGE where the regime is the derived one. -/
theorem answerAcknowledge_accept {key : Byte} {keys : List (Fin 82)} {s : State} (named : acknowledgedKeys key = some keys)
    (law : DerivedLaw s) : ∃ b, Acknowledged s.alarm keys b ∧ answerAcknowledge key s =
      accept (s.passed b (!(s.alarm.affected keys).isEmpty) []) (bytesBE 1 (s.alarm.affected keys).length) := by
  have acked := acknowledge_acknowledged s.alarm keys
  have did := does_alarmPass (s := s) (g := fun s => s.alarm.acknowledge keys) (!(s.alarm.affected keys).isEmpty) []
    (by rw [acked.same.regimeOf, ← law.regime, acked.rest])
  exact ⟨_, acked, by rw [answerAcknowledge_read named, did]⟩

theorem bytesBE_one (n : Nat) : bytesBE 1 n = [BitVec.ofNat 8 n] := by simp [bytesBE]

theorem not_isEmpty_filter {α : Type} (test : α → Bool) (xs : List α) : (!(xs.filter test).isEmpty) = xs.any test :=
  Bool.eq_iff_iff.2 (by simp)

/-- Settles O10: the pass leaves the regime, for no image moves. -/
theorem acknowledgeActsByRecordState : Obligations.AcknowledgeActsByRecordState := by
  intro tag key named s free law which
  obtain ⟨keys, read, member, filtered⟩ := acknowledgedKeys_named which
  obtain ⟨b, acked, answer⟩ := answerAcknowledge_accept read law
  have affected : s.alarm.affected keys =
      (List.finRange 82).filter fun k => named k && (s.alarm.record k).any Record.unacknowledged := filtered _
  rw [affected, not_isEmpty_filter, bytesBE_one] at answer
  have permit : b.permit = s.alarm.permit := by rw [acked.rest]
  refine ⟨_, accepted_request (c := .acknowledge tag key) rfl free rfl answer, ?_, fun k => ?_, ?_, ?_, ?_⟩
  · rw [State.passed_rest acked.same]
    rw [show b.maskChannelNote = s.alarm.maskChannelNote by rw [acked.rest],
      show b.maskFlowNote = s.alarm.maskFlowNote by rw [acked.rest]]
  · rw [← member]
    refine (acked.record k).trans ?_
    cases s.alarm.record k with
    | none => rfl
    | some r => cases h : r.state <;> simp [Record.acknowledge, h]
  · change (if _ then b.version + 1 else b.version) = _
    rw [show b.version = s.alarm.version by rw [acked.rest]]
    split <;> simp
  · rfl
  · change List.foldl _ _ (permitNotices b.permit (permitOf b s.setup.armed)) =
      if permitOf b s.setup.armed = s.alarm.permit then _ else _
    unfold permitNotices
    rw [permit]
    split
    · rfl
    · rfl

end Sys2Proof.Machine
end

section
/-! What the work on one channel hands over, and the statements about CLEAR FLAGS and the test requests. -/

namespace Sys2Proof.Machine

/-! ## The hand-overs of a channel's own work -/

/-- Work that has handed over at most `n` conditions, and nothing else. -/
structure Conditions (w : Work) (n : Nat) : Prop where
  few : w.out.length ≤ n
  all : ∀ h ∈ w.out, ∃ k image, h = .condition k image

theorem conditions_begin (s : State) : Conditions s.begin 0 := ⟨le_rfl, fun _ h => (nomatch h)⟩

theorem Conditions.congr {v w : Work} {n : Nat} (c : Conditions w n) (e : v.out = w.out) : Conditions v n :=
  ⟨by rw [e]; exact c.few, by rw [e]; exact c.all⟩

theorem Conditions.le {w : Work} {m n : Nat} (c : Conditions w m) (h : m ≤ n) : Conditions w n := ⟨c.few.trans h, c.all⟩

theorem Conditions.notice {w : Work} {n : Nat} (c : Conditions w n) (b : NoticeBody) : Conditions (w.notice b) n := c.congr rfl

theorem Conditions.noticeAll {w : Work} {n : Nat} (c : Conditions w n) (bs : List NoticeBody) : Conditions (w.noticeAll bs) n :=
  c.congr (noticeAll_out bs w)

theorem Conditions.post {w : Work} {n : Nat} (c : Conditions w n) (k : Fin 82) (image : Image) :
    Conditions (w.post (.condition k image)) (n + 1) := by
  refine ⟨by have := c.few; simpa [Work.post] using this, fun h mem => ?_⟩
  rcases List.mem_append.1 mem with old | new
  · exact c.all h old
  · exact ⟨k, image, List.mem_singleton.1 new⟩

theorem Conditions.putChannel {w : Work} {n : Nat} (h : Conditions w n) (i : Fin 16) (c : Channel) :
    Conditions (w.putChannel i c) (n + 1) := by
  have put : Conditions (w.map fun s => s.setChan i c) n := h.congr rfl
  unfold Work.putChannel
  dsimp only
  split
  · exact put.le (Nat.le_succ n)
  · exact put.post _ _

theorem Conditions.moveChannel {w : Work} {n : Nat} (h : Conditions w n) (i : Fin 16) (c : Channel) :
    Conditions (w.moveChannel i c) (n + 2) := by
  unfold Work.moveChannel
  dsimp only
  split
  · exact (h.putChannel i c).le (Nat.le_succ _)
  · split
    · exact ((h.putChannel i c).notice _).le (Nat.le_succ _)
    · exact ((h.putChannel i c).notice _).post _ _

theorem tellZone_out (w : Work) (i : Fin 16) : (w.tellZone i).out =
    w.out ++ ((w.st.chan i).memberOf.map Handover.member).toList := by
  unfold Work.tellZone
  cases h : (w.st.chan i).memberOf <;> simp [Work.post]

theorem memberOf_eq_some {c : Channel} {z : Fin 6} : c.memberOf = some z ↔ c.cfg.enabled = true ∧ c.cfg.zone = some z := by
  unfold Channel.memberOf
  cases c.cfg.enabled <;> simp

theorem Settles.congr {u t : State} {told told' : Fin 6 → Prop} (h : Settles u t told) (e : ∀ z, told z ↔ told' z) :
    Settles u t told' := ⟨h.keeps, h.rests, h.ungranted, h.zones.congr e fun _ => Iff.rfl⟩

/-- Conditions lead on and reach no zone's sensing. -/
theorem Conditions.settles {w : Work} {n : Nat} (h : Conditions w n) : Settles w.st w.finish := by
  refine settle_settles_quiet _ fun x mem => ?_
  obtain ⟨k, image, rfl⟩ := h.all x mem
  rfl

/-- Conditions, then the zone of a channel, and then hand-overs that reach no zone's sensing, lead on; that zone senses anew
(R45). -/
theorem Conditions.settles_then {w v : Work} {n : Nat} (h : Conditions w n) {i : Fin 16} {extra : List Handover} (st : v.st = w.st)
    (out : v.out = (w.tellZone i).out ++ extra) (few : n + extra.length < settleLimit)
    (deaf : ∀ x ∈ extra, x.couples = false ∧ (∀ z, x ≠ .member z) ∧ ∀ z, x ≠ .spill z) :
    Settles w.st v.finish (MemberOf w.st i) := by
  have len : (((w.st.chan i).memberOf.map Handover.member).toList).length ≤ 1 := by
    cases (w.st.chan i).memberOf <;> simp
  have members : ∀ x, x ∈ v.out → ((∃ k image, x = .condition k image) ∨
      ∃ z, (w.st.chan i).memberOf = some z ∧ x = .member z) ∨ x ∈ extra := by
    intro x mem
    rw [out, tellZone_out] at mem
    rcases List.mem_append.1 mem with mem | other
    · rcases List.mem_append.1 mem with old | new
      · exact .inl (.inl (h.all x old))
      · refine .inl (.inr ?_)
        cases m : (w.st.chan i).memberOf with
        | none => rw [m] at new; cases new
        | some z => rw [m] at new; exact ⟨z, rfl, by simpa using new⟩
    · exact .inr other
  have k := settle_settles (fuel := settleLimit) (w := v)
    (by rw [out, tellZone_out, List.length_append, List.length_append]; have := h.few; omega)
    (fun x mem => by
      rcases members x mem with (⟨_, _, rfl⟩ | ⟨_, _, rfl⟩) | other
      · rfl
      · rfl
      · exact (deaf x other).1)
  rw [st] at k
  refine ⟨k.keeps, k.rests, k.ungranted, k.zones.congr (fun z => ?_) fun z => ?_⟩
  · constructor
    · rintro ⟨mem, active⟩
      rcases members _ mem with (⟨_, _, e⟩ | ⟨_, m, e⟩) | other
      · cases e
      · cases e
        exact ⟨active, memberOf_eq_some.1 m⟩
      · exact absurd rfl ((deaf _ other).2.1 z)
    · rintro ⟨active, member⟩
      refine ⟨?_, active⟩
      rw [out, tellZone_out, memberOf_eq_some.2 member]
      simp
  · refine iff_of_false (fun spilt => ?_) id
    rcases members _ spilt.1 with (⟨_, _, e⟩ | ⟨_, _, e⟩) | other
    · cases e
    · cases e
    · exact absurd rfl ((deaf _ other).2.2 z)

/-- Conditions, and then the zone of a channel, lead on, and that zone senses anew (R45). -/
theorem Conditions.settles_told {w : Work} {n : Nat} (h : Conditions w n) (few : n < settleLimit) (i : Fin 16) :
    Settles w.st (w.tellZone i).finish (MemberOf w.st i) :=
  h.settles_then (extra := []) (tellZone_st w i) (List.append_nil _).symm few fun _ mem => nomatch mem

/-- A channel takes a new record within its state. -/
theorem does_putChannel (s : State) (i : Fin 16) (c : Channel) : Settles (s.setChan i c) (s.does fun w => w.putChannel i c) := by
  have k := ((conditions_begin s).putChannel i c).settles
  rw [putChannel_st] at k
  exact k

theorem memberOf_setChan {s : State} {i : Fin 16} {c : Channel} (cfg : c.cfg = (s.chan i).cfg) (z : Fin 6) :
    MemberOf (s.setChan i c) i z ↔ MemberOf s i z := by
  unfold MemberOf
  rw [State.setChan_chan_same, cfg]
  rfl

theorem foldl_notice_chan (bs : List NoticeBody) (s : State) (i : Fin 16) : (bs.foldl State.notice s).chan i = s.chan i := by
  rw [foldl_notice]
  rfl

theorem memberOf_foldl_notice (bs : List NoticeBody) (s : State) (i : Fin 16) (z : Fin 6) :
    MemberOf (bs.foldl State.notice s) i z ↔ MemberOf s i z := by
  rw [foldl_notice]
  rfl

/-- The state that a channel's change of state leaves once these notices have been queued. -/
def State.channelMoved (s : State) (i : Fin 16) (c : Channel) (notes : List NoticeBody) : State :=
  ((notes.foldl State.notice s).setChan i c).notice (.channelChange i c.state)

/-- A channel's change of state, with the notices queued before it; its zone senses anew (R11, R12, R45). -/
theorem does_moveAndTell {s : State} {i : Fin 16} {c : Channel} (notes : List NoticeBody)
    (changed : (s.chan i).state ≠ c.state) (cfg : c.cfg = (s.chan i).cfg) :
    Settles (s.channelMoved i c notes) (s.does fun w => (w.noticeAll notes).moveAndTell i c) (MemberOf s i) := by
  have noted : (s.begin.noticeAll notes).st = notes.foldl State.notice s := noticeAll_st notes s.begin
  have moved : ((s.begin.noticeAll notes).moveChannel i c).st = s.channelMoved i c notes := by
    rw [moveChannel_changed (by rw [noted, foldl_notice_chan]; exact changed), noted]
    rfl
  have k := ((((conditions_begin s).noticeAll notes).moveChannel i c)).settles_told (by decide) i
  rw [moved] at k
  refine k.congr fun z => ?_
  refine (memberOf_setChan (s := notes.foldl State.notice s) ?_ z).trans (memberOf_foldl_notice notes s i z)
  rw [foldl_notice_chan, cfg]

/-- The channel that such a change of state leaves. -/
theorem moveAndTell_chan {s t : State} {i : Fin 16} {c : Channel} {notes : List NoticeBody} {told : Fin 6 → Prop}
    (h : Settles (s.channelMoved i c notes) t told) : t.chan i = c ∧ t.time = s.time := by
  refine ⟨?_, h.keeps.time.trans (by unfold State.channelMoved; rw [foldl_notice]; rfl)⟩
  unfold State.chan
  rw [h.keeps.chans]
  exact State.setChan_chan_same ..

/-! ## CLEAR FLAGS (R15) -/

theorem mapM_readIndex_map {n : Nat} (h : n ≤ 256) (xs : List (Fin n)) : (xs.map indexByte).mapM (readIndex n) = some xs := by
  induction xs with
  | nil => rfl
  | cons x xs ih => rw [List.map_cons, List.mapM_cons, readIndex_indexByte h, ih]; rfl

theorem answerClearFlags_accept (i : Fin 16) (listed : List (Fin 5)) (s : State) :
    answerClearFlags (indexByte i) (listed.map indexByte) s =
      accept (s.does fun w => w.putChannel i ((s.chan i).clearFlags listed))
        ((s.does fun w => w.putChannel i ((s.chan i).clearFlags listed)).chan i).flagsLeft := by
  unfold answerClearFlags
  rw [readIndex_indexByte (by decide), mapM_readIndex_map (by decide)]
  rfl

/-- Settles O11: CLEAR FLAGS by its answer, and each flag after it. -/
theorem clearFlagsNeedsSeenMarks : Obligations.ClearFlagsNeedsSeenMarks := by
  intro tag i listed s free
  have settles := does_putChannel s i ((s.chan i).clearFlags listed)
  have answer := answerClearFlags_accept i listed s
  generalize (s.does fun w => w.putChannel i ((s.chan i).clearFlags listed)) = t at settles answer
  have chan : t.chan i = (s.chan i).clearFlags listed := by
    unfold State.chan
    rw [settles.keeps.chans]
    exact State.setChan_chan_same ..
  refine ⟨t, accepted_request rfl free rfl answer, by rw [chan]; exact settles, fun k => ?_⟩
  rw [chan]
  unfold Channel.clearFlags FlagMark.clearSeen
  rw [vget_ofFn]
  cases listed.contains k <;> simp [FlagMark.reset]

/-! ## CHANNEL HOLD and CHANNEL RESUME (R154, R155) -/

theorem testRequest_act {i : Fin 16} {s : State} (service : s.link.service.debounced = true) (act : Fin 16 → Answer) :
    testRequest (indexByte i) s act = act i := by
  unfold testRequest State.serviceActive
  rw [service, readIndex_indexByte (by decide)]
  rfl

end Sys2Proof.Machine
end

section
/-! The statements about the test requests (08_calibration_and_bump_testing.md), and about a channel's timers. -/

namespace Sys2Proof.Machine

/-! ## Timers and entries to a state -/

theorem startTimer_of_pos {now n : Nat} (h : 0 < n) : startTimer now n = some (now + n) := if_neg h.ne'

section
variable (c : Channel) (clock : Nat)

theorem enter_timed {st : ChannelState} {n ms : Nat} (time : c.stateTime st = n) (pos : 0 < n) (millis : n * 1000 = ms) :
    c.enter st clock = { c with state := st, timer := some (clock + ms) } := by
  subst time millis
  unfold Channel.enter seconds
  rw [startTimer_of_pos (Nat.mul_pos pos (by decide))]

theorem enter_untimed {st : ChannelState} (time : c.stateTime st = 0) : c.enter st clock = { c with state := st, timer := none } := by
  unfold Channel.enter
  rw [time]
  rfl

theorem enter_hold : c.enter .hold clock = { c with state := .hold, timer := some (clock + 3600000) } :=
  enter_timed (n := 3600) c clock rfl (by decide) (by norm_num)

theorem enter_recover : c.enter .recover clock = { c with state := .recover, timer := some (clock + 600000) } :=
  enter_timed (n := 600) c clock rfl (by decide) (by norm_num)

theorem enter_tracking : c.enter .tracking clock = { c with state := .tracking, timer := none } := enter_untimed c clock rfl

theorem enter_bump : c.enter .bump clock = { c with state := .bump, timer := none } := enter_untimed c clock rfl

theorem enter_fault (cause : FaultCause) : c.enter (.fault cause) clock = { c with state := .fault cause, timer := none } :=
  enter_untimed c clock rfl

end

/-! ## Answers of the test requests -/

section
variable {i : Fin 16} {s : State} (service : s.link.service.debounced = true)
include service

theorem answerChannelHold_hold (state : (s.chan i).state = .warmup ∨ (s.chan i).state = .tracking) :
    answerChannelHold (indexByte i) s =
      accept (s.does fun w => w.moveAndTell i { (s.chan i).enter .hold s.clock with armedSpan := none })
        ((s.does fun w => w.moveAndTell i { (s.chan i).enter .hold s.clock with armedSpan := none }).testReply i
          ++ secondsBE 3600) := by
  unfold answerChannelHold
  rw [testRequest_act service]
  rcases state with state | state
  · rw [state]
  · rw [state]

theorem answerChannelHold_wrongState (notWarmup : (s.chan i).state ≠ .warmup) (notTracking : (s.chan i).state ≠ .tracking) :
    answerChannelHold (indexByte i) s = refuse s .wrongState := by
  unfold answerChannelHold
  rw [testRequest_act service]
  cases state : (s.chan i).state <;> first | rfl | exact absurd state notWarmup | exact absurd state notTracking

/-- The answer of CHANNEL RESUME once it has left `t`. -/
def resumeAnswer (i : Fin 16) (t : State) : Answer := accept t (t.testReply i ++ timerLeft t.clock (t.chan i).timer)

theorem answerChannelResume_hold (state : (s.chan i).state = .hold) : answerChannelResume (indexByte i) s =
    resumeAnswer i (s.does fun w => w.leaveTest i .tracking .resume) := by
  unfold answerChannelResume
  rw [testRequest_act service, state]
  rfl

theorem answerChannelResume_bump (state : (s.chan i).state = .bump) : answerChannelResume (indexByte i) s =
    resumeAnswer i (s.does fun w => w.leaveTest i .recover .resume) := by
  unfold answerChannelResume
  rw [testRequest_act service, state]
  rfl

theorem answerChannelResume_wrongState (notHold : (s.chan i).state ≠ .hold) (notBump : (s.chan i).state ≠ .bump) :
    answerChannelResume (indexByte i) s = refuse s .wrongState := by
  unfold answerChannelResume
  rw [testRequest_act service]
  cases state : (s.chan i).state <;> first | rfl | exact absurd state notHold | exact absurd state notBump

end

/-- A channel's change of state with no notice before it. -/
theorem does_moveAndTell_plain {s : State} {i : Fin 16} {c : Channel} (changed : (s.chan i).state ≠ c.state)
    (cfg : c.cfg = (s.chan i).cfg) :
    Settles (s.channelMoved i c []) (s.does fun w => w.moveAndTell i c) (MemberOf s i) := does_moveAndTell [] changed cfg

theorem leaveTest_settles {s : State} {i : Fin 16} {new : ChannelState} {reason : AbortReason}
    (changed : (s.chan i).state ≠ new) :
    Settles (s.channelMoved i ((s.chan i).endTest.enter new s.clock) (abortNotices i (s.chan i) reason))
      (s.does fun w => w.leaveTest i new reason) (MemberOf s i) :=
  does_moveAndTell (abortNotices i (s.chan i) reason) changed rfl

/-- A test that leaves HOLD reports an armed span as aborted (R155, R160). -/
theorem leaveHold_moved {s : State} {i : Fin 16} (state : (s.chan i).state = .hold) (new : ChannelState) (reason : AbortReason) :
    s.channelMoved i ((s.chan i).endTest.enter new s.clock) (abortNotices i (s.chan i) reason) =
      ((match (s.chan i).armedSpan with
        | some k => s.notice (.testResult i (.spanAborted k))
        | none => s).setChan i ((s.chan i).endTest.enter new s.clock)).notice (.channelChange i new) := by
  unfold abortNotices
  rw [state]
  cases (s.chan i).armedSpan <;> rfl

theorem leaveBump_moved {s : State} {i : Fin 16} (state : (s.chan i).state = .bump) (new : ChannelState) (reason : AbortReason) :
    s.channelMoved i ((s.chan i).endTest.enter new s.clock) (abortNotices i (s.chan i) reason) =
      ((s.notice (.testResult i (.testAborted reason false))).setChan i ((s.chan i).endTest.enter new s.clock)).notice
        (.channelChange i new) := by
  unfold abortNotices
  rw [state]
  rfl

theorem secondsLeft_of {now expiry n : Nat} (h : expiry = now + 1000 * n) : secondsLeft now expiry = n := by
  unfold secondsLeft
  omega

/-- Settles O19: each request by its answer, and the change of state it makes. -/
theorem channelHoldAndResumeMoveTheChannel : Obligations.ChannelHoldAndResumeMoveTheChannel := by
  intro tag i s free service
  refine ⟨fun state => ?_, fun state => ?_, fun state => ?_, fun a b => ?_, fun a b => ?_⟩
  · have changed : (s.chan i).state ≠ .hold := by rcases state with e | e <;> rw [e] <;> decide
    have settles := does_moveAndTell_plain (c := { (s.chan i).enter .hold s.clock with armedSpan := none }) changed rfl
    have answer := answerChannelHold_hold service state
    rw [enter_hold] at settles answer
    generalize (s.does _) = t at settles answer
    refine ⟨t, accepted_request rfl free rfl (answer.trans ?_), settles⟩
    unfold State.testReply
    rw [(moveAndTell_chan settles).1]
    rfl
  · have settles := leaveTest_settles (s := s) (i := i) (new := .tracking) (reason := .resume) (by rw [state]; decide)
    have answer := answerChannelResume_hold service state
    generalize (s.does _) = t at settles answer
    refine ⟨t, accepted_request rfl free rfl (answer.trans ?_), ?_⟩
    · unfold resumeAnswer State.testReply
      rw [(moveAndTell_chan settles).1, enter_tracking]
      rfl
    · rw [leaveHold_moved state, enter_tracking] at settles
      exact settles
  · have settles := leaveTest_settles (s := s) (i := i) (new := .recover) (reason := .resume) (by rw [state]; decide)
    have answer := answerChannelResume_bump service state
    generalize (s.does _) = t at settles answer
    refine ⟨t, accepted_request rfl free rfl (answer.trans ?_), ?_⟩
    · obtain ⟨chan, time⟩ := moveAndTell_chan settles
      have clock : t.clock = s.time.clock := congrArg Timebase.clock time
      unfold resumeAnswer State.testReply timerLeft
      rw [clock, chan, enter_recover, Option.map_some, secondsLeft_of (n := 600) (by simp [State.clock])]
      rfl
    · rw [leaveBump_moved state, enter_recover] at settles
      exact settles
  · exact declined_request (status := .wrongState) rfl free rfl (answerChannelHold_wrongState service a b)
  · exact declined_request (status := .wrongState) rfl free rfl (answerChannelResume_wrongState service a b)

end Sys2Proof.Machine
end

section
/-! The statements about ZERO, SPAN and BUMP (08_calibration_and_bump_testing.md), and about a channel's timers. -/

namespace Sys2Proof.Machine

/-- A channel that keeps its flags hands nothing over. -/
theorem does_putChannel_quiet {s : State} {i : Fin 16} {c : Channel} (noted : (s.chan i).noted = c.noted) :
    (s.does fun w => w.putChannel i c) = s.setChan i c := by
  rw [does_quiet, putChannel_st]
  · rfl
  · exact congrArg Work.out (if_pos noted)

/-! ## ZERO (R157) -/

section
variable {i : Fin 16} {s : State} (service : s.link.service.debounced = true)
include service

theorem answerZero_wrongState (notHold : (s.chan i).state ≠ .hold) (notDrift : (s.chan i).state ≠ .fault .drift) :
    answerZero (indexByte i) s = refuse s .wrongState := by
  unfold answerZero
  rw [testRequest_act service]
  have taken : (s.chan i).state.takesZero = false := by
    cases e : (s.chan i).state with
    | hold => exact absurd e notHold
    | fault cause =>
      cases cause with
      | drift => exact absurd e notDrift
      | loopOpen | loopOver | bumpFail | noRecovery => rfl
    | off | warmup | tracking | bump | recover => rfl
  dsimp only
  rw [taken]
  rfl

theorem answerZero_noMean (none : (s.chan i).windowCompleted = false) :
    answerZero (indexByte i) s = refuse s .wrongState := by
  unfold answerZero
  rw [testRequest_act service]
  unfold Channel.zeroMean
  dsimp only
  rw [none]
  exact ite_self _

variable {m : Int} (state : (s.chan i).state = .hold ∨ (s.chan i).state = .fault .drift)
  (completed : (s.chan i).windowCompleted = true) (mean : (s.chan i).lastMean = some m)
include state completed mean

theorem answerZero_mean : answerZero (indexByte i) s =
    if ((s.chan i).cfg.zeroBand : Int) < |m| then refuse s .outOfRange
    else accept (s.does fun w => w.zeroChannel i m)
      ((s.does fun w => w.zeroChannel i m).testReply i ++ signedBE 3 (256 * m) ++ signedBE 2 m) := by
  unfold answerZero
  rw [testRequest_act service]
  unfold Channel.zeroMean
  dsimp only
  rw [completed, mean]
  rcases state with e | e <;> rw [e] <;> rfl

theorem answerZero_outOfRange (out : ((s.chan i).cfg.zeroBand : Int) < |m|) :
    answerZero (indexByte i) s = refuse s .outOfRange := by
  rw [answerZero_mean service state completed mean, if_pos out]

theorem answerZero_accept (within : |m| ≤ ((s.chan i).cfg.zeroBand : Int)) : answerZero (indexByte i) s =
    accept (s.does fun w => w.zeroChannel i m)
      ((s.does fun w => w.zeroChannel i m).testReply i ++ signedBE 3 (256 * m) ++ signedBE 2 m) := by
  rw [answerZero_mean service state completed mean, if_neg (not_lt.2 within)]

end

theorem zeroChannel_hold {s : State} {i : Fin 16} (m : Int) (state : (s.chan i).state = .hold) :
    (s.does fun w => w.zeroChannel i m) = s.setChan i { s.chan i with baseline := 256 * m } := by
  rw [← does_putChannel_quiet (s := s) (i := i) (c := { s.chan i with baseline := 256 * m }) rfl]
  refine congrArg Work.finish ?_
  exact if_pos state

theorem zeroChannel_drift {s : State} {i : Fin 16} (m : Int) (state : (s.chan i).state = .fault .drift) :
    (s.does fun w => w.zeroChannel i m) =
      s.does fun w => w.moveAndTell i ({ s.chan i with baseline := 256 * m }.enter .hold s.clock) := by
  refine congrArg Work.finish ?_
  exact if_neg (by rw [show s.begin.st.chan i = s.chan i from rfl, state]; decide)

/-- Settles O20: ZERO by its answers, and what zeroing does in each of the two states. -/
theorem zeroSetsTheBaseline : Obligations.ZeroSetsTheBaseline := by
  intro tag i m s free service
  refine ⟨fun a b => ?_, fun none => ?_, fun completed mean => ⟨fun state out => ?_, fun state within => ?_, fun state within => ?_⟩⟩
  · exact declined_request (status := .wrongState) rfl free rfl (answerZero_wrongState service a b)
  · exact declined_request (status := .wrongState) rfl free rfl (answerZero_noMean service none)
  · exact declined_request (status := .outOfRange) rfl free rfl (answerZero_outOfRange service state completed mean out)
  · have answer := answerZero_accept service (.inl state) completed mean within
    rw [zeroChannel_hold m state] at answer
    refine accepted_request rfl free rfl (answer.trans ?_)
    unfold State.testReply
    rw [State.setChan_chan_same, state]
    rfl
  · have answer := answerZero_accept service (.inr state) completed mean within
    have settles := does_moveAndTell_plain (s := s) (i := i) (c := { s.chan i with baseline := 256 * m }.enter .hold s.clock)
      (by rw [state]; exact fun e => nomatch e) rfl
    rw [zeroChannel_drift m state] at answer
    rw [enter_hold] at settles answer
    generalize (s.does _) = t at settles answer
    refine ⟨t, accepted_request rfl free rfl (answer.trans ?_), settles⟩
    unfold State.testReply
    rw [(moveAndTell_chan settles).1]
    rfl

/-! ## SPAN and BUMP (R158, R161) -/

section
variable {i : Fin 16} {s : State} (service : s.link.service.debounced = true)
include service

theorem answerSpan_outOfRange {k : BitVec 16} (out : k.toNat < 100 ∨ 1000 < k.toNat) :
    answerSpan (indexByte i) k s = refuse s .outOfRange := by
  unfold answerSpan
  rw [testRequest_act service, show inRange 100 1000 k.toNat = none from if_neg (by omega)]

theorem answerSpan_inRange {k : BitVec 16} (low : 100 ≤ k.toNat) (high : k.toNat ≤ 1000) :
    answerSpan (indexByte i) k s =
      if (s.chan i).state = .hold then
        accept (s.setChan i { s.chan i with armedSpan := some k.toNat })
          ((s.setChan i { s.chan i with armedSpan := some k.toNat }).testReply i ++ bytesBE 2 k.toNat ++
            bytesBE 1 (s.chan i).windowCount)
      else refuse s .wrongState := by
  unfold answerSpan
  rw [testRequest_act service, inRange_eq_some.2 ⟨rfl, low, high⟩]

theorem answerBump_accept (takes : (s.chan i).state.takesBump = true) : answerBump (indexByte i) s =
    accept (s.does fun w => w.moveAndTell i ((s.chan i).enterBump s.clock))
      ((s.does fun w => w.moveAndTell i ((s.chan i).enterBump s.clock)).testReply i ++ bytesBE 2 (s.chan i).cfg.bumpTime ++
        bytesBE 2 (s.chan i).cfg.bumpLevel) := by
  unfold answerBump
  rw [testRequest_act service]
  exact if_pos takes

theorem answerBump_wrongState (notTracking : (s.chan i).state ≠ .tracking) (notFail : (s.chan i).state ≠ .fault .bumpFail) :
    answerBump (indexByte i) s = refuse s .wrongState := by
  unfold answerBump
  rw [testRequest_act service]
  refine if_neg ?_
  cases e : (s.chan i).state with
  | tracking => exact absurd e notTracking
  | fault cause =>
    cases cause with
    | bumpFail => exact absurd e notFail
    | loopOpen | loopOver | drift | noRecovery => exact Bool.false_ne_true
  | off | warmup | hold | bump | recover => exact Bool.false_ne_true

end

theorem enterBump_eq (c : Channel) (clock : Nat) : c.enterBump clock =
    { c with state := .bump, timer := none, bumpPeak := none, bumpTimer := startTimer clock (1000 * c.cfg.bumpTime) } := by
  unfold Channel.enterBump seconds
  rw [enter_bump, Nat.mul_comm]

/-- Settles O21: SPAN and BUMP by their answers. -/
theorem spanArmsAndBumpStarts : Obligations.SpanArmsAndBumpStarts := by
  intro tag i k s free service
  refine ⟨fun out => ?_, fun low high state => ?_, fun low high state => ?_, fun a b => ?_, fun state => ?_⟩
  · exact declined_request (status := .outOfRange) rfl free rfl (answerSpan_outOfRange service out)
  · exact declined_request (status := .wrongState) rfl free rfl
      ((answerSpan_inRange service low high).trans (if_neg state))
  · refine accepted_request rfl free rfl (((answerSpan_inRange service low high).trans (if_pos state)).trans ?_)
    unfold State.testReply
    rw [State.setChan_chan_same, state]
    rfl
  · exact declined_request (status := .wrongState) rfl free rfl (answerBump_wrongState service a b)
  · have takes : (s.chan i).state.takesBump = true := by rcases state with e | e <;> rw [e] <;> rfl
    have changed : (s.chan i).state ≠ .bump := by rcases state with e | e <;> rw [e] <;> exact fun e => nomatch e
    have settles := does_moveAndTell_plain (s := s) (i := i) (c := (s.chan i).enterBump s.clock) changed rfl
    have answer := answerBump_accept service takes
    rw [enterBump_eq] at settles answer
    generalize (s.does _) = t at settles answer
    refine ⟨t, accepted_request rfl free rfl (answer.trans ?_), settles⟩
    unfold State.testReply
    rw [(moveAndTell_chan settles).1]
    rfl

/-! ## The expiries of a channel's timers -/

theorem due_of_le {now t : Nat} {timer : Option Nat} (running : timer = some t) (le : t ≤ now) : due now timer = true := by
  rw [running]
  exact decide_eq_true le

/-- Settles O38: each expiry is a change of the channel's state, or stops its timer alone. -/
theorem channelTimersExpire : Obligations.ChannelTimersExpire := by
  intro i t s le
  refine ⟨fun state timer => ?_, fun state timer => ?_, fun state timer => ?_, fun state timer => ?_⟩
  · have expires : exec (.warmupExpiry i) s = .next (s.does fun w =>
        if (s.chan i).warmupWindow then w.moveAndTell i ((s.chan i).enter .tracking s.clock)
        else w.putChannel i { s.chan i with timer := none }) := if_pos ⟨state, due_of_le timer le⟩
    refine ⟨fun window => ?_, fun window => ?_⟩
    · have settles := does_moveAndTell_plain (s := s) (i := i) (c := (s.chan i).enter .tracking s.clock)
        (by rw [state]; exact fun e => nomatch e) rfl
      have moves : exec (.warmupExpiry i) s = .next (s.does fun w => w.moveAndTell i ((s.chan i).enter .tracking s.clock)) :=
        expires.trans (congrArg (fun w : Work => Host.Outcome.next w.finish) (if_pos window))
      rw [enter_tracking] at settles moves
      exact ⟨_, moves, settles⟩
    · refine (expires.trans (congrArg (fun w : Work => Host.Outcome.next w.finish) (if_neg (Bool.eq_false_iff.1 window)))).trans ?_
      exact congrArg _ (does_putChannel_quiet rfl)
  · have settles := leaveTest_settles (s := s) (i := i) (new := .tracking) (reason := .resume)
      (by rw [state]; exact fun e => nomatch e)
    rw [leaveHold_moved state, enter_tracking] at settles
    exact ⟨_, if_pos ⟨state, due_of_le timer le⟩, settles⟩
  · have settles := does_moveAndTell_plain (s := s) (i := i) (c := (s.chan i).enter (.fault .noRecovery) s.clock)
      (by rw [state]; exact fun e => nomatch e) rfl
    have expires : exec (.recoverLimitExpiry i) s =
        .next (s.does fun w => w.moveAndTell i ((s.chan i).enter (.fault .noRecovery) s.clock)) :=
      if_pos ⟨state, due_of_le timer le⟩
    rw [enter_fault] at settles expires
    exact ⟨_, expires, settles⟩
  · have settles := does_moveAndTell (s := s) (i := i) (c := (s.chan i).endTest.enter (.fault .bumpFail) s.clock)
      [.testResult i (.bumpFail (s.chan i).bumpPeak)] (by rw [state]; exact fun e => nomatch e) rfl
    have expires : exec (.bumpTimerExpiry i) s = .next (s.does fun w =>
        (w.noticeAll [.testResult i (.bumpFail (s.chan i).bumpPeak)]).moveAndTell i
          ((s.chan i).endTest.enter (.fault .bumpFail) s.clock)) := if_pos ⟨state, due_of_le timer le⟩
    rw [enter_fault] at settles expires
    exact ⟨_, expires, settles⟩

end Sys2Proof.Machine
end

section
/-! The statement about MASK (07_alarm_table_regime_and_room_outputs.md, 7.4). -/

namespace Sys2Proof.Machine

/-! ## The list of classes (R135) -/

theorem readCode_code (c : AlarmClass) : readCode alarmClasses c.code = some c := by
  cases c <;> rfl

theorem mapM_readCode_map (cs : List AlarmClass) : (cs.map AlarmClass.code).mapM (readCode alarmClasses) = some cs := by
  induction cs with
  | nil => rfl
  | cons c cs ih => rw [List.map_cons, List.mapM_cons, readCode_code, ih]; rfl

theorem exists_code {b : Byte} (h : b.toNat < 9) : ∃ c : AlarmClass, c.code = b := by
  have e : alarmClasses[b.toNat].code.toNat = b.toNat := by
    generalize b.toNat = n at h
    interval_cases n <;> rfl
  exact ⟨_, BitVec.eq_of_toNat_eq e⟩

theorem exists_map_code {bs : List Byte} (h : ∀ b ∈ bs, b.toNat < 9) : ∃ cs : List AlarmClass, bs = cs.map AlarmClass.code := by
  induction bs with
  | nil => exact ⟨[], rfl⟩
  | cons b bs ih =>
    obtain ⟨c, hc⟩ := exists_code (h b List.mem_cons_self)
    obtain ⟨cs, hcs⟩ := ih fun x mem => h x (List.mem_cons_of_mem _ mem)
    exact ⟨c :: cs, by rw [List.map_cons, hc, hcs]⟩

theorem latching_of_code {c : AlarmClass} (notChannel : c.code ≠ 4) (notFlow : c.code ≠ 8) : c.latching = true := by
  cases c with
  | channelNote => exact absurd rfl notChannel
  | flowNote => exact absurd rfl notFlow
  | gas | blind | shortfall | channelFault | spill | probeFault | fanFail => rfl

theorem answerMask_outOfRange {b : Byte} {bs : List Byte} (mem : b ∈ bs) (h : 9 ≤ b.toNat) (s : State) :
    answerMask bs s = refuse s .outOfRange := by
  unfold answerMask
  rw [mapM_eq_none mem (List.getElem?_eq_none h)]

theorem answerMask_notPermitted {b : Byte} {bs : List Byte} (codes : ∀ b ∈ bs, b.toNat < 9) (mem : b ∈ bs) (ne : b ≠ 4 ∧ b ≠ 8)
    (s : State) : answerMask bs s = refuse s .notPermitted := by
  obtain ⟨cs, rfl⟩ := exists_map_code codes
  obtain ⟨c, hc, rfl⟩ := List.mem_map.1 mem
  unfold answerMask
  rw [mapM_readCode_map]
  exact if_pos (List.any_eq_true.2 ⟨c, hc, latching_of_code ne.1 ne.2⟩)

/-- The classes that may be masked, as the statement names them. -/
def maskable (channelNote flowNote : Bool) : List AlarmClass :=
  (if channelNote then [.channelNote] else []) ++ if flowNote then [.flowNote] else []

theorem answerMask_maskable (x y : Bool) (s : State) :
    answerMask ((if x then [4] else []) ++ if y then [8] else []) s =
      (let after := s.does fun w => (w.map fun s => s.setAlarm (s.alarm.setMask x y s.room)).alarmPass
        (decide ((s.alarm.setMask x y s.room).records ≠ s.alarm.records)) (createdNotices s.alarm (s.alarm.setMask x y s.room))
      accept after after.alarm.maskBytes) := by
  have codes : ((if x then [4] else []) ++ if y then [8] else []) = (maskable x y).map AlarmClass.code := by
    cases x <;> cases y <;> rfl
  have latch : (maskable x y).any AlarmClass.latching = false := by cases x <;> cases y <;> rfl
  have channel : (maskable x y).contains .channelNote = x := by cases x <;> cases y <;> rfl
  have flow : (maskable x y).contains .flowNote = y := by cases x <;> cases y <;> rfl
  unfold answerMask
  rw [codes, mapM_readCode_map]
  dsimp only
  rw [latch, channel, flow]
  rfl

theorem maskBytes_eq (a : Alarm) : a.maskBytes =
    listBE ((if a.maskChannelNote then [[4]] else []) ++ if a.maskFlowNote then [[8]] else []) := by
  unfold Alarm.maskBytes
  refine congrArg listBE ?_
  simp only [alarmClasses, List.filter, Alarm.masks]
  cases a.maskChannelNote <;> cases a.maskFlowNote <;> rfl

/-! ## The records under a new mask set (R136) -/

section
variable (a : Alarm) (x y : Bool) (room : Nat)

theorem setMask_sameButRecords : SameButRecords a (a.setMask x y room) := by simp only [SameButRecords, Alarm.setMask]

theorem setMask_record_latching {k : Fin 82} (h : (classOf k).latching = true) :
    (a.setMask x y room).record k = a.record k := by
  have unmasked : ∀ b : Alarm, b.masks (classOf k) = false := by
    intro b
    cases e : classOf k <;> rw [e] at h <;> first | rfl | exact (nomatch h)
  rw [setMask_record, unmasked, unmasked]
  rfl

theorem setMask_anyRecord {n : Nat} {key : Fin n → Fin 82} (h : ∀ i, (classOf (key i)).latching = true) (test : Record → Bool) :
    (a.setMask x y room).anyRecord key test = a.anyRecord key test := by
  unfold Alarm.anyRecord
  simp only [setMask_record_latching a x y room (h _)]

theorem setMask_permit (armed : Bool) : permitOf (a.setMask x y room) armed = permitOf a armed := by
  have paused : (a.setMask x y room).paused = a.paused := by simp only [Alarm.setMask]
  unfold permitOf
  simp only [setMask_anyRecord a x y room (key := keyGas) (by decide),
    setMask_anyRecord a x y room (key := keyBlind) (by decide), setMask_anyRecord a x y room (key := keyShortfall) (by decide),
    setMask_anyRecord a x y room (key := keySpill) (by decide), paused]

variable {a} (law : TableLaw a)
include law

/-- The records that a new mask set leaves, by whether the class was masked and is. -/
theorem setMask_record_eq (k : Fin 82) : (a.setMask x y room).record k =
    if (a.setMask x y room).masks (classOf k) then none
    else if a.masks (classOf k) then
      (if (a.image k).active then some (Record.created (classOf k) room (a.image k)) else none)
    else a.record k := by
  have before := law k
  rw [setMask_record]
  cases was : a.masks (classOf k) <;> cases now : (a.setMask x y room).masks (classOf k) <;>
    simp only [was, if_true, if_false, Bool.false_eq_true, recordAtMasking] at before ⊢
  · rw [before]
    rfl
  · exact before

end

theorem masked_valueless {a : Alarm} {c : AlarmClass} (h : a.masks c = true) (v : Option Nat) : valueAtRise c none v = none := by
  cases c with
  | channelNote | flowNote => rfl
  | gas | blind | shortfall | channelFault | spill | probeFault | fanFail => exact (nomatch h)

/-! ## The notices (R139) -/

theorem flatten_map_if {α β : Type} (test : α → Bool) (f : α → β) (xs : List α) :
    (xs.map fun x => if test x then [f x] else []).flatten = (xs.filter test).map f := by
  induction xs with
  | nil => rfl
  | cons x xs ih =>
    rw [List.map_cons, List.flatten_cons, ih, List.filter_cons]
    split <;> rfl

theorem createdNotices_setMask {a : Alarm} (law : TableLaw a) (x y : Bool) (room : Nat) :
    createdNotices a (a.setMask x y room) =
      ((List.finRange 82).filter fun k => (a.record k).isNone && ((a.setMask x y room).record k).isSome).map fun k =>
        .alarmChange k (some (.activeUnack, (a.image k).severity)) := by
  rw [← flatten_map_if]
  unfold createdNotices
  refine congrArg List.flatten (List.map_congr_left fun k _ => ?_)
  have record := setMask_record_eq x y room law k
  cases before : a.record k with
  | some r => cases (a.setMask x y room).record k <;> rfl
  | none =>
    cases after : (a.setMask x y room).record k with
    | none => rfl
    | some r =>
      rw [after, before] at record
      have created : r = Record.created (classOf k) room (a.image k) := by
        split at record
        · cases record
        · split at record
          · split at record
            · exact Option.some.inj record
            · cases record
          · cases record
      rw [created]
      rfl

/-- What the alarm unit is once it has a new mask set. -/
structure Masked (a : Alarm) (x y : Bool) (room : Nat) (b : Alarm) : Prop where
  same : SameButRecords a b
  rest : b = { a with maskChannelNote := x, maskFlowNote := y, records := b.records }
  permit : ∀ armed, permitOf b armed = permitOf a armed
  record : ∀ k, b.record k =
    if b.masks (classOf k) then none
    else if a.masks (classOf k) then
      (if (a.image k).active then some (Record.created (classOf k) room (a.image k)) else none)
    else a.record k
  created : createdNotices a b =
    ((List.finRange 82).filter fun k => (a.record k).isNone && (b.record k).isSome).map fun k =>
      .alarmChange k (some (.activeUnack, (a.image k).severity))

theorem setMask_masked {a : Alarm} (law : TableLaw a) (x y : Bool) (room : Nat) : Masked a x y room (a.setMask x y room) :=
  ⟨setMask_sameButRecords a x y room, by simp only [Alarm.setMask], setMask_permit a x y room, setMask_record_eq x y room law,
    createdNotices_setMask law x y room⟩

theorem answerMask_accept {s : State} (x y : Bool) (law : DerivedLaw s) (table : TableLaw s.alarm) :
    ∃ b, Masked s.alarm x y s.room b ∧ answerMask ((if x then [4] else []) ++ if y then [8] else []) s =
      accept (s.passed b (decide (b.records ≠ s.alarm.records)) (createdNotices s.alarm b))
        (listBE ((if x then [[4]] else []) ++ if y then [[8]] else [])) := by
  have masked := setMask_masked table x y s.room
  have did := does_alarmPass (s := s) (g := fun s => s.alarm.setMask x y s.room)
    (decide ((s.alarm.setMask x y s.room).records ≠ s.alarm.records)) (createdNotices s.alarm (s.alarm.setMask x y s.room))
    (by rw [masked.same.regimeOf, ← law.regime, masked.rest])
  refine ⟨_, masked, ?_⟩
  rw [answerMask_maskable]
  dsimp only
  rw [did]
  generalize s.alarm.setMask x y s.room = b at masked
  rw [maskBytes_eq]
  have channel : b.maskChannelNote = x := by rw [masked.rest]
  have flow : b.maskFlowNote = y := by rw [masked.rest]
  rw [← channel, ← flow]
  rfl

theorem records_eq_iff {a b : Alarm} : b.records = a.records ↔ ∀ k, b.record k = a.record k :=
  ⟨fun e k => congrArg (fun v => vget v k) e, vec_ext⟩

/-- Settles O12: the pass after a new mask set leaves the regime and the permit, for no image and no record of a latching class
moves. -/
theorem maskReplacesTheMaskSet : Obligations.MaskReplacesTheMaskSet := by
  refine ⟨fun tag x y s free law table => ?_, fun tag bs s free => ⟨fun ⟨b, mem, h⟩ => ?_, fun codes ⟨b, mem, ne⟩ => ?_⟩⟩
  · obtain ⟨b, masked, answer⟩ := answerMask_accept x y law table
    have permit : permitOf b s.setup.armed = b.permit := by
      rw [masked.permit, ← law.permit, masked.rest]
    refine ⟨_, accepted_request (c := .mask tag _) rfl free rfl answer, ?_, ?_, ?_, fun k => ?_⟩
    · rw [State.passed_rest masked.same]
      have channel : b.maskChannelNote = x := by rw [masked.rest]
      have flow : b.maskFlowNote = y := by rw [masked.rest]
      have kept : b.permit = s.alarm.permit := by rw [masked.rest]
      have after : (s.passed b (decide (b.records ≠ s.alarm.records)) (createdNotices s.alarm b)).alarm.permit =
          s.alarm.permit := permit.trans kept
      rw [after, channel, flow]
    · change (if decide (b.records ≠ s.alarm.records) = true then b.version + 1 else b.version) = _
      have version : b.version = s.alarm.version := by rw [masked.rest]
      have same : (∀ k, b.record k = s.alarm.record k) ↔ b.records = s.alarm.records := records_eq_iff.symm
      rw [version]
      change _ = s.alarm.version + if ∀ k, b.record k = s.alarm.record k then 0 else 1
      simp only [same, decide_eq_true_eq]
      split <;> simp_all
    · change List.foldl _ _ (createdNotices s.alarm b ++ permitNotices b.permit (permitOf b s.setup.armed)) = _
      rw [permit, permitNotices, if_pos rfl, List.append_nil, masked.created, List.foldl_map]
      rfl
    · refine (masked.record k).trans ?_
      change (if b.masks (classOf k) then _ else _) = if b.masks (classOf k) then _ else _
      split
      · rfl
      · split
        next was => unfold Record.created; rw [masked_valueless was]; rfl
        next => rfl
  · exact declined_request (status := .outOfRange) rfl free rfl (answerMask_outOfRange mem h s)
  · exact declined_request (status := .notPermitted) rfl free rfl (answerMask_notPermitted codes mem ne s)

end Sys2Proof.Machine
end

section
/-! The statements about SCHEDULE (09_time_and_schedules.md, 9.3) and the SET requests (10_configuration_and_arming.md, 10.4). -/

namespace Sys2Proof.Machine

/-! ## Members and used zones (R43) -/

theorem mem_members {s : State} {i : Fin 16} {z : Fin 6} :
    i ∈ s.members z ↔ (s.chan i).cfg.enabled = true ∧ (s.chan i).cfg.zone = some z := by
  unfold State.members
  simp [memberOf_eq_some]

theorem used_iff {s : State} {z : Fin 6} : s.used z = true ↔ InUse s z := by
  unfold State.used InUse
  simp only [Bool.not_eq_true', List.isEmpty_eq_false_iff_exists_mem, mem_members]

theorem namesPresent_iff {s : State} {a : Action} : s.namesPresent a = true ↔ TargetPresent s a := by
  cases a with
  | rotate z => exact used_iff
  | start i d => exact Iff.rfl
  | exercise i => exact Iff.rfl
  | mark t => exact iff_of_true rfl trivial

/-! ## The slot that SCHEDULE takes (R173) -/

theorem clampInterval_eq (n : Nat) :
    clampInterval n = if n = 0 then 0 else if n < 60 then 60 else if 604800 < n then 604800 else n := by
  unfold clampInterval
  split
  · rfl
  · split
    · omega
    · split <;> omega

theorem clampInterval_ne_zero {n : Nat} (h : n ≠ 0) : clampInterval n ≠ 0 := by
  unfold clampInterval
  rw [if_neg h]
  omega

theorem clampInterval_ne_iff {n : Nat} : clampInterval n ≠ n ↔ (0 < n ∧ n < 60) ∨ 604800 < n := by
  rw [clampInterval_eq]
  split
  · omega
  · split
    · omega
    · split <;> omega

theorem clamped_code (f : ScheduleFields) : ({ clamped := ScheduleFields.clamped f } : Marks).code =
    if (f.action = 1 ∧ 86400 < f.duration.toNat) ∨ (0 < f.interval.toNat ∧ f.interval.toNat < 60) ∨ 604800 < f.interval.toNat
    then 1 else 0 := by
  have iff : ScheduleFields.clamped f = true ↔
      (f.action = 1 ∧ 86400 < f.duration.toNat) ∨ (0 < f.interval.toNat ∧ f.interval.toNat < 60) ∨ 604800 < f.interval.toNat := by
    unfold ScheduleFields.clamped longestRun
    rw [Bool.or_eq_true, Bool.and_eq_true, decide_eq_true_eq, decide_eq_true_eq, decide_eq_true_eq, clampInterval_ne_iff]
  split
  next h => rw [iff.2 h]; rfl
  next h => rw [Bool.eq_false_iff.2 (mt iff.1 h)]; rfl

/-- The occurrence that lies after room time by one interval at most is the next one. -/
theorem nextOccurrence_eq {anchor interval room fire : Nat} (passed : anchor ≤ room) (later : room < fire)
    (occurs : ∃ n : Nat, fire = anchor + n * (1000 * interval)) (first : fire ≤ room + 1000 * interval) :
    nextOccurrence anchor interval room = fire := by
  obtain ⟨n, rfl⟩ := occurs
  unfold nextOccurrence seconds
  rw [if_neg (not_lt.2 passed), Nat.mul_comm interval 1000]
  generalize 1000 * interval = p at *
  cases n with
  | zero => simp at later; omega
  | succ n =>
    have quotient : (room - anchor) / p = n := by
      rw [Nat.succ_mul] at later first
      exact Nat.div_eq_of_lt_le (by omega) (by rw [Nat.succ_mul]; omega)
    rw [quotient]

/-- SCHEDULE that has what its action names and a FREE slot. -/
theorem answerSchedule_slot {f : ScheduleFields} {action : Action} {s : State} {k : Fin 8} (gives : ScheduleGives f action)
    (target : TargetPresent s action) (free : s.freeSlot = some k) {r : Slot}
    (given : slotGiven f.fire.toNat (clampInterval f.interval.toNat) s.room action = r) :
    answerSchedule f s = { st := s.setSlot k (some r), status := .ok, marks := { clamped := ScheduleFields.clamped f }
                           body := [indexByte k, slotStateCode (some r)] ++ optionalBE 6 (if r.stale then none else some r.fire) } := by
  subst given
  unfold answerSchedule
  rw [ScheduleFields_readAction_eq_some.2 gives, free]
  dsimp only
  rw [namesPresent_iff.2 target]
  rfl

theorem answerSchedule_notPresent {f : ScheduleFields} {action : Action} {s : State} (gives : ScheduleGives f action)
    (target : ¬TargetPresent s action) : answerSchedule f s = refuse s .notPresent := by
  unfold answerSchedule
  rw [ScheduleFields_readAction_eq_some.2 gives]
  dsimp only
  rw [Bool.eq_false_iff.2 (mt namesPresent_iff.1 target)]
  rfl

theorem answerSchedule_tableFull {f : ScheduleFields} {action : Action} {s : State} (gives : ScheduleGives f action)
    (target : TargetPresent s action) (full : ∀ k, (s.slot k).isSome = true) : answerSchedule f s = refuse s .tableFull := by
  have none : s.freeSlot = none := Option.eq_none_iff_forall_ne_some.2 fun k h => by
    have slot := (freeSlot_eq_some.1 h).1
    have := full k
    rw [slot] at this
    cases this
  unfold answerSchedule
  rw [ScheduleFields_readAction_eq_some.2 gives, none]
  dsimp only
  rw [namesPresent_iff.2 target]
  rfl

theorem slotGiven_ahead {fire interval room : Nat} (h : room < fire) (action : Action) : slotGiven fire interval room action =
    { stale := false, anchor := fire, fire := fire, action := action, interval := interval } := if_pos h

theorem slotGiven_stale {fire room : Nat} (h : fire ≤ room) (action : Action) : slotGiven fire 0 room action =
    { stale := true, anchor := fire, fire := (Config.staleFireTime fire 0).toNat, action := action, interval := 0 } := by
  unfold slotGiven
  rw [if_neg (not_lt.2 h)]
  rfl

theorem slotGiven_repeats {given interval room fire : Nat} (passed : given ≤ room) (repeats : interval ≠ 0)
    (next : nextOccurrence given interval room = fire) (action : Action) : slotGiven given interval room action =
      if lastRoomTime < fire then
        { stale := true, anchor := given, fire := (Config.staleFireTime given interval).toNat, action := action, interval := interval }
      else { stale := false, anchor := given, fire := fire, action := action, interval := interval } := by
  unfold slotGiven
  rw [if_neg (not_lt.2 passed), if_neg repeats, next]
  rfl

/-- SCHEDULE accepted with the slot `r`. -/
theorem accepted_schedule {tag : Byte} {f : ScheduleFields} {s : State} {k : Fin 8} {r : Slot} (free : s.link.outstanding = none)
    (answer : answerSchedule f s = { st := s.setSlot k (some r), status := .ok, marks := { clamped := ScheduleFields.clamped f }
                                     body := [indexByte k, slotStateCode (some r)] ++
                                       optionalBE 6 (if r.stale then none else some r.fire) }) :
    Accepted (.schedule tag f) s (s.setSlot k (some r)) 0xC2 tag
      (if (f.action = 1 ∧ 86400 < f.duration.toNat) ∨ (0 < f.interval.toNat ∧ f.interval.toNat < 60) ∨ 604800 < f.interval.toNat
        then 1 else 0)
      ([indexByte k, slotStateCode (some r)] ++ optionalBE 6 (if r.stale then none else some r.fire)) :=
  accepted_of (exec_request (c := .schedule tag f) rfl s) free (congrArg Answer.st answer) rfl (congrArg Answer.status answer)
    ((congrArg (fun a => a.marks.code) answer).trans (clamped_code f)) (congrArg Answer.body answer)

/-- Settles O24: SCHEDULE by its answer, and the slot by where its fire time lies. -/
theorem scheduleTakesTheLowestFreeSlot : Obligations.ScheduleTakesTheLowestFreeSlot := by
  refine ⟨fun tag f s free none => ?_, fun tag f action s free gives => ⟨fun target => ?_, fun target full => ?_,
    fun target k slot below => ?_⟩⟩
  · refine declined_request (status := .outOfRange) rfl free rfl (answerSchedule_outOfRange ?_)
    exact Option.eq_none_iff_forall_ne_some.2 fun a h => none a (ScheduleFields_readAction_eq_some.1 h)
  · exact declined_request (status := .notPresent) rfl free rfl (answerSchedule_notPresent gives target)
  · exact declined_request (status := .tableFull) rfl free rfl (answerSchedule_tableFull gives target full)
  · have taken : ∀ {r : Slot}, slotGiven f.fire.toNat (clampInterval f.interval.toNat) s.time.room action = r → _ :=
      fun given => accepted_schedule (tag := tag) free (answerSchedule_slot gives target (freeSlot_eq_some.2 ⟨slot, below⟩) given)
    rw [← clampInterval_eq f.interval.toNat]
    refine ⟨fun ahead => ?_, fun passed once => ?_, fun passed repeats fire later occurs first => ⟨fun small => ?_, fun big => ?_⟩⟩
    · exact taken (slotGiven_ahead ahead action)
    · rw [once] at taken ⊢
      exact ⟨_, taken (slotGiven_stale passed action)⟩
    · have given := slotGiven_repeats passed (clampInterval_ne_zero repeats) (nextOccurrence_eq passed later occurs first) action
      rw [if_neg (by unfold lastRoomTime; omega)] at given
      exact taken given
    · have given := slotGiven_repeats passed (clampInterval_ne_zero repeats) (nextOccurrence_eq passed later occurs first) action
      rw [if_pos (by unfold lastRoomTime; omega)] at given
      exact ⟨_, taken given⟩

end Sys2Proof.Machine
end

section
/-! The statement about the SET requests (10_configuration_and_arming.md, 10.4). -/

namespace Sys2Proof.Machine

section
variable {s : State} (service : s.link.service.debounced = true)
include service

/-! ## Fields that name a record -/

theorem answerSetChannel_read {i : Fin 16} {f : ChannelFields} {cfg : ChannelCfg} (gives : ChannelGives f cfg) :
    answerSetChannel (indexByte i) f s =
      if s.setup.armed then refuse s .wrongState
      else if s.zoneFull i cfg then refuse s .tableFull
      else accept (s.setChan i { s.chan i with cfg := cfg }) (indexByte i :: cfg.bytes) := by
  unfold answerSetChannel State.serviceActive
  rw [service, readIndex_indexByte (by decide), ChannelFields_read_eq_some.2 gives]
  rfl

theorem answerSetProfile_read {p : Fin 4} {v : Vector (BitVec 16) 10} {new : Profile} (gives : ProfileGives v new) :
    answerSetProfile (indexByte p) v s =
      if s.setup.armed && !(s.lockHolders p).isEmpty then
        refuse s .inUse (listBE ((s.lockHolders p).map fun i => [indexByte i]))
      else accept (s.setProfile p new) [indexByte p] := by
  unfold answerSetProfile State.serviceActive
  rw [service, readIndex_indexByte (by decide), readProfile_eq_some.2 gives]
  rfl

theorem answerSetZone_read {z : Fin 6} {f : ZoneFields} {cfg : ZoneCfg} (gives : ZoneRecordGives f cfg) :
    answerSetZone (indexByte z) f s =
      if s.setup.armed then refuse s .wrongState
      else accept (s.setZone z { s.zone z with cfg := cfg }) (indexByte z :: cfg.bytes) := by
  unfold answerSetZone State.serviceActive
  rw [service, readIndex_indexByte (by decide), ZoneFields_read_eq_some.2 gives]
  rfl

theorem answerSetFan_read {i : Fin 8} {f : FanFields} {cfg : FanCfg} (gives : FanGives f cfg) :
    answerSetFan (indexByte i) f s =
      if s.setup.armed then refuse s .wrongState
      else accept (s.setFan i { s.fan i with cfg := cfg }) (indexByte i :: cfg.bytes) := by
  unfold answerSetFan State.serviceActive
  rw [service, readIndex_indexByte (by decide), FanFields_read_eq_some.2 gives]
  rfl

theorem answerSetProbe_read {p : Fin 8} {f : ProbeFields} {cfg : ProbeCfg} (gives : ProbeGives f cfg) :
    answerSetProbe (indexByte p) f s =
      if s.setup.armed then refuse s .wrongState
      else accept (s.setProbe p { s.probe p with cfg := cfg }) (indexByte p :: cfg.bytes) := by
  unfold answerSetProbe State.serviceActive
  rw [service, readIndex_indexByte (by decide), ProbeFields_read_eq_some.2 gives]
  rfl

theorem answerSetArbiter_read {f : ArbiterFields} {k w g : Nat} (gives : ArbiterGives f k w g) :
    answerSetArbiter f s =
      if s.setup.armed then refuse s .wrongState
      else accept (s.setArb { s.arb with k := k, w := w, g := g }) (bytesBE 1 k ++ bytesBE 2 w ++ bytesBE 1 g) := by
  unfold answerSetArbiter State.serviceActive
  rw [service, ArbiterFields_read_eq_some.2 gives]
  rfl

/-! ## Fields that name none, and numbers beyond their table -/

variable {n : Byte}

theorem answerSetChannel_unread {f : ChannelFields} (h : 16 ≤ n.toNat ∨ ∀ cfg, ¬ChannelGives f cfg) :
    answerSetChannel n f s = refuse s .outOfRange := by
  unfold answerSetChannel State.serviceActive
  rw [service]
  rcases h with far | none
  · rw [readIndex_none far]
    rfl
  · rw [Option.eq_none_iff_forall_ne_some.2 fun cfg e => none cfg (ChannelFields_read_eq_some.1 e)]
    cases readIndex 16 n <;> rfl

theorem answerSetProfile_unread {v : Vector (BitVec 16) 10} (h : 4 ≤ n.toNat ∨ ∀ new, ¬ProfileGives v new) :
    answerSetProfile n v s = refuse s .outOfRange := by
  unfold answerSetProfile State.serviceActive
  rw [service]
  rcases h with far | none
  · rw [readIndex_none far]
    rfl
  · rw [Option.eq_none_iff_forall_ne_some.2 fun new e => none new (readProfile_eq_some.1 e)]
    cases readIndex 4 n <;> rfl

theorem answerSetZone_unread {f : ZoneFields} (h : 6 ≤ n.toNat ∨ ∀ cfg, ¬ZoneRecordGives f cfg) :
    answerSetZone n f s = refuse s .outOfRange := by
  unfold answerSetZone State.serviceActive
  rw [service]
  rcases h with far | none
  · rw [readIndex_none far]
    rfl
  · rw [Option.eq_none_iff_forall_ne_some.2 fun cfg e => none cfg (ZoneFields_read_eq_some.1 e)]
    cases readIndex 6 n <;> rfl

theorem answerSetFan_unread {f : FanFields} (h : 8 ≤ n.toNat ∨ ∀ cfg, ¬FanGives f cfg) :
    answerSetFan n f s = refuse s .outOfRange := by
  unfold answerSetFan State.serviceActive
  rw [service]
  rcases h with far | none
  · rw [readIndex_none far]
    rfl
  · rw [Option.eq_none_iff_forall_ne_some.2 fun cfg e => none cfg (FanFields_read_eq_some.1 e)]
    cases readIndex 8 n <;> rfl

theorem answerSetProbe_unread {f : ProbeFields} (h : 8 ≤ n.toNat ∨ ∀ cfg, ¬ProbeGives f cfg) :
    answerSetProbe n f s = refuse s .outOfRange := by
  unfold answerSetProbe State.serviceActive
  rw [service]
  rcases h with far | none
  · rw [readIndex_none far]
    rfl
  · rw [Option.eq_none_iff_forall_ne_some.2 fun cfg e => none cfg (ProbeFields_read_eq_some.1 e)]
    cases readIndex 8 n <;> rfl

theorem answerSetArbiter_unread {f : ArbiterFields} (none : ∀ k w g, ¬ArbiterGives f k w g) :
    answerSetArbiter f s = refuse s .outOfRange := by
  have unread : ArbiterFields.read f = .none :=
    Option.eq_none_iff_forall_ne_some.2 fun r e => none r.1 r.2.1 r.2.2 (ArbiterFields_read_eq_some.1 e)
  unfold answerSetArbiter State.serviceActive
  rw [service, unread]
  rfl

end

/-! ## The membership test and the profile lock -/

theorem zoneFull_iff {s : State} {i : Fin 16} {cfg : ChannelCfg} : s.zoneFull i cfg = true ↔
    cfg.enabled = true ∧ ∃ z, cfg.zone = some z ∧ 4 ≤ ((List.finRange 16).filter fun j =>
      decide (j ≠ i) && (s.chan j).cfg.enabled && decide ((s.chan j).cfg.zone = some z)).length := by
  have others : ∀ z, s.otherMembers i z = ((List.finRange 16).filter fun j =>
      decide (j ≠ i) && (s.chan j).cfg.enabled && decide ((s.chan j).cfg.zone = some z)).length := by
    intro z
    unfold State.otherMembers State.members
    rw [List.filter_filter]
    refine congrArg List.length (List.filter_congr fun j _ => ?_)
    rw [Bool.and_assoc, decide_eq_decide.2 memberOf_eq_some, Bool.decide_and, Bool.decide_eq_true]
  unfold State.zoneFull
  cases zone : cfg.zone with
  | none => exact iff_of_false Bool.false_ne_true fun ⟨_, z, e, _⟩ => nomatch e
  | some z =>
    rw [Bool.and_eq_true, decide_eq_true_eq, others z]
    simp

theorem locksProfile_iff {c : ChannelState} : c.locksProfile = true ↔ c ∈ [ChannelState.warmup, .tracking, .bump, .recover] := by
  cases c <;> simp [ChannelState.locksProfile]

theorem lockHolders_eq (s : State) (p : Fin 4) : s.lockHolders p = (List.finRange 16).filter fun i =>
    decide ((s.chan i).cfg.profile = p) && decide ((s.chan i).state ∈ [ChannelState.warmup, .tracking, .bump, .recover]) := by
  unfold State.lockHolders
  refine List.filter_congr fun i _ => ?_
  rw [Bool.eq_iff_iff.2 (locksProfile_iff.trans decide_eq_true_iff.symm)]

/-- Settles O26: the answer of each SET request by its fields, the part state and its own test. -/
theorem setRequestsReplaceOneRecord : Obligations.SetRequestsReplaceOneRecord := by
  refine ⟨fun tag s free service unarmed => ?_, fun tag n s free service => ?_, fun tag s free service armed => ?_⟩
  · have open_ : ¬s.setup.armed = true := Bool.eq_false_iff.1 unarmed
    refine ⟨fun i f cfg gives => ⟨fun notFull => ?_, fun full => ?_⟩, fun p v new gives => ?_, fun z f cfg gives => ?_,
      fun i f cfg gives => ?_, fun p f cfg gives => ?_, fun f k w g gives => ?_⟩
    · refine accepted_request rfl free rfl (((answerSetChannel_read service gives).trans (if_neg open_)).trans (if_neg ?_))
      exact mt zoneFull_iff.1 notFull
    · refine declined_request (status := .tableFull) rfl free rfl
        (((answerSetChannel_read service gives).trans (if_neg open_)).trans (if_pos ?_))
      exact zoneFull_iff.2 full
    · refine accepted_request rfl free rfl ((answerSetProfile_read service gives).trans ?_)
      rw [unarmed]
      rfl
    · exact accepted_request rfl free rfl ((answerSetZone_read service gives).trans (if_neg open_))
    · exact accepted_request rfl free rfl ((answerSetFan_read service gives).trans (if_neg open_))
    · exact accepted_request rfl free rfl ((answerSetProbe_read service gives).trans (if_neg open_))
    · exact accepted_request rfl free rfl ((answerSetArbiter_read service gives).trans (if_neg open_))
  · exact ⟨fun f h => declined_request (status := .outOfRange) rfl free rfl (answerSetChannel_unread service h),
      fun v h => declined_request (status := .outOfRange) rfl free rfl (answerSetProfile_unread service h),
      fun f h => declined_request (status := .outOfRange) rfl free rfl (answerSetZone_unread service h),
      fun f h => declined_request (status := .outOfRange) rfl free rfl (answerSetFan_unread service h),
      fun f h => declined_request (status := .outOfRange) rfl free rfl (answerSetProbe_unread service h),
      fun f h => declined_request (status := .outOfRange) rfl free rfl (answerSetArbiter_unread service h)⟩
  · refine ⟨fun i f cfg gives => ?_, fun z f cfg gives => ?_, fun i f cfg gives => ?_, fun p f cfg gives => ?_,
      fun f k w g gives => ?_, fun p v new gives => ?_⟩
    · exact declined_request (status := .wrongState) rfl free rfl ((answerSetChannel_read service gives).trans (if_pos armed))
    · exact declined_request (status := .wrongState) rfl free rfl ((answerSetZone_read service gives).trans (if_pos armed))
    · exact declined_request (status := .wrongState) rfl free rfl ((answerSetFan_read service gives).trans (if_pos armed))
    · exact declined_request (status := .wrongState) rfl free rfl ((answerSetProbe_read service gives).trans (if_pos armed))
    · exact declined_request (status := .wrongState) rfl free rfl ((answerSetArbiter_read service gives).trans (if_pos armed))
    · have answer := answerSetProfile_read service (p := p) gives
      rw [armed, Bool.true_and] at answer
      rw [← lockHolders_eq s p]
      refine ⟨fun none => ?_, fun some => ?_⟩
      · exact accepted_request rfl free rfl (answer.trans (if_neg (by simp [none])))
      · exact declined_request (status := .inUse) rfl free rfl (answer.trans (if_pos (by simpa using some)))

end Sys2Proof.Machine
end

section
/-! The statements about the sample step and the sample event (01_sensor_channels.md, 02_the_estimation_pipeline.md). -/

namespace Sys2Proof.Machine

/-! ## The sample step (R25 to R28) -/

theorem clampInt_eq {lo hi : Int} (h : lo ≤ hi) (x : Int) : clampInt lo hi x = max lo (min hi x) := by
  unfold clampInt
  omega

theorem section_output_eq (h : Section) (k : Coefficients) (x : Int) :
    h.output k x = max (-32768) (min 32767 (roundAway (h.accumulate k x) 4096)) := clampInt_eq (by decide) _

theorem section_saturates_iff (h : Section) (k : Coefficients) (x : Int) : h.saturates k x = true ↔
    roundAway (h.accumulate k x) 4096 < -32768 ∨ 32767 < roundAway (h.accumulate k x) 4096 := by
  unfold Section.saturates
  rw [decide_eq_true_eq, section_output_eq]
  unfold Section.quotient
  omega

/-- Settles O30. -/
theorem sampleStepFiltersTheValue : Obligations.SampleStepFiltersTheValue := by
  intro c p s
  have outA : c.outputA p s = _ := section_output_eq c.secA p.a s
  have outB : c.outputB p s = _ := section_output_eq c.secB p.b (c.outputA p s)
  have satB := section_saturates_iff c.secB p.b (c.outputA p s)
  refine ⟨?_, ?_, ?_, rfl, section_saturates_iff c.secA p.a s, ?_⟩
  · exact congrArg (c.secA.shift s) outA
  · change c.secB.shift (c.outputA p s) (c.outputB p s) = _
    rw [outB, outA]
    rfl
  · change c.windowSum + c.outputB p s = _
    rw [outB, outA]
    rfl
  · rw [outA] at satB
    exact satB

/-- Settles O31. -/
theorem defaultRoundingIsNearestTiesAway : Obligations.DefaultRoundingIsNearestTiesAway :=
  fun a _ positive => ⟨roundAway_nearest a positive, roundAway_tie a positive⟩

/-! ## Feeding a value (R7) -/

/-- The record that the sample step of a value steps: preloaded with it first where that is pending. -/
def Channel.readied (c : Channel) (v : Int) : Channel := if c.preload then c.preloadWith v else c

theorem readied_cfg (c : Channel) (v : Int) : (c.readied v).cfg = c.cfg := by unfold Channel.readied; split <;> rfl

theorem readied_windowCount (c : Channel) (v : Int) : (c.readied v).windowCount = c.windowCount := by
  unfold Channel.readied; split <;> rfl

theorem stepFilter_occurIf (r : Channel) (p : Profile) (v : Int) (testA testB : Bool) (flagA flagB : ChannelFlag) :
    ((r.stepFilter p v).occurIf testA flagA).occurIf testB flagB =
      { r.stepFilter p v with flags := ((r.occurIf testA flagA).occurIf testB flagB).flags } := by
  cases testA <;> cases testB <;> rfl

theorem fed_eq (c : Channel) (p : Profile) (v : Int) : c.fed p v = { (c.readied v).stepFilter p v with
    flags := (((c.readied v).occurIf ((c.readied v).secA.saturates p.a v) .sectionA).occurIf
      ((c.readied v).secB.saturates p.b ((c.readied v).outputA p v)) .sectionB).flags } :=
  stepFilter_occurIf ..

theorem fed_cfg (c : Channel) (p : Profile) (v : Int) : (c.fed p v).cfg = c.cfg := by
  rw [fed_eq]
  exact readied_cfg c v

theorem fed_windowCount (c : Channel) (p : Profile) (v : Int) : (c.fed p v).windowCount = c.windowCount + 1 := by
  rw [fed_eq]
  exact congrArg (· + 1) (readied_windowCount c v)

/-- A value that does not fill the window. -/
theorem feed_unfilled {w : Work} {i : Fin 16} {v : Int} (short : (w.st.chan i).windowCount + 1 < (w.st.chan i).cfg.window) :
    w.feed i v = w.putChannel i ((w.st.chan i).fed (w.st.profile (w.st.chan i).cfg.profile) v) := by
  unfold Work.feed
  dsimp only
  rw [if_neg]
  rw [fed_cfg, fed_windowCount]
  omega

/-! ## The sample event by the class of its code (R4) -/

theorem rangeOf_valid {code : Nat} (low : 400 ≤ code) (high : code ≤ 4080) : rangeOf code = none := by
  unfold rangeOf
  rw [if_neg (by omega), if_neg (by omega)]

/-- The direction of a code out of range. -/
def directionOf (code : Nat) : LoopDir := if code < 400 then .low else .high

theorem rangeOf_out {code : Nat} (out : code < 400 ∨ 4080 < code) : rangeOf code = some (directionOf code) := by
  unfold rangeOf directionOf
  split
  · rfl
  · rw [if_pos (by omega)]

theorem directionOf_cause (code : Nat) : (directionOf code).cause = if code < 400 then .loopOpen else .loopOver := by
  unfold directionOf
  split <;> rfl

theorem loopFault_iff {st : ChannelState} : st.loopFault = true ↔ st = .fault .loopOpen ∨ st = .fault .loopOver := by
  cases st with
  | fault cause => cases cause <;> simp [ChannelState.loopFault]
  | off | warmup | tracking | hold | bump | recover => simp [ChannelState.loopFault]

section
variable {i : Fin 16} {code : BitVec 12} {s : State}

/-- The record of a channel whose code has been taken. -/
def State.coded (s : State) (i : Fin 16) (code : Nat) : Channel :=
  { s.chan i with lastCode := some code, sampledAt := some s.time.clock }

theorem sample_valid (low : 400 ≤ code.toNat) (high : code.toNat ≤ 4080) :
    s.begin.sample i code.toNat = s.begin.validSample i (s.coded i code.toNat) code.toNat := by
  unfold Work.sample
  rw [rangeOf_valid low high]
  rfl

theorem sample_out (out : code.toNat < 400 ∨ 4080 < code.toNat) : s.begin.sample i code.toNat =
    if (s.chan i).state.loopFault then
      s.begin.outOfRangeInLoopFault i (s.coded i code.toNat) (directionOf code.toNat)
    else s.begin.outOfRangeSample i (s.coded i code.toNat) (directionOf code.toNat) := by
  unfold Work.sample
  rw [rangeOf_out out]
  rfl

variable (samples : s.samples i = true)
include samples

/-- A sample that hands conditions over, and nothing else. -/
theorem leads_sample {w : Work} {n : Nat} {u : State} (e : s.begin.sample i code.toNat = w) (c : Conditions w n) (st : w.st = u) :
    Leads (.sampleEvent i code) s u := by
  subst st e
  exact ⟨_, if_pos samples, c.settles⟩

/-- A sample that tells the zone after it has handed conditions over. -/
theorem leads_sample_told {w : Work} {u : State} (e : s.begin.sample i code.toNat = w.tellZone i)
    (c : Conditions w 2) (st : w.st = u) : Leads (.sampleEvent i code) s u (MemberOf u i) := by
  subst st
  refine ⟨_, if_pos samples, ?_⟩
  have k := c.settles_told (by decide) i
  rw [← e] at k
  exact k

end

theorem Leads.congr {c : Instr} {s u : State} {told told' : Fin 6 → Prop} (h : Leads c s u told) (e : ∀ z, told z ↔ told' z) :
    Leads c s u told' := by
  obtain ⟨t, run, settles⟩ := h
  exact ⟨t, run, settles.congr e⟩

/-! ## A channel whose loop is not in fault -/

theorem notLoopFault {st : ChannelState} (notOpen : st ≠ .fault .loopOpen) (notOver : st ≠ .fault .loopOver) :
    ¬st.loopFault = true := fun e => (loopFault_iff.1 e).elim notOpen notOver

/-- A value that is fed to the record `c`, and does not fill its window. -/
theorem leads_fed {i : Fin 16} {code : BitVec 12} {s : State} (samples : s.samples i = true) {c : Channel} {v : Int}
    (e : s.begin.sample i code.toNat = (s.begin.putChannel i c).feed i v)
    (cfg : c.cfg = (s.chan i).cfg) (short : c.windowCount + 1 < c.cfg.window) :
    Leads (.sampleEvent i code) s (s.setChan i (c.fed (s.profile (s.chan i).cfg.profile) v)) := by
  have put : (s.begin.putChannel i c).st.chan i = c := by rw [putChannel_st, State.setChan_chan_same]
  rw [feed_unfilled (by rw [put]; exact short), put] at e
  refine leads_sample samples e (((conditions_begin s).putChannel i _).putChannel i _) ?_
  rw [putChannel_st, putChannel_st, setChan_setChan, cfg]
  rfl

/-- Settles O35: the sample is fed, and the window not filled. -/
theorem validSampleIsFed : Obligations.ValidSampleIsFed := by
  intro i code s samples low high notOpen notOver short
  dsimp only
  have e : s.begin.sample i code.toNat = (s.begin.putChannel i { s.coded i code.toNat with
      oorCount := 0, lastValid := some ((code.toNat : Int) - 800) }).feed i ((code.toNat : Int) - 800) := by
    rw [sample_valid low high]
    exact if_neg (notLoopFault notOpen notOver)
  have leads := leads_fed samples e rfl short
  rw [fed_eq] at leads
  exact leads

/-! ## Out-of-range samples outside a loop fault (R5) -/

/-- The record of a channel that has counted an out-of-range sample (R4, R5). -/
def State.counted (s : State) (i : Fin 16) (code : Nat) : Channel :=
  { s.coded i code with oorDir := directionOf code, oorCount := (s.chan i).oorCount + 1 }.occur .loopHold

section
variable {i : Fin 16} {code : BitVec 12} {s : State} (out : code.toNat < 400 ∨ 4080 < code.toNat)
  (notOpen : (s.chan i).state ≠ .fault .loopOpen) (notOver : (s.chan i).state ≠ .fault .loopOver)
include out notOpen notOver

theorem sample_unfed (few : (s.chan i).oorCount + 1 < 3) (nothing : (s.chan i).preload = true ∨ (s.chan i).lastValid = none) :
    s.begin.sample i code.toNat = s.begin.putChannel i (s.counted i code.toNat) := by
  rw [sample_out out, if_neg (notLoopFault notOpen notOver)]
  refine (if_neg (not_le.2 few)).trans ?_
  change (match (s.chan i).preload, (s.chan i).lastValid with
    | false, some v => (s.begin.putChannel i (s.counted i code.toNat)).feed i v
    | false, none => s.begin.putChannel i (s.counted i code.toNat)
    | true, _ => s.begin.putChannel i (s.counted i code.toNat)) = _
  rcases nothing with pending | none
  · rw [pending]
  · rw [none]
    cases (s.chan i).preload <;> rfl

theorem sample_held {v : Int} (few : (s.chan i).oorCount + 1 < 3) (ready : (s.chan i).preload = false)
    (last : (s.chan i).lastValid = some v) :
    s.begin.sample i code.toNat = (s.begin.putChannel i (s.counted i code.toNat)).feed i v := by
  rw [sample_out out, if_neg (notLoopFault notOpen notOver)]
  refine (if_neg (not_le.2 few)).trans ?_
  change (match (s.chan i).preload, (s.chan i).lastValid with
    | false, some v => (s.begin.putChannel i (s.counted i code.toNat)).feed i v
    | false, none => s.begin.putChannel i (s.counted i code.toNat)
    | true, _ => s.begin.putChannel i (s.counted i code.toNat)) = _
  rw [ready, last]

/-- The work of the third out-of-range sample of a run, before the zone is told. -/
def Work.faultLoop (w : Work) (i : Fin 16) (c : Channel) (dir : LoopDir) : Work :=
  (w.noticeAll (abortNotices i (w.st.chan i) .loop)).moveChannel i (c.loopFaulted dir w.st.clock)

theorem sample_faults (many : 3 ≤ (s.chan i).oorCount + 1) : s.begin.sample i code.toNat =
    if (s.chan i).state.cause.isSome then s.begin.faultLoop i (s.counted i code.toNat) (directionOf code.toNat)
    else (s.begin.faultLoop i (s.counted i code.toNat) (directionOf code.toNat)).tellZone i := by
  rw [sample_out out, if_neg (notLoopFault notOpen notOver)]
  exact if_pos many

end

theorem faultLoop_conditions (s : State) (i : Fin 16) (c : Channel) (dir : LoopDir) :
    Conditions (s.begin.faultLoop i c dir) 2 := ((conditions_begin s).noticeAll _).moveChannel i _

theorem loopFaulted_state (c : Channel) (dir : LoopDir) (clock : Nat) :
    (c.loopFaulted dir clock).state = .fault dir.cause := rfl

theorem loopFaulted_eq (c : Channel) (dir : LoopDir) (clock : Nat) : c.loopFaulted dir clock = { c with
    state := .fault dir.cause, timer := none, oorCount := 0, validRun := 0, windowSum := 0, windowCount := 0
    bumpTimer := none, bumpPeak := none, armedSpan := none } := by
  unfold Channel.loopFaulted
  rw [enter_fault]
  rfl

theorem faultLoop_st {s : State} {i : Fin 16} {c : Channel} {dir : LoopDir} (changed : (s.chan i).state ≠ .fault dir.cause) :
    (s.begin.faultLoop i c dir).st =
      s.channelMoved i (c.loopFaulted dir s.clock) (abortNotices i (s.chan i) .loop) := by
  unfold Work.faultLoop
  rw [moveChannel_changed, noticeAll_st]
  · rfl
  · rw [noticeAll_st, foldl_notice_chan]
    exact changed

theorem not_fault_iff {st : ChannelState} : (∀ c, st ≠ .fault c) ↔ ¬st.cause.isSome = true := by
  cases st with
  | fault cause => exact iff_of_false (fun h => h cause rfl) (fun h => h rfl)
  | off | warmup | tracking | hold | bump | recover => exact iff_of_true (fun _ e => nomatch e) Bool.false_ne_true

/-! ## Samples within a loop fault (R6) -/

section
variable {i : Fin 16} {code : BitVec 12} {s : State}
  (fault : (s.chan i).state = .fault .loopOpen ∨ (s.chan i).state = .fault .loopOver)
include fault

theorem sample_recovers (low : 400 ≤ code.toNat) (high : code.toNat ≤ 4080) : s.begin.sample i code.toNat =
    s.begin.recoverLoop i { s.coded i code.toNat with oorCount := 0, lastValid := some ((code.toNat : Int) - 800) } := by
  rw [sample_valid low high]
  exact if_pos (loopFault_iff.2 fault)

theorem sample_restarts (out : code.toNat < 400 ∨ 4080 < code.toNat) : s.begin.sample i code.toNat =
    s.begin.outOfRangeInLoopFault i (s.coded i code.toNat) (directionOf code.toNat) := by
  rw [sample_out out, if_pos (loopFault_iff.2 fault)]

end

theorem enterWarmup_eq (c : Channel) (clock : Nat) : c.enterWarmup clock = { c with
    state := .warmup, timer := startTimer clock (1000 * c.cfg.warmup), preload := true, reading := none
    windowSum := 0, windowCount := 0, lastValid := none, warmupWindow := false } := by
  unfold Channel.enterWarmup Channel.enter seconds
  rw [Nat.mul_comm]
  rfl

/-- Settles O37: the sample by its class, the state of the loop and the count of its run. -/
theorem loopFaultsBeginAndEnd : Obligations.LoopFaultsBeginAndEnd := by
  refine ⟨fun i code s samples out notOpen notOver => ⟨fun few nothing => ?_, fun v few ready last short => ?_, fun many => ?_⟩,
    fun i code s samples fault => ⟨fun low high => ⟨fun few => ?_, fun full => ?_⟩, fun out few => ?_, fun out many => ?_⟩⟩
  · exact leads_sample samples (sample_unfed out notOpen notOver few nothing) ((conditions_begin s).putChannel i _)
      (putChannel_st ..)
  · exact leads_fed samples (sample_held out notOpen notOver few ready last) rfl short
  · have changed : (s.chan i).state ≠ .fault (directionOf code.toNat).cause := by
      rw [directionOf_cause]
      split
      · exact notOpen
      · exact notOver
    have e := sample_faults out notOpen notOver many
    have st := faultLoop_st (c := s.counted i code.toNat) changed
    rw [State.channelMoved, loopFaulted_state, loopFaulted_eq, directionOf_cause] at st
    by_cases cause : (s.chan i).state.cause.isSome = true
    · rw [if_pos cause] at e
      refine (leads_sample samples e (faultLoop_conditions ..) st).congr fun z => ?_
      exact iff_of_false id fun h => not_fault_iff.1 h.1 cause
    · rw [if_neg cause] at e
      refine (leads_sample_told samples e (faultLoop_conditions ..) st).congr fun z => ?_
      refine ((memberOf_setChan ?_ z).trans (memberOf_foldl_notice _ s i z)).trans (iff_and_self.2 fun _ => not_fault_iff.2 cause)
      rw [foldl_notice_chan]
      rfl
  · refine leads_sample samples ((sample_recovers fault low high).trans (if_neg (not_le.2 few)))
      ((conditions_begin s).putChannel i _) (putChannel_st ..)
  · have e := (sample_recovers fault low high).trans (if_pos full)
    have changed : (s.chan i).state ≠ .warmup := by rcases fault with h | h <;> rw [h] <;> exact fun e => nomatch e
    rw [enterWarmup_eq] at e
    refine (leads_sample_told samples e ((conditions_begin s).moveChannel i _) (moveChannel_changed changed)).congr fun z => ?_
    exact memberOf_setChan (s := s) (by rfl) z
  · exact leads_sample samples ((sample_restarts fault out).trans (if_neg (not_le.2 few)))
      ((conditions_begin s).putChannel i _) (putChannel_st ..)
  · have e := (sample_restarts fault out).trans (if_pos many)
    rw [directionOf_cause] at e
    refine leads_sample samples e ((conditions_begin s).moveChannel i _) ?_
    by_cases same : (s.chan i).state = .fault (if code.toNat < 400 then .loopOpen else .loopOver)
    · rw [if_pos same, moveChannel_same same, putChannel_st]
      rfl
    · rw [if_neg same, moveChannel_changed same]
      rfl

end Sys2Proof.Machine
end

section
/-! The statement about a window's completion (02_the_estimation_pipeline.md, 2.4 to 2.7; 08_calibration_and_bump_testing.md). -/

namespace Sys2Proof.Machine

/-! ## The trace record through a cascade (R198) -/

/-- The trace record and the coefficient index of `t` are those of `s`. -/
structure SameTrace (s t : State) : Prop where
  index : t.link.traceIndex = s.link.traceIndex
  buffer : t.link.traceBuffer = s.link.traceBuffer

theorem SameTrace.refl (s : State) : SameTrace s s := ⟨rfl, rfl⟩

theorem SameTrace.trans {s t u : State} (a : SameTrace s t) (b : SameTrace t u) : SameTrace s u :=
  ⟨b.index.trans a.index, b.buffer.trans a.buffer⟩

theorem Calm.trace {w v : Work} (h : Calm w v) : SameTrace w.st v.st := ⟨h.traceIndex, h.traceBuffer⟩

theorem trace_ifActive {w : Work} {z : Fin 6} {f : Work → Work} (h : SameTrace w.st (f w).st) :
    SameTrace w.st (w.ifActive z f).st := by
  unfold Work.ifActive
  split
  · exact h
  · exact .refl _

theorem trace_evaluateDemand (w : Work) (z : Fin 6) (r : Zone) (always : Bool) :
    SameTrace w.st (w.evaluateDemand z r always).st :=
  have calm := (calm_demandStep (w.map fun s => s.setZone z r) z always).trans (calm_endEvaluation _ z (w.st.zone z))
  ⟨calm.traceIndex, calm.traceBuffer⟩

/-- Only a completion builds a trace record. -/
theorem take_trace (w : Work) {h : Handover} (other : ∀ i, h ≠ .completion i) : SameTrace w.st (w.take h).st := by
  cases h with
  | condition k image => exact (calm_takeCondition w k image).trace
  | paused z yes => exact (calm_takePaused w z yes).trace
  | eqz active =>
    have calm := calm_alarmPass (w.map fun s => s.setAlarm { s.alarm with eqz := active }) false []
    exact ⟨calm.traceIndex, calm.traceBuffer⟩
  | member z =>
    have calm := (calm_demandStep (w.map fun s => s.setZone z (s.sense z)) z false).trans
      (calm_endEvaluation _ z (w.st.zone z))
    exact trace_ifActive (f := fun w => w.evaluateSight z) ⟨calm.traceIndex, calm.traceBuffer⟩
  | coupling z active =>
    refine trace_ifActive (f := fun w => w.takeCoupling z active) ?_
    unfold Work.takeCoupling
    dsimp only
    split
    · exact ⟨rfl, rfl⟩
    · exact trace_evaluateDemand ..
  | spill z =>
    refine trace_ifActive (f := fun w => w.takeSpill z) ?_
    unfold Work.takeSpill
    dsimp only
    split
    · exact .refl _
    · exact trace_evaluateDemand ..
  | critical z => exact (calm_take w (h := .critical z) rfl).trace
  | availability z => exact (calm_take w (h := .availability z) rfl).trace
  | toArbiter => exact (calm_consider w).trace
  | toFans fell => exact (calm_takeRegimeAtFans w fell).trace
  | completion i => exact absurd rfl (other i)

/-- What a completion makes of the trace does not depend on what a cascade moves. -/
theorem buildTrace_congr {s t : State} (keeps : CascadeKeeps s t) (same : SameTrace s t) (i : Fin 16) :
    SameTrace (s.buildTrace i) (t.buildTrace i) := by
  have record : t.traceRecord i = s.traceRecord i := by
    unfold State.traceRecord State.chan State.profile State.room
    rw [keeps.chans, keeps.profiles, keeps.time, same.index, same.buffer]
  unfold State.buildTrace
  rw [keeps.traceChannel, record, same.index]
  split
  · exact ⟨rfl, rfl⟩
  · exact same

/-- A cascade that takes one completion builds its record, whatever has been taken before it and comes after it. -/
theorem settle_completes (told : List Handover) (fuel : Nat) (enough : told.length < fuel) (w : Work) (i : Fin 16)
    (more : List Handover) (out : w.out = told ++ .completion i :: more) (quiet : ∀ h ∈ more, h.quiet = true)
    (first : ∀ h ∈ told, h.couples = false ∧ ∀ j, h ≠ .completion j) :
    SameTrace (w.st.buildTrace i) (w.settle fuel).st := by
  induction told generalizing fuel w more with
  | nil =>
    obtain ⟨fuel, rfl⟩ : ∃ n, fuel = n + 1 := ⟨fuel - 1, by simp at enough; omega⟩
    have e : w.settle (fuel + 1) = (Work.map { w with out := more } fun s => s.buildTrace i).settle fuel := by
      rw [Work.settle, out]; rfl
    obtain ⟨-, -, -, index, buffer, -⟩ := settle_calm fuel (Work.map { w with out := more } fun s => s.buildTrace i) quiet
    rw [e]
    exact ⟨index, buffer⟩
  | cons h told ih =>
    obtain ⟨fuel, rfl⟩ : ∃ n, fuel = n + 1 := ⟨fuel - 1, by simp at enough; omega⟩
    have e : w.settle (fuel + 1) = (Work.take { w with out := told ++ .completion i :: more } h).settle fuel := by
      rw [Work.settle, out]; rfl
    obtain ⟨uncoupled, other⟩ := first h List.mem_cons_self
    obtain ⟨-, new, ho, hq⟩ := take_zones { w with out := told ++ .completion i :: more } uncoupled
    have keeps : CascadeKeeps w.st _ := take_keeps { w with out := told ++ .completion i :: more } h
    have same : SameTrace w.st _ := take_trace { w with out := told ++ .completion i :: more } other
    rw [e]
    exact (buildTrace_congr keeps same i).trans (ih fuel (by simpa using enough) _ (more ++ new)
      (by rw [ho]; simp) (fun x hx => (List.mem_append.1 hx).elim (quiet x) (hq x)) fun x hx => first x (List.mem_cons_of_mem _ hx))

/-! ## The channel's own tests at a completion (R32) -/

/-- The channel after its own tests at a completion with mean `m` and raw concentration `raw`, and its own notices. -/
def Channel.tested (c : Channel) (i : Fin 16) (clock : Nat) (m raw : Int) : Channel × List NoticeBody :=
  match c.state with
  | .warmup => if c.timer.isNone then (c.enter .tracking clock, [.channelChange i .tracking]) else (c, [])
  | .tracking =>
    if (c.trackBaseline m raw).drifted then
      ((c.trackBaseline m raw).enter (.fault .drift) clock, [.channelChange i (.fault .drift)])
    else (c.trackBaseline m raw, [])
  | .hold =>
    match c.armedSpan, c.excess with
    | some k, some e =>
      match spanGain k c.cfg.shift e with
      | some g => ({ c with cfg := { c.cfg with gain := g }, armedSpan := none }, [.testResult i (.spanPass g)])
      | none => ({ c with armedSpan := none }, [.testResult i (.spanFail e)])
    | some _, none => (c, [])
    | none, _ => (c, [])
  | .bump =>
    if c.cfg.bumpLevel ≤ readingOf raw then
      (c.endTest.enter .recover clock, [.testResult i (.bumpPass (readingOf raw)), .channelChange i .recover])
    else (c.raisePeak (readingOf raw), [])
  | .recover =>
    if raw < c.cfg.trackLimit then (c.enter .tracking clock, [.channelChange i .tracking]) else (c, [])
  | .fault _ => (c, [])
  | .off => (c, [])

/-- A change of record within the state, with notices before it. -/
theorem moved_same {w : Work} {i : Fin 16} {c : Channel} (h : (w.st.chan i).state = c.state) (notes : List NoticeBody) :
    ((w.noticeAll notes).moveChannel i c).st = notes.foldl State.notice (w.st.setChan i c) := by
  have st := noticeAll_st notes w
  rw [moveChannel_same (by rw [st, foldl_notice_chan]; exact h), putChannel_st, st, foldl_notice, foldl_notice]
  rfl

/-- A change of state, with notices before it. -/
theorem moved_changed {w : Work} {i : Fin 16} {c : Channel} (h : (w.st.chan i).state ≠ c.state) (notes : List NoticeBody) :
    ((w.noticeAll notes).moveChannel i c).st =
      (notes ++ [NoticeBody.channelChange i c.state]).foldl State.notice (w.st.setChan i c) := by
  have st := noticeAll_st notes w
  rw [moveChannel_changed (by rw [st, foldl_notice_chan]; exact h), st, List.foldl_append, foldl_notice notes w.st, foldl_notice notes (w.st.setChan i c)]
  rfl

theorem completionTests_st {w : Work} {i : Fin 16} {c : Channel} (chan : w.st.chan i = c) (m raw : Int) :
    (w.completionTests i m raw).st =
      (c.tested i w.st.clock m raw).2.foldl State.notice (w.st.setChan i (c.tested i w.st.clock m raw).1) := by
  subst chan
  unfold Work.completionTests Channel.tested
  dsimp only
  have stays : w.st = w.st.setChan i (w.st.chan i) := (setChan_self w.st i).symm
  have same : ∀ {c : Channel} (notes : List NoticeBody), (w.st.chan i).state = c.state →
      ((w.noticeAll notes).moveChannel i c).st = notes.foldl State.notice (w.st.setChan i c) := fun notes h => moved_same h notes
  have changed : ∀ {c : Channel} (notes : List NoticeBody), (w.st.chan i).state ≠ c.state →
      ((w.noticeAll notes).moveChannel i c).st =
        (notes ++ [NoticeBody.channelChange i c.state]).foldl State.notice (w.st.setChan i c) := fun notes h => moved_changed h notes
  cases state : (w.st.chan i).state with
  | warmup =>
    dsimp only
    split
    · exact changed (c := (w.st.chan i).enter .tracking w.st.clock) [] (by rw [state]; exact fun e => nomatch e)
    · exact stays
  | tracking =>
    dsimp only
    split
    · exact changed (c := ((w.st.chan i).trackBaseline m raw).enter (.fault .drift) w.st.clock) []
        (by rw [state]; exact fun e => nomatch e)
    · exact same (c := (w.st.chan i).trackBaseline m raw) [] rfl
  | hold =>
    dsimp only
    cases (w.st.chan i).armedSpan with
    | none => exact stays
    | some k =>
      cases (w.st.chan i).excess with
      | none => exact stays
      | some e =>
        dsimp only
        cases spanGain k (w.st.chan i).cfg.shift e with
        | none => exact same [.testResult i (.spanFail e)] state
        | some g => exact same [.testResult i (.spanPass g)] state
  | bump =>
    dsimp only
    split
    · exact changed (c := (w.st.chan i).endTest.enter .recover w.st.clock) [.testResult i (.bumpPass (readingOf raw))]
        (by rw [state]; exact fun e => nomatch e)
    · exact same (c := (w.st.chan i).raisePeak (readingOf raw)) [] rfl
  | recover =>
    dsimp only
    split
    · exact changed (c := (w.st.chan i).enter .tracking w.st.clock) [] (by rw [state]; exact fun e => nomatch e)
    · exact stays
  | fault cause => exact stays
  | off => exact stays

theorem Conditions.completionTests {w : Work} {n : Nat} (h : Conditions w n) (i : Fin 16) (m raw : Int) :
    Conditions (w.completionTests i m raw) (n + 2) := by
  unfold Work.completionTests
  dsimp only
  split
  · split
    · exact h.moveChannel i _
    · exact h.le (Nat.le_add_right n 2)
  · exact h.moveChannel i _
  · split
    · split
      · exact (h.notice _).moveChannel i _
      · exact (h.notice _).moveChannel i _
    · exact h.le (Nat.le_add_right n 2)
  · split
    · exact (h.notice _).moveChannel i _
    · exact h.moveChannel i _
  · split
    · exact h.moveChannel i _
    · exact h.le (Nat.le_add_right n 2)
  · exact h.le (Nat.le_add_right n 2)
  · exact h.le (Nat.le_add_right n 2)

/-! ## The completion -/

/-- The record that a completion's results and flags leave (R31, R35). -/
def Channel.resulted (c : Channel) : Channel :=
  c.completeWindow.completionFlags (c.concentration (c.excessOf c.windowMean))

/-- The record and the notices that a completion leaves. -/
def Channel.completed (c : Channel) (i : Fin 16) (clock : Nat) : Channel × List NoticeBody :=
  c.resulted.tested i clock c.windowMean (c.concentration (c.excessOf c.windowMean))

/-- The work of a completion before the zone is told. -/
def Work.completeOwn (w : Work) (i : Fin 16) : Work :=
  (w.putChannel i (w.st.chan i).resulted).completionTests i (w.st.chan i).windowMean
    ((w.st.chan i).concentration ((w.st.chan i).excessOf (w.st.chan i).windowMean))

theorem complete_eq (w : Work) (i : Fin 16) : w.complete i = ((w.completeOwn i).tellZone i).post (.completion i) := rfl

theorem completeOwn_st {w : Work} {i : Fin 16} {c : Channel} (chan : w.st.chan i = c) : (w.completeOwn i).st =
    (c.completed i w.st.clock).2.foldl State.notice (w.st.setChan i (c.completed i w.st.clock).1) := by
  subst chan
  have own := completionTests_st (w := w.putChannel i (w.st.chan i).resulted) (i := i) (c := (w.st.chan i).resulted)
    (by rw [putChannel_st, State.setChan_chan_same]) (w.st.chan i).windowMean
    ((w.st.chan i).concentration ((w.st.chan i).excessOf (w.st.chan i).windowMean))
  rw [putChannel_st, setChan_setChan] at own
  exact own

theorem Conditions.completeOwn {w : Work} {n : Nat} (h : Conditions w n) (i : Fin 16) : Conditions (w.completeOwn i) (n + 1 + 2) :=
  (h.putChannel i _).completionTests i _ _

/-- A value that fills the window. -/
theorem feed_filled {w : Work} {i : Fin 16} {v : Int} (full : (w.st.chan i).windowCount + 1 = (w.st.chan i).cfg.window) :
    w.feed i v = (w.putChannel i ((w.st.chan i).fed (w.st.profile (w.st.chan i).cfg.profile) v)).complete i := by
  unfold Work.feed
  dsimp only
  rw [if_pos]
  rw [fed_cfg, fed_windowCount]
  omega

/-- What a sample that completes the window leads to, with the record and the notices that the completion leaves. -/
def CompletesTo (s : State) (i : Fin 16) (code : BitVec 12) (result : Channel × List NoticeBody) : Prop :=
  ∃ t, exec (.sampleEvent i code) s = .next t ∧
    Settles (result.2.foldl State.notice (s.setChan i result.1)) t (MemberOf s i) ∧
    SameTrace ((s.setChan i result.1).buildTrace i) t

theorem tested_zone (c : Channel) (i : Fin 16) (clock : Nat) (m raw : Int) :
    (c.tested i clock m raw).1.memberOf = c.memberOf := by
  unfold Channel.tested
  split
  · split <;> rfl
  · split <;> rfl
  · split
    · split <;> rfl
    · rfl
    · rfl
  · split <;> rfl
  · split <;> rfl
  · rfl
  · rfl

theorem completionFlags_eq (c : Channel) (raw : Int) :
    c.completionFlags raw = { c with flags := (c.completionFlags raw).flags } := by
  unfold Channel.completionFlags Channel.occurIf
  split <;> split <;> rfl

theorem resulted_cfg (c : Channel) : c.resulted.cfg = c.cfg := by
  unfold Channel.resulted
  rw [completionFlags_eq]
  rfl

theorem completed_memberOf (c : Channel) (i : Fin 16) (clock : Nat) : (c.completed i clock).1.memberOf = c.memberOf := by
  refine (tested_zone ..).trans ?_
  unfold Channel.memberOf
  rw [resulted_cfg]

theorem buildTrace_noted (bs : List NoticeBody) (u : State) (i : Fin 16) :
    SameTrace (u.buildTrace i) ((bs.foldl State.notice u).buildTrace i) := by
  have calm := calm_noticeAll bs u.begin
  have st : (u.begin.noticeAll bs).st = bs.foldl State.notice u := noticeAll_st bs u.begin
  rw [← st]
  exact buildTrace_congr calm.keeps calm.trace i

/-- A sample that feeds `v` to the record `taken` and fills its window completes it. -/
theorem completes_of_feed {s : State} {i : Fin 16} {code : BitVec 12} {taken : Channel} {v : Int} (samples : s.samples i = true)
    (e : s.begin.sample i code.toNat = (s.begin.putChannel i taken).feed i v) (cfg : taken.cfg = (s.chan i).cfg)
    (full : taken.windowCount + 1 = taken.cfg.window) :
    CompletesTo s i code ((taken.fed (s.profile (s.chan i).cfg.profile) v).completed i s.clock) := by
  have put : (s.begin.putChannel i taken).st.chan i = taken := by rw [putChannel_st, State.setChan_chan_same]
  rw [feed_filled (by rw [put]; exact full), put, cfg] at e
  generalize fed : taken.fed (s.profile (s.chan i).cfg.profile) v = c
  have profile : taken.fed ((s.begin.putChannel i taken).st.profile (s.chan i).cfg.profile) v = c := by
    rw [putChannel_st]
    exact fed
  rw [profile, complete_eq] at e
  have st : ((s.begin.putChannel i taken).putChannel i c).st = s.setChan i c := by
    rw [putChannel_st, putChannel_st, setChan_setChan]
    rfl
  have own := completeOwn_st (w := (s.begin.putChannel i taken).putChannel i c) (i := i) (c := c)
    (by rw [st, State.setChan_chan_same])
  rw [st, setChan_setChan, show (s.setChan i c).clock = s.clock from rfl] at own
  have conditions : Conditions (((s.begin.putChannel i taken).putChannel i c).completeOwn i) 5 :=
    (((conditions_begin s).putChannel i _).putChannel i _).completeOwn i
  generalize ((s.begin.putChannel i taken).putChannel i c).completeOwn i = w at e own conditions
  have zone : (c.completed i s.clock).1.memberOf = (s.chan i).memberOf := by
    rw [completed_memberOf, ← fed]
    unfold Channel.memberOf
    rw [fed_cfg, cfg]
  generalize c.completed i s.clock = result at own zone
  have settles := conditions.settles_then (i := i) (v := (w.tellZone i).post (.completion i)) (extra := [.completion i])
    (tellZone_st w i) rfl (by simp [settleLimit]) fun x mem => by
      rw [List.mem_singleton.1 mem]
      exact ⟨rfl, fun z e => (nomatch e), fun z e => (nomatch e)⟩
  have chan : w.st.chan i = result.1 := by rw [own, foldl_notice_chan, State.setChan_chan_same]
  have told : (w.tellZone i).out = w.out ++ ((w.st.chan i).memberOf.map Handover.member).toList := tellZone_out w i
  have trace := settle_completes (w.tellZone i).out settleLimit
    (by
      have := conditions.few
      have : (((w.st.chan i).memberOf.map Handover.member).toList).length ≤ 1 := by cases (w.st.chan i).memberOf <;> simp
      rw [told, List.length_append]
      unfold settleLimit
      omega)
    ((w.tellZone i).post (.completion i)) i [] rfl (fun h mem => nomatch mem) fun h mem => by
      rw [told] at mem
      rcases List.mem_append.1 mem with old | new
      · obtain ⟨k, image, rfl⟩ := conditions.all h old
        exact ⟨rfl, fun j e => nomatch e⟩
      · cases m : (w.st.chan i).memberOf with
        | none => rw [m] at new; cases new
        | some z =>
          rw [m, Option.map_some, Option.toList_some, List.mem_singleton] at new
          subst new
          exact ⟨rfl, fun j e => nomatch e⟩
  have moved : ((w.tellZone i).post (.completion i)).st = w.st := tellZone_st w i
  have run : exec (.sampleEvent i code) s = .next ((w.tellZone i).post (.completion i)).finish := by
    rw [← e]
    exact if_pos samples
  refine ⟨_, run, ?_, ?_⟩
  · rw [own] at settles
    refine settles.congr fun z => ?_
    refine (memberOf_foldl_notice _ _ i z).trans ?_
    unfold MemberOf
    rw [State.setChan_chan_same]
    exact and_congr_right fun _ => by
      rw [← memberOf_eq_some, zone, memberOf_eq_some]
  · rw [moved, own] at trace
    exact (buildTrace_noted _ _ i).trans trace

/-! ## What the statement reads of a completion -/

/-- The results of a completion stand in the record `c` (R31). -/
structure Results (c : Channel) (profile : Fin 4) (m e raw : Int) : Prop where
  profile : c.cfg.profile = profile
  mean : c.lastMean = some m
  excess : c.excess = some e
  concentration : c.cRaw = some raw
  reading : c.reading = some (readingOf raw)

theorem results_resulted (c : Channel) : Results c.resulted c.cfg.profile c.windowMean (c.excessOf c.windowMean)
    (c.concentration (c.excessOf c.windowMean)) := by
  unfold Channel.resulted
  rw [completionFlags_eq]
  exact ⟨rfl, rfl, rfl, rfl, rfl⟩

theorem Results.tested {c : Channel} {p : Fin 4} {m e raw : Int} (h : Results c p m e raw) (i : Fin 16) (clock : Nat) (m' raw' : Int) :
    Results (c.tested i clock m' raw').1 p m e raw := by
  obtain ⟨profile, mean, excess, concentration, reading⟩ := h
  unfold Channel.tested
  split
  · split <;> exact ⟨profile, mean, excess, concentration, reading⟩
  · split <;> exact ⟨profile, mean, excess, concentration, reading⟩
  · split
    · split <;> exact ⟨profile, mean, excess, concentration, reading⟩
    · exact ⟨profile, mean, excess, concentration, reading⟩
    · exact ⟨profile, mean, excess, concentration, reading⟩
  · split <;> exact ⟨profile, mean, excess, concentration, reading⟩
  · split <;> exact ⟨profile, mean, excess, concentration, reading⟩
  · exact ⟨profile, mean, excess, concentration, reading⟩
  · exact ⟨profile, mean, excess, concentration, reading⟩

theorem zonesKept_noted {bs : List NoticeBody} {u t : State} {told : Fin 6 → Prop}
    (h : ZonesKept (bs.foldl State.notice u) t told) : ZonesKept u t told := by
  rw [foldl_notice] at h
  intro z
  obtain ⟨sensed, unsensed, coupling, linger, spilled, unspilled⟩ := h z
  exact ⟨sensed, unsensed, coupling, linger, spilled, unspilled⟩

/-- A completion's outcome, as the statement puts it. -/
theorem completesTo_gives {s : State} {i : Fin 16} {code : BitVec 12} {result : Channel × List NoticeBody} {m e raw : Int}
    (h : CompletesTo s i code result) (r : Results result.1 (s.chan i).cfg.profile m e raw) :
    ∃ t, exec (.sampleEvent i code) s = .next t ∧ t.chan i = result.1 ∧
      CascadeKeeps (result.2.foldl State.notice (s.setChan i result.1)) t ∧
      (s.link.traceChannel = some i →
        t.link.traceBuffer = some {
          room := s.time.room, channel := i, mean := m, baseline := result.1.baseline, excess := e, cRaw := raw
          reading := readingOf raw, state := result.1.state, flags := result.1.flags.map FlagMark.set
          index := s.link.traceIndex
          coefficient := (s.profile (s.chan i).cfg.profile).coefficient s.link.traceIndex
          gap := s.link.traceBuffer.isSome } ∧
        t.link.traceIndex = if s.link.traceIndex = 9 then 0 else s.link.traceIndex + 1) ∧
      (s.link.traceChannel ≠ some i →
        t.link.traceBuffer = s.link.traceBuffer ∧ t.link.traceIndex = s.link.traceIndex) ∧
      ZonesKept (s.setChan i result.1) t (MemberOf s i) := by
  obtain ⟨t, run, settles, trace⟩ := h
  refine ⟨t, run, ?_, settles.keeps, fun traced => ?_, fun untraced => ?_, zonesKept_noted settles.zones⟩
  · unfold State.chan
    rw [settles.keeps.chans]
    exact (foldl_notice_chan _ _ i).trans (State.setChan_chan_same ..)
  · have built : (s.setChan i result.1).buildTrace i = (s.setChan i result.1).setLink { s.link with
        traceBuffer := some ((s.setChan i result.1).traceRecord i)
        traceIndex := if s.link.traceIndex = 9 then 0 else s.link.traceIndex + 1 } := if_pos traced
    rw [built] at trace
    refine ⟨trace.buffer.trans (congrArg some ?_), trace.index⟩
    unfold State.traceRecord
    dsimp only
    rw [State.setChan_chan_same, r.mean, r.excess, r.concentration, r.reading, r.profile]
    rfl
  · have built : (s.setChan i result.1).buildTrace i = s.setChan i result.1 := if_neg untraced
    rw [built] at trace
    exact ⟨trace.buffer, trace.index⟩

/-! ## Span (R159) -/

theorem roundAway_nonneg {a : Int} {d : Nat} (h : 0 ≤ a) : 0 ≤ roundAway a d := by
  unfold roundAway
  rw [if_pos h]
  exact Int.ediv_nonneg (by omega) (by omega)

theorem spanGain_passes {e : Int} (positive : 0 < e) (k shift : Nat) :
    ∃ c : Nat, 2 * |(k : Int) * 2 ^ shift - c * e| ≤ e ∧
      (2 * |(k : Int) * 2 ^ shift - c * e| = e → (k : Int) * 2 ^ shift < c * e) ∧
      spanGain k shift e = if 1 ≤ c ∧ c ≤ 65535 then some c else none := by
  obtain ⟨d, rfl⟩ := Int.eq_ofNat_of_zero_le positive.le
  have natural : 0 < d := by exact_mod_cast positive
  have nonneg : 0 ≤ ((k * 2 ^ shift : Nat) : Int) := Int.natCast_nonneg _
  have quotient := roundAway_nonneg (d := d) nonneg
  have cast : ((roundAway (k * 2 ^ shift : Nat) d).toNat : Int) = roundAway (k * 2 ^ shift : Nat) d := Int.toNat_of_nonneg quotient
  have product : (k : Int) * 2 ^ shift = ((k * 2 ^ shift : Nat) : Int) := by push_cast; rfl
  refine ⟨(roundAway (k * 2 ^ shift : Nat) d).toNat, ?_, fun tie => ?_, if_pos positive⟩
  · rw [cast, product]
    exact roundAway_nearest _ natural
  · rw [cast, product] at tie ⊢
    have away := roundAway_tie _ natural tie
    rwa [abs_of_nonneg nonneg, abs_of_nonneg (mul_nonneg quotient (Int.natCast_nonneg d))] at away

/-! ## The channel's tests by its state -/

section
variable {c : Channel} (i : Fin 16) (clock : Nat) (m raw : Int)

theorem resulted_kept (c : Channel) : c.resulted.state = c.state ∧ c.resulted.timer = c.timer := by
  unfold Channel.resulted
  rw [completionFlags_eq]
  exact ⟨rfl, rfl⟩

theorem fed_kept (c : Channel) (p : Profile) (v : Int) : (c.fed p v).state = c.state ∧ (c.fed p v).timer = c.timer := by
  rw [fed_eq]
  unfold Channel.readied
  split <;> exact ⟨rfl, rfl⟩

theorem tested_warmup (state : c.state = .warmup) : c.tested i clock m raw =
    if c.timer = none then ({ c with state := .tracking, timer := none }, [.channelChange i .tracking]) else (c, []) := by
  unfold Channel.tested
  rw [state]
  dsimp only
  rw [enter_tracking]
  cases c.timer <;> rfl

theorem tested_tracking (state : c.state = .tracking) : c.tested i clock m raw =
    if (c.cfg.zeroBand * 256 : Int) < |c.baseline + c.cfg.baselineStep c.baseline m raw| then
      ({ c with baseline := c.baseline + c.cfg.baselineStep c.baseline m raw, state := .fault .drift, timer := none },
        [.channelChange i (.fault .drift)])
    else ({ c with baseline := c.baseline + c.cfg.baselineStep c.baseline m raw }, []) := by
  unfold Channel.tested Channel.drifted Channel.trackBaseline
  rw [state]
  dsimp only
  rw [enter_fault]
  simp only [decide_eq_true_eq]

theorem tested_bump (state : c.state = .bump) : c.tested i clock m raw =
    if c.cfg.bumpLevel ≤ readingOf raw then
      ({ c with state := .recover, timer := some (clock + 600000), bumpTimer := none, bumpPeak := none, armedSpan := none },
        [.testResult i (.bumpPass (readingOf raw)), .channelChange i .recover])
    else ({ c with bumpPeak := some (max (c.bumpPeak.getD 0) (readingOf raw)) }, []) := by
  unfold Channel.tested
  rw [state]
  dsimp only
  rw [enter_recover]
  have peak : maxReading c.bumpPeak (some (readingOf raw)) = some (max (c.bumpPeak.getD 0) (readingOf raw)) := by
    cases c.bumpPeak with
    | none => exact congrArg some (Nat.zero_max _).symm
    | some p => rfl
  unfold Channel.raisePeak
  rw [peak, state]
  rfl

theorem tested_recover (state : c.state = .recover) : c.tested i clock m raw =
    if raw < c.cfg.trackLimit then ({ c with state := .tracking, timer := none }, [.channelChange i .tracking]) else (c, []) := by
  unfold Channel.tested
  rw [state]
  dsimp only
  rw [enter_tracking]

end

/-- Settles O36: the sample feeds its value, the completion follows, and its outcome is read off by the channel's state. -/
theorem windowCompletionActsByState : Obligations.WindowCompletionActsByState := by
  refine ⟨fun i code taken v s samples notOpen notOver full fedBy => ?_, fun k shift e => ⟨fun small => ?_, fun positive => ?_⟩⟩
  · have feeds : s.begin.sample i code.toNat = (s.begin.putChannel i taken).feed i v ∧ taken.cfg = (s.chan i).cfg ∧
        taken.windowCount = (s.chan i).windowCount ∧ taken.state = (s.chan i).state ∧ taken.timer = (s.chan i).timer := by
      rcases fedBy with ⟨low, high, rfl, rfl⟩ | ⟨out, few, ready, last, rfl⟩
      · refine ⟨?_, rfl, rfl, rfl, rfl⟩
        rw [sample_valid low high]
        exact if_neg (notLoopFault notOpen notOver)
      · exact ⟨sample_held out notOpen notOver few ready last, rfl, rfl, rfl, rfl⟩
    obtain ⟨e, cfg, count, state, timer⟩ := feeds
    have completes := completes_of_feed samples e cfg (by rw [count, cfg]; exact full)
    obtain ⟨fedState, fedTimer⟩ := fed_kept taken (s.profile (s.chan i).cfg.profile) v
    have fedCfg : (taken.fed (s.profile (s.chan i).cfg.profile) v).cfg = (s.chan i).cfg := (fed_cfg ..).trans cfg
    intro fed
    change CompletesTo s i code (fed.completed i s.clock) at completes
    change fed.state = _ at fedState
    change fed.timer = _ at fedTimer
    change fed.cfg = _ at fedCfg
    clear_value fed
    have results := results_resulted fed
    have positive : 0 < fed.cfg.window := by rw [fedCfg]; omega
    refine ⟨fed.windowMean, roundAway_nearest _ positive, roundAway_tie _ positive, ?_⟩
    obtain ⟨doneState, doneTimer⟩ := resulted_kept fed
    rw [fedState, state] at doneState
    rw [fedTimer, timer] at doneTimer
    rw [fedCfg] at results
    have gives := completesTo_gives completes (results.tested i s.clock fed.windowMean _)
    unfold Channel.completed at gives
    intro e' raw done clock result
    have same : result = done.tested i clock fed.windowMean raw := by
      change done.state = _ at doneState
      change done.timer = _ at doneTimer
      have excess : done.excess = some e' := (results_resulted fed).excess
      clear_value done raw e' clock
      dsimp only [result]
      cases st : (s.chan i).state with
      | warmup => rw [tested_warmup i clock _ raw (doneState.trans st), doneTimer]
      | tracking => rw [tested_tracking i clock _ raw (doneState.trans st)]
      | hold =>
        unfold Channel.tested
        rw [doneState.trans st, excess]
        cases done.armedSpan with
        | none => rfl
        | some k =>
          cases gain : spanGain k done.cfg.shift e' with
          | none => simp only [gain]
          | some g => simp only [gain]
      | bump => rw [tested_bump i clock _ raw (doneState.trans st)]
      | recover => rw [tested_recover i clock _ raw (doneState.trans st)]
      | fault cause =>
        unfold Channel.tested
        rw [doneState.trans st]
      | off =>
        unfold Channel.tested
        rw [doneState.trans st]
    clear_value result
    subst same
    exact gives
  · exact if_neg (not_lt.2 small)
  · exact spanGain_passes positive k shift

end Sys2Proof.Machine
end

section
/-! The statements about DISARM, the power-on reset and the failsafe starts (10_configuration_and_arming.md). -/

namespace Sys2Proof.Machine

/-! ## A sweep over a table of records -/

/-- `t` differs from `s` in its channels, its zones and its fans, and in these notices, queued since. -/
def Swept (s t : State) (bodies : List NoticeBody) : Prop :=
  ∃ cs zs fs, t = { bodies.foldl State.notice s with chans := cs, zones := zs, fans := fs }

theorem Swept.refl (s : State) : Swept s s [] := ⟨s.chans, s.zones, s.fans, rfl⟩

theorem Swept.trans {s t u : State} {a b : List NoticeBody} (h : Swept s t a) (k : Swept t u b) : Swept s u (a ++ b) := by
  obtain ⟨cs, zs, fs, rfl⟩ := h
  obtain ⟨cs', zs', fs', rfl⟩ := k
  refine ⟨cs', zs', fs', ?_⟩
  rw [List.foldl_append]
  simp only [foldl_notice]
  rfl

section
variable {n : Nat} {β : Type} {get : State → Fin n → β} {step : Work → Fin n → Work} {g : State → Fin n → β → β}
  {note : Fin n → β → List NoticeBody}
  (swept : ∀ w i, Swept w.st (step w i).st (note i (get w.st i)))
  (own : ∀ w i, get (step w i).st i = g w.st i (get w.st i))
  (other : ∀ w i j, i ≠ j → get (step w i).st j = get w.st j)
  (fixed : ∀ s t bodies, Swept s t bodies → g t = g s)
include swept own other fixed

/-- A step for each record of a table, which writes that record alone and queues its notices. -/
theorem foldl_sweep (xs : List (Fin n)) (nodup : xs.Nodup) (w : Work) :
    Swept w.st (xs.foldl step w).st (xs.flatMap fun i => note i (get w.st i)) ∧
      ∀ j, get (xs.foldl step w).st j = if j ∈ xs then g w.st j (get w.st j) else get w.st j := by
  induction xs generalizing w with
  | nil => exact ⟨.refl _, fun j => (if_neg List.not_mem_nil).symm⟩
  | cons x xs ih =>
    obtain ⟨fresh, nodup⟩ := List.nodup_cons.1 nodup
    obtain ⟨rest, records⟩ := ih nodup (step w x)
    have kept : ∀ i ∈ xs, get (step w x).st i = get w.st i := fun i mem =>
      other w x i fun e => fresh (e ▸ mem)
    refine ⟨?_, fun j => (records j).trans ?_⟩
    · rw [List.flatMap_cons, List.foldl_cons]
      refine (swept w x).trans ?_
      rw [show (xs.flatMap fun i => note i (get w.st i)) = xs.flatMap fun i => note i (get (step w x).st i) from
        List.flatMap_congr fun i mem => by rw [kept i mem]]
      exact rest
    · rw [fixed _ _ _ (swept w x)]
      by_cases e : x = j
      · subst e
        rw [if_neg fresh, if_pos List.mem_cons_self, own]
      · rw [other w x j e]
        have mem : j ∈ x :: xs ↔ j ∈ xs := by rw [List.mem_cons]; exact or_iff_right fun h => e h.symm
        simp only [mem]

end

theorem foldl_out {α : Type} {step : Work → α → Work} (h : ∀ w a, (step w a).out = w.out) (xs : List α) (w : Work) :
    (xs.foldl step w).out = w.out := by
  induction xs generalizing w with
  | nil => rfl
  | cons x xs ih => exact (ih (step w x)).trans (h w x)

theorem foldl_same {α γ : Type} {p : State → γ} {step : Work → α → Work} (h : ∀ w a, p (step w a).st = p w.st) (xs : List α)
    (w : Work) : p (xs.foldl step w).st = p w.st := by
  induction xs generalizing w with
  | nil => rfl
  | cons x xs ih => exact (ih (step w x)).trans (h w x)

/-! ## DISARM's first three steps (R186) -/

theorem noticeIf_swept {w : Work} {s : State} {cs zs fs} (e : w.st = { s with chans := cs, zones := zs, fans := fs })
    (test : Bool) (b : NoticeBody) :
    Swept s (if test then w.notice b else w).st (if test then [b] else []) := by
  cases test with
  | false => exact ⟨cs, zs, fs, e⟩
  | true =>
    refine ⟨cs, zs, fs, ?_⟩
    change w.st.notice b = _
    rw [e]
    rfl

theorem disarmChannel_eq (w : Work) (i : Fin 16) : w.disarmChannel i =
    if decide ((w.st.chan i).state ≠ .off) then (w.map fun s => s.setChan i (w.st.chan i).disarmed).notice (.channelChange i .off)
    else w.map fun s => s.setChan i (w.st.chan i).disarmed := by
  unfold Work.disarmChannel
  dsimp only
  by_cases off : (w.st.chan i).state = .off
  · rw [if_pos off, if_neg (by simp [off])]
  · rw [if_neg off, if_pos (by simp [off])]

theorem disarmZone_eq (w : Work) (z : Fin 6) : w.disarmZone z =
    if (w.st.zone z).active then
      (w.map fun s => s.setZone z (.inactive (w.st.zone z).cfg)).notice (.zoneChange z none 0 none false)
    else w.map fun s => s.setZone z (.inactive (w.st.zone z).cfg) := rfl

/-- A fan's record after DISARM (R100, R187). -/
def Fan.disarmedAt (f : Fan) (strapped : Bool) (clock : Nat) : Fan :=
  if strapped then f.disarmed else f.disarmed.turnOff clock

theorem disarmFan_eq (w : Work) (i : Fin 8) : w.disarmFan i =
    if (w.st.fan i).managed then
      (w.map fun s => s.setFan i ((w.st.fan i).disarmedAt (vget w.st.setup.straps i) w.st.clock)).notice
        (.fanChange i .unmanaged none)
    else w.map fun s => s.setFan i ((w.st.fan i).disarmedAt (vget w.st.setup.straps i) w.st.clock) := rfl

theorem disarmChannel_swept (w : Work) (i : Fin 16) : Swept w.st (w.disarmChannel i).st
    (if decide ((w.st.chan i).state ≠ .off) then [.channelChange i .off] else []) := by
  rw [disarmChannel_eq]
  exact noticeIf_swept (w := w.map fun s => s.setChan i (w.st.chan i).disarmed) rfl _ _

theorem disarmZone_swept (w : Work) (z : Fin 6) : Swept w.st (w.disarmZone z).st
    (if (w.st.zone z).active then [.zoneChange z none 0 none false] else []) := by
  rw [disarmZone_eq]
  exact noticeIf_swept (w := w.map fun s => s.setZone z (.inactive (w.st.zone z).cfg)) rfl _ _

theorem disarmFan_swept (w : Work) (i : Fin 8) : Swept w.st (w.disarmFan i).st
    (if (w.st.fan i).managed then [.fanChange i .unmanaged none] else []) := by
  rw [disarmFan_eq]
  exact noticeIf_swept
    (w := w.map fun s => s.setFan i ((w.st.fan i).disarmedAt (vget w.st.setup.straps i) w.st.clock)) rfl _ _

theorem disarmChannel_st (w : Work) (i : Fin 16) : ∃ l, (w.disarmChannel i).st = (w.st.setChan i (w.st.chan i).disarmed).setLink l := by
  rw [disarmChannel_eq]
  split
  · exact ⟨_, rfl⟩
  · exact ⟨w.st.link, rfl⟩

theorem disarmZone_st (w : Work) (z : Fin 6) : ∃ l, (w.disarmZone z).st = (w.st.setZone z (.inactive (w.st.zone z).cfg)).setLink l := by
  rw [disarmZone_eq]
  split
  · exact ⟨_, rfl⟩
  · exact ⟨w.st.link, rfl⟩

theorem disarmFan_st (w : Work) (i : Fin 8) : ∃ l, (w.disarmFan i).st =
    (w.st.setFan i ((w.st.fan i).disarmedAt (vget w.st.setup.straps i) w.st.clock)).setLink l := by
  rw [disarmFan_eq]
  split
  · exact ⟨_, rfl⟩
  · exact ⟨w.st.link, rfl⟩

/-- The notices of DISARM's first three steps (R19, R66, R100). -/
def State.disarmNotes (s : State) : List NoticeBody :=
  (((List.finRange 16).flatMap fun i => if decide ((s.chan i).state ≠ .off) then [NoticeBody.channelChange i .off] else []) ++
    (List.finRange 6).flatMap fun z => if (s.zone z).active then [NoticeBody.zoneChange z none 0 none false] else []) ++
  (List.finRange 8).flatMap fun i => if (s.fan i).managed then [NoticeBody.fanChange i .unmanaged none] else []

/-- What DISARM's first three steps leave. -/
structure BlocksCleared (s t : State) : Prop where
  swept : Swept s t s.disarmNotes
  chan : ∀ i, t.chan i = (s.chan i).disarmed
  zone : ∀ z, t.zone z = .inactive (s.zone z).cfg
  fan : ∀ i, t.fan i = (s.fan i).disarmedAt (vget s.setup.straps i) s.clock

section
variable (w : Work)

theorem disarmChannels_cleared : Swept w.st ((List.finRange 16).foldl Work.disarmChannel w).st
      ((List.finRange 16).flatMap fun i => if decide ((w.st.chan i).state ≠ .off) then [NoticeBody.channelChange i .off] else []) ∧
    (∀ i, ((List.finRange 16).foldl Work.disarmChannel w).st.chan i = (w.st.chan i).disarmed) := by
  obtain ⟨swept, chans⟩ := foldl_sweep (get := State.chan) (step := Work.disarmChannel) (g := fun _ _ c => c.disarmed)
    (note := fun i c => if decide (c.state ≠ .off) then [NoticeBody.channelChange i .off] else [])
    disarmChannel_swept
    (fun w i => by obtain ⟨l, e⟩ := disarmChannel_st w i; rw [e]; exact State.setChan_chan_same ..)
    (fun w i j ne => by obtain ⟨l, e⟩ := disarmChannel_st w i; rw [e]; exact (State.setChan_chan ..).trans (if_neg ne))
    (fun _ _ _ _ => rfl) (List.finRange 16) (List.nodup_finRange 16) w
  exact ⟨swept, fun i => (chans i).trans (if_pos (List.mem_finRange i))⟩

theorem disarmZones_cleared : Swept w.st ((List.finRange 6).foldl Work.disarmZone w).st
      ((List.finRange 6).flatMap fun z => if (w.st.zone z).active then [NoticeBody.zoneChange z none 0 none false] else []) ∧
    (∀ z, ((List.finRange 6).foldl Work.disarmZone w).st.zone z = .inactive (w.st.zone z).cfg) := by
  obtain ⟨swept, zones⟩ := foldl_sweep (get := State.zone) (step := Work.disarmZone) (g := fun _ _ z => .inactive z.cfg)
    (note := fun z r => if r.active then [NoticeBody.zoneChange z none 0 none false] else [])
    disarmZone_swept
    (fun w i => by obtain ⟨l, e⟩ := disarmZone_st w i; rw [e]; exact (State.setZone_zone ..).trans (if_pos rfl))
    (fun w i j ne => by obtain ⟨l, e⟩ := disarmZone_st w i; rw [e]; exact (State.setZone_zone ..).trans (if_neg ne))
    (fun _ _ _ _ => rfl) (List.finRange 6) (List.nodup_finRange 6) w
  exact ⟨swept, fun z => (zones z).trans (if_pos (List.mem_finRange z))⟩

theorem disarmFans_cleared : Swept w.st ((List.finRange 8).foldl Work.disarmFan w).st
      ((List.finRange 8).flatMap fun i => if (w.st.fan i).managed then [NoticeBody.fanChange i .unmanaged none] else []) ∧
    (∀ i, ((List.finRange 8).foldl Work.disarmFan w).st.fan i =
      (w.st.fan i).disarmedAt (vget w.st.setup.straps i) w.st.clock) := by
  obtain ⟨swept, fans⟩ := foldl_sweep (get := State.fan) (step := Work.disarmFan)
    (g := fun s i f => f.disarmedAt (vget s.setup.straps i) s.clock)
    (note := fun i f => if f.managed then [NoticeBody.fanChange i .unmanaged none] else [])
    disarmFan_swept
    (fun w i => by obtain ⟨l, e⟩ := disarmFan_st w i; rw [e]; exact (State.setFan_fan ..).trans (if_pos rfl))
    (fun w i j ne => by obtain ⟨l, e⟩ := disarmFan_st w i; rw [e]; exact (State.setFan_fan ..).trans (if_neg ne))
    (fun s t bodies h => by obtain ⟨cs, zs, fs, rfl⟩ := h; simp only [foldl_notice]; rfl)
    (List.finRange 8) (List.nodup_finRange 8) w
  exact ⟨swept, fun i => (fans i).trans (if_pos (List.mem_finRange i))⟩

theorem disarmBlocks_cleared : BlocksCleared w.st w.disarmBlocks.st := by
  have channel : ∀ {γ : Type} {p : State → γ}, (∀ s i c l, p (State.setLink (State.setChan s i c) l) = p s) → ∀ v : Work,
      p ((List.finRange 16).foldl Work.disarmChannel v).st = p v.st := fun h v =>
    foldl_same (fun w i => by obtain ⟨l, e⟩ := disarmChannel_st w i; rw [e]; exact h ..) _ v
  have zone : ∀ {γ : Type} {p : State → γ}, (∀ s z r l, p (State.setLink (State.setZone s z r) l) = p s) → ∀ v : Work,
      p ((List.finRange 6).foldl Work.disarmZone v).st = p v.st := fun h v =>
    foldl_same (fun w i => by obtain ⟨l, e⟩ := disarmZone_st w i; rw [e]; exact h ..) _ v
  have fan : ∀ {γ : Type} {p : State → γ}, (∀ s i f l, p (State.setLink (State.setFan s i f) l) = p s) → ∀ v : Work,
      p ((List.finRange 8).foldl Work.disarmFan v).st = p v.st := fun h v =>
    foldl_same (fun w i => by obtain ⟨l, e⟩ := disarmFan_st w i; rw [e]; exact h ..) _ v
  obtain ⟨channelsSwept, chans⟩ := disarmChannels_cleared w
  obtain ⟨zonesSwept, zones⟩ := disarmZones_cleared ((List.finRange 16).foldl Work.disarmChannel w)
  obtain ⟨fansSwept, fans⟩ := disarmFans_cleared
    ((List.finRange 6).foldl Work.disarmZone ((List.finRange 16).foldl Work.disarmChannel w))
  have zoneKept := fun z => channel (p := fun s => s.zone z) (fun _ _ _ _ => rfl) w
  have fanKept := fun i => (zone (p := fun s => s.fan i) (fun _ _ _ _ => rfl) _).trans
    (channel (p := fun s => s.fan i) (fun _ _ _ _ => rfl) w)
  have setup := (zone (p := fun s => s.setup) (fun _ _ _ _ => rfl) _).trans
    (channel (p := fun s => s.setup) (fun _ _ _ _ => rfl) w)
  have clock := (zone (p := fun s => s.clock) (fun _ _ _ _ => rfl) _).trans
    (channel (p := fun s => s.clock) (fun _ _ _ _ => rfl) w)
  simp only [zoneKept] at zonesSwept zones
  simp only [fanKept, setup, clock] at fansSwept fans
  refine ⟨(channelsSwept.trans zonesSwept).trans fansSwept, fun i => ?_, fun z => ?_, fans⟩
  · exact ((fan (p := fun s => s.chan i) (fun _ _ _ _ => rfl) _).trans
      (zone (p := fun s => s.chan i) (fun _ _ _ _ => rfl) _)).trans (chans i)
  · exact (fan (p := fun s => s.zone z) (fun _ _ _ _ => rfl) _).trans (zones z)

theorem disarmBlocks_out : w.disarmBlocks.out = w.out := by
  refine ((foldl_out (fun w i => ?_) _ _).trans (foldl_out (fun w z => ?_) _ _)).trans (foldl_out (fun w i => ?_) _ w)
  · rw [disarmFan_eq]; split <;> rfl
  · rw [disarmZone_eq]; split <;> rfl
  · rw [disarmChannel_eq]; split <;> rfl

end

/-! ## A pass with no active zone -/

/-- The REGIME CHANGE notice of a pass (R140). -/
def regimeNotices (was now : Regime) : List NoticeBody := if now = was then [] else [.regimeChange now]

/-- The alarm unit at the end of a pass. -/
def Alarm.judged (a : Alarm) (changed armed : Bool) : Alarm :=
  { a with regime := regimeOf a, permit := permitOf a armed, version := if changed then a.version + 1 else a.version }

/-- The notices of a pass over the alarm unit `a` (R139, R140, R142). -/
def Alarm.passNotes (a : Alarm) (armed : Bool) (notes : List NoticeBody) : List NoticeBody :=
  notes ++ regimeNotices a.regime (regimeOf a) ++ permitNotices a.permit (permitOf a armed)

/-- A pass before it hands the regime on. -/
def Work.judge (w : Work) (changed : Bool) (notes : List NoticeBody) : Work :=
  (w.map fun s => s.setAlarm (s.alarm.judged changed s.setup.armed)).noticeAll (w.st.alarm.passNotes w.st.setup.armed notes)

theorem alarmPass_eq (w : Work) (changed : Bool) (notes : List NoticeBody) : w.alarmPass changed notes =
    if regimeOf w.st.alarm = w.st.alarm.regime then w.judge changed notes
    else (w.judge changed notes).handRegime w.st.alarm.regime (regimeOf w.st.alarm) := rfl

theorem judge_st (w : Work) (changed : Bool) (notes : List NoticeBody) : (w.judge changed notes).st =
    (w.st.alarm.passNotes w.st.setup.armed notes).foldl State.notice
      (w.st.setAlarm (w.st.alarm.judged changed w.st.setup.armed)) := noticeAll_st ..

theorem judge_out (w : Work) (changed : Bool) (notes : List NoticeBody) : (w.judge changed notes).out = w.out := noticeAll_out ..

theorem forEachOpen_nil {α : Type} (w : Work) (f : Work → α → Work) : w.forEachOpen [] f = w := rfl

/-- With no active zone a change of the regime is handed to the arbiter and the fans alone. -/
theorem handRegime_inactive {w : Work} (inactive : w.st.activeZones = []) (old new : Regime) :
    w.handRegime old new = w.postAll [.toArbiter, .toFans (old.alarming && !new.alarming)] := by
  unfold Work.handRegime
  dsimp only
  rw [inactive, ite_self, forEachOpen_nil]
  unfold Work.post Work.postAll
  rw [List.append_assoc]
  rfl

/-! ## Hand-overs that find nothing to do -/

/-- Taking `h` in the state `s` does nothing. -/
def Inert (s : State) (h : Handover) : Prop := ∀ w : Work, w.st = s → w.take h = w

theorem settle_inert (fuel : Nat) {w : Work} (inert : ∀ h ∈ w.out, Inert w.st h) : (w.settle fuel).st = w.st := by
  induction fuel generalizing w with
  | zero => rfl
  | succ fuel ih =>
    unfold Work.settle
    split
    · rfl
    next h rest out =>
      rw [inert h (by rw [out]; exact List.mem_cons_self) { w with out := rest } rfl]
      exact ih fun x mem => inert x (by rw [out]; exact List.mem_cons_of_mem h mem)

theorem inert_toArbiter {s : State} (none : ∀ i, s.requestTime i = none) : Inert s .toArbiter := by
  rintro w rfl
  have choice : w.st.grantChoice = .none := Option.eq_none_iff_forall_ne_some.2 fun j h => by
    have := grantChoice_waits h
    rw [none j] at this
    cases this
  change w.consider = w
  unfold Work.consider
  rw [choice]

theorem inert_toFans {s : State} (none : ∀ i, s.takesExercise i = false) (fell : Bool) : Inert s (.toFans fell) := by
  rintro w rfl
  change w.takeRegimeAtFans fell = w
  unfold Work.takeRegimeAtFans
  split
  · rw [List.filter_eq_nil_iff.2 fun i _ => by rw [none i]; exact Bool.false_ne_true]
    exact forEachOpen_nil ..
  · rfl

/-! ## DISARM -/

theorem permitOf_emptied (a : Alarm) : permitOf a.emptied false = .holdFloat := by
  have none : ∀ {n : Nat} (key : Fin n → Fin 82) (test : Record → Bool), a.emptied.anyRecord key test = false := fun key test => by
    unfold Alarm.anyRecord Alarm.record Alarm.emptied
    simp
  unfold permitOf
  simp [none]

theorem regimeOf_emptied (a : Alarm) : regimeOf a.emptied = if a.eqz then .chargeVent else .normal := by
  have inactive : ∀ k, (a.emptied.image k).active = false := fun k => by
    unfold Alarm.image Alarm.emptied
    rw [vget_replicate]
    rfl
  have eqz : a.emptied.eqz = a.eqz := rfl
  unfold regimeOf
  simp [inactive, eqz]

/-- The state after DISARM's steps 4 and 5, with the alarm unit emptied. -/
def State.disarmEmptied (s : State) : State :=
  (((s.unprobed).setArb s.arb.cleared).handToStraps).setAlarm s.alarm.emptied

/-- The state that DISARM leaves, over the one that its first three steps leave. -/
def State.disarmedOver (s : State) (changed : Bool) : State :=
  ((s.disarmEmptied.alarm.passNotes false []).foldl State.notice
    (s.disarmEmptied.setAlarm (s.disarmEmptied.alarm.judged changed false))).traceOff

section
variable {w : Work} (changed : Bool) (notes : List NoticeBody)

theorem judge_zone (z : Fin 6) : (w.judge changed notes).st.zone z = w.st.zone z := by
  rw [judge_st, foldl_notice]
  rfl

theorem judge_fan (i : Fin 8) : (w.judge changed notes).st.fan i = w.st.fan i := by
  rw [judge_st, foldl_notice]
  rfl

theorem judge_requestTime (i : Fin 8) : (w.judge changed notes).st.requestTime i = w.st.requestTime i := by
  rw [judge_st, foldl_notice]
  rfl

/-- A pass where no zone is active, no fan waits and none is in IDLE: the regime's hand-overs find nothing to do. -/
theorem finish_alarmPass_idle (out : w.out = []) (inactive : ∀ z, (w.st.zone z).active = false)
    (waiting : ∀ i, w.st.requestTime i = none) (resting : ∀ i, (w.st.fan i).state ≠ .idle) :
    ((w.alarmPass changed notes).map State.traceOff).finish = State.traceOff (w.judge changed notes).st := by
  have judgedOut : (w.judge changed notes).out = [] := (judge_out ..).trans out
  have zone := fun z => (congrArg Zone.active (judge_zone (w := w) changed notes z)).trans (inactive z)
  have waiting' := fun i => (judge_requestTime (w := w) changed notes i).trans (waiting i)
  have resting' := fun i => (congrArg Fan.state (judge_fan (w := w) changed notes i)).symm ▸ resting i
  rw [alarmPass_eq]
  generalize w.judge changed notes = v at *
  split
  · exact finish_nil judgedOut
  · rw [handRegime_inactive (List.filter_eq_nil_iff.2 fun z _ => by rw [zone z]; exact Bool.false_ne_true)]
    refine settle_inert settleLimit fun h mem => ?_
    have listed : h ∈ v.out ++ [.toArbiter, .toFans _] := mem
    rw [judgedOut] at listed
    rcases List.mem_cons.1 listed with rfl | mem
    · exact inert_toArbiter waiting'
    · rw [List.mem_singleton.1 mem]
      refine inert_toFans (fun i => ?_) _
      change (decide ((v.st.fan i).state = .idle) && _ && _ && _) = false
      rw [decide_eq_false (resting' i)]
      rfl

end

/-- DISARM is its first three steps, the emptied alarm unit and one pass over it: no hand-over finds anything to do. -/
theorem does_disarm (s : State) :
    s.does Work.disarm = s.begin.disarmBlocks.st.disarmedOver (!s.alarm.table.isEmpty) := by
  have cleared := disarmBlocks_cleared s.begin
  have out := disarmBlocks_out s.begin
  have run : s.does Work.disarm =
      ((s.begin.disarmBlocks.disarmEmptied.alarmPass (!s.alarm.table.isEmpty) []).map State.traceOff).finish := rfl
  rw [run]
  generalize s.begin.disarmBlocks = w at cleared out
  refine (finish_alarmPass_idle (w := w.disarmEmptied) _ _ out (fun z => ?_) (fun i => vget_replicate 8 none i) fun i => ?_).trans ?_
  · exact congrArg Zone.active (cleared.zone z)
  · have fan : w.disarmEmptied.st.fan i = _ := cleared.fan i
    rw [fan]
    unfold Fan.disarmedAt
    split <;> exact fun e => nomatch e
  · rw [judge_st]
    rfl

theorem disarmed_eq (c : Channel) : c.disarmed = { c with
    state := .off, timer := none, lastCode := none, lastValid := none, oorCount := 0, validRun := 0, preload := false
    reading := none, lastMean := none, excess := none, cRaw := none, windowSum := 0, windowCount := 0
    windowCompleted := false, warmupWindow := false, flags := .replicate 5 { set := false, seen := false }
    bumpTimer := none, bumpPeak := none, armedSpan := none } := rfl

theorem disarmedAt_eq (f : Fan) (strapped : Bool) (clock : Nat) : f.disarmedAt strapped clock = { f with
    state := .unmanaged, claims := .empty, manualDuration := none, stopPending := false, minRunElapsed := false
    exerciseOwed := false, exerciseDue := none, flowNote := false
    manualTimer := none, provingTimer := none, minRunTimer := none, coastTimer := none, retryTimer := none
    flowLossTimer := none, exerciseTimer := none, noteTimer := none, clearTimer := none
    output := f.output && strapped, offTime := if f.output && !strapped then some clock else f.offTime } := by
  unfold Fan.disarmedAt
  cases strapped with
  | true => rw [Bool.and_true, Bool.not_true, Bool.and_false]; rfl
  | false => rw [Bool.and_false, Bool.not_false, Bool.and_true]; rfl

/-- The notice queue after these notices at one room time. -/
theorem foldl_enqueue_map (room : Nat) (bodies : List NoticeBody) (q : List Notice) :
    bodies.foldl (fun q b => enqueue q (noticeAt room b)) q = (bodies.map (noticeAt room)).foldl enqueue q := by
  rw [List.foldl_map]

theorem noticeAt_mem_map {room : Nat} {b : NoticeBody} {bodies : List NoticeBody} :
    noticeAt room b ∈ bodies.map (noticeAt room) ↔ b ∈ bodies := by
  refine ⟨fun h => ?_, fun h => List.mem_map_of_mem h⟩
  obtain ⟨c, mem, e⟩ := List.mem_map.1 h
  have body : c = b := congrArg Notice.body e
  exact body ▸ mem

section
variable (s : State)

theorem channelOff_mem_disarmNotes (i : Fin 16) :
    NoticeBody.channelChange i .off ∈ s.disarmNotes ↔ (s.chan i).state ≠ .off := by
  simp [State.disarmNotes, List.mem_flatMap]

theorem zoneOff_mem_disarmNotes (z : Fin 6) :
    NoticeBody.zoneChange z none 0 none false ∈ s.disarmNotes ↔ (s.zone z).active = true := by
  simp [State.disarmNotes, List.mem_flatMap]

theorem fanOff_mem_disarmNotes (i : Fin 8) :
    NoticeBody.fanChange i .unmanaged none ∈ s.disarmNotes ↔ (s.fan i).state ≠ .unmanaged := by
  simp [State.disarmNotes, List.mem_flatMap, Fan.managed]

end

theorem mem_passNotes {a : Alarm} {armed : Bool} {b : NoticeBody} (h : b ∈ a.passNotes armed []) :
    (∃ r, b = .regimeChange r) ∨ ∃ p, b = .permitChange p := by
  unfold Alarm.passNotes regimeNotices permitNotices at h
  rw [List.nil_append] at h
  rcases List.mem_append.1 h with h | h
  · split at h
    · cases h
    · exact .inl ⟨_, List.mem_singleton.1 h⟩
  · split at h
    · cases h
    · exact .inr ⟨_, List.mem_singleton.1 h⟩

theorem disarmEmptied_eq (d : State) : d.disarmEmptied = { d with
    probes := d.probes.map fun r => Probe.absent r.cfg r.line
    arb := d.arb.cleared, setup := (State.handToStraps d).setup, alarm := d.alarm.emptied } := by
  unfold State.disarmEmptied
  generalize d.alarm.emptied = a
  rfl

/-- What DISARM leaves over the state `d` of its first three steps, field by field. -/
theorem disarmedOver_eq (d : State) (changed : Bool) : d.disarmedOver changed = { d with
    probes := d.probes.map fun r => Probe.absent r.cfg r.line
    arb := d.arb.cleared
    setup := (State.handToStraps d).setup
    alarm := d.alarm.emptied.judged changed false
    link := { d.link with
      notices := (d.alarm.emptied.passNotes false []).foldl (fun q b => enqueue q (noticeAt d.time.room b)) d.link.notices
      traceChannel := none, traceIndex := 0, traceBuffer := none } } := by
  unfold State.disarmedOver
  rw [disarmEmptied_eq, foldl_notice]
  generalize d.alarm.emptied = a
  rfl

theorem handToStraps_setup (d : State) : d.handToStraps.setup = { d.setup with
    armed := false
    failsafeList := (List.finRange 8).filter fun i => vget d.setup.straps i && !(d.fan i).output
    failsafeMade := Vector.ofFn fun i => vget d.setup.straps i && (d.fan i).output
    failsafeTimer := if ((List.finRange 8).filter fun i => vget d.setup.straps i && !(d.fan i).output) = [] then none
      else some (d.time.clock + 5000) } := by
  have five : seconds 5 = 5000 := by norm_num [seconds]
  have start : startTimer d.clock (seconds 5) = some (d.time.clock + 5000) := by
    rw [five, startTimer_of_pos (by norm_num)]
    rfl
  unfold State.handToStraps
  dsimp only
  rw [start]
  simp only [List.isEmpty_iff]
  rfl

theorem answerDisarm_accept {s : State} (service : s.link.service.debounced = true) (armed : s.setup.armed = true) :
    answerDisarm s = accept (s.does Work.disarm) := by
  unfold answerDisarm State.serviceActive
  rw [service, armed]
  rfl

theorem answerDisarm_wrongState {s : State} (service : s.link.service.debounced = true) (unarmed : s.setup.armed = false) :
    answerDisarm s = refuse s .wrongState := by
  unfold answerDisarm State.serviceActive
  rw [service, unarmed]
  rfl

theorem table_isEmpty_iff (a : Alarm) : (if (!a.table.isEmpty) = true then a.version + 1 else a.version) =
    a.version + if a.table = [] then 0 else 1 := by
  cases a.table <;> simp

/-- Settles O28: DISARM's state block by block. -/
theorem disarmClearsEveryBlock : Obligations.DisarmClearsEveryBlock := by
  intro tag s free service
  refine ⟨fun unarmed => ?_, fun armed => ?_⟩
  · exact declined_request (status := .wrongState) rfl free rfl (answerDisarm_wrongState service unarmed)
  have answer := answerDisarm_accept service armed
  rw [does_disarm] at answer
  have cleared := disarmBlocks_cleared s.begin
  generalize s.begin.disarmBlocks.st = d at answer cleared
  obtain ⟨⟨cs, zs, fs, swept⟩, chan, zone, fan⟩ := cleared
  rw [foldl_notice] at swept
  have time : d.time = s.time := by rw [swept]; rfl
  have setup : d.setup = s.setup := by rw [swept]; rfl
  have alarm : d.alarm = s.alarm := by rw [swept]; rfl
  have output : ∀ i, (d.fan i).output = ((s.fan i).output && vget s.setup.straps i) := fun i => by
    rw [fan i, disarmedAt_eq]
    rfl
  have straps := handToStraps_setup d
  have waiting : (fun i => vget s.setup.straps i && !((s.fan i).output && vget s.setup.straps i)) =
      fun i => vget s.setup.straps i && !(s.fan i).output := funext fun i => by
    cases (s.fan i).output <;> cases vget s.setup.straps i <;> rfl
  have made : (fun i => vget s.setup.straps i && ((s.fan i).output && vget s.setup.straps i)) =
      fun i => vget s.setup.straps i && (s.fan i).output := funext fun i => by
    cases (s.fan i).output <;> cases vget s.setup.straps i <;> rfl
  simp only [output, setup, time, waiting, made] at straps
  have notices : d.link.notices =
      s.disarmNotes.foldl (fun q b => enqueue q (noticeAt s.time.room b)) s.link.notices := by rw [swept]; rfl
  generalize after : d.disarmedOver (!s.alarm.table.isEmpty) = t at answer
  have left := after.symm.trans (disarmedOver_eq d (!s.alarm.table.isEmpty))
  have fresh : t.setup = _ := (by rw [left] : t.setup = d.handToStraps.setup).trans straps
  have alarm' : t.alarm = s.alarm.emptied.judged (!s.alarm.table.isEmpty) false := by rw [left, alarm]
  have own : ∀ b : NoticeBody, ((∀ x, b ≠ .regimeChange x) ∧ ∀ y, b ≠ .permitChange y) →
      (noticeAt s.time.room b ∈ (s.disarmNotes ++ s.alarm.emptied.passNotes false []).map (noticeAt s.time.room) ↔
        b ∈ s.disarmNotes) := fun b other => by
    refine noticeAt_mem_map.trans ⟨fun h => ?_, fun h => List.mem_append_left _ h⟩
    refine (List.mem_append.1 h).elim id fun h => ?_
    rcases mem_passNotes h with ⟨r, e⟩ | ⟨p, e⟩
    · exact absurd e (other.1 r)
    · exact absurd e (other.2 p)
  refine ⟨t, accepted_request (c := .disarm tag) rfl free rfl answer, fun i => ?_, fun z => ?_, fun i => ?_, fun p => ?_, ?_, ?_,
    ?_, ?_, ?_⟩
  · rw [left]
    exact (chan i).trans (disarmed_eq _)
  · rw [left]
    exact zone z
  · rw [left]
    exact (fan i).trans (disarmedAt_eq ..)
  · rw [left]
    exact (vget_map ..).trans (by rw [swept]; rfl)
  · rw [left, swept]
    rfl
  · rw [fresh]
    exact ⟨rfl, rfl, rfl, fun i => vget_ofFn .., rfl⟩
  · rw [alarm']
    refine ⟨fun k => ⟨vget_replicate .., vget_replicate ..⟩, fun z => vget_replicate .., regimeOf_emptied s.alarm, permitOf_emptied s.alarm,
      rfl, rfl, rfl, table_isEmpty_iff s.alarm⟩
  · have link := congrArg State.link left
    rw [link, notices, time, alarm, ← List.foldl_append, foldl_enqueue_map]
    refine ⟨rfl, rfl, rfl, (s.disarmNotes ++ s.alarm.emptied.passNotes false []).map (noticeAt s.time.room), rfl, fun i => ?_,
      fun z => ?_, fun i => ?_⟩
    · exact decide_eq_decide.2 ((own (.channelChange i .off) ⟨fun _ e => (nomatch e), fun _ e => (nomatch e)⟩).trans
        (channelOff_mem_disarmNotes s i))
    · exact Bool.eq_iff_iff.2 (decide_eq_true_iff.trans
        ((own (.zoneChange z none 0 none false) ⟨fun _ e => (nomatch e), fun _ e => (nomatch e)⟩).trans (zoneOff_mem_disarmNotes s z)))
    · exact decide_eq_decide.2 ((own (.fanChange i .unmanaged none) ⟨fun _ e => (nomatch e), fun _ e => (nomatch e)⟩).trans
        (fanOff_mem_disarmNotes s i))
  · rw [left, swept]
    exact ⟨rfl, rfl, rfl⟩

end Sys2Proof.Machine
end

section
/-! The statement about the power-on reset and the failsafe starts (10_configuration_and_arming.md, 10.2 and 10.3). -/

namespace Sys2Proof.Machine

/-! ## A failsafe start (R180) -/

theorem failsafeStart_nil {s : State} (list : s.setup.failsafeList = []) :
    s.failsafeStart = s.setSetup { s.setup with failsafeTimer := none } := by
  unfold State.failsafeStart
  rw [list]

theorem failsafeStart_cons {s : State} {i : Fin 8} {rest : List (Fin 8)} (list : s.setup.failsafeList = i :: rest) :
    s.failsafeStart = (s.setFan i { s.fan i with
      output := true, startCount := min 65535 ((s.fan i).startCount + 1) }).setSetup { s.setup with
        failsafeList := rest, failsafeMade := vset s.setup.failsafeMade i true
        failsafeTimer := if rest = [] then none else some (s.time.clock + 5000) } := by
  have five : seconds 5 = 5000 := by norm_num [seconds]
  have start : startTimer s.clock (seconds 5) = some (s.time.clock + 5000) := by
    rw [five, startTimer_of_pos (by norm_num)]
    rfl
  unfold State.failsafeStart
  rw [list]
  dsimp only
  rw [start]
  simp only [List.isEmpty_iff]
  rfl

/-! ## The power-on reset (R179) -/

theorem read_of_low {c : Conditioner} (low : c.debounced = false) (idle : c.timer = none) (level : Bool) (now time : Nat) :
    c.read level now time = { line := level, debounced := false, timer := if level then some (now + time) else none } := by
  unfold Conditioner.read
  rw [low, idle]
  cases level <;> rfl

section
variable (s : State) (l : ResetLines)

theorem poweredOn_fan (i : Fin 8) : (s.poweredOn l).fan i = { Fan.reset with
    flow := { line := l.lines.flow.getLsbD i.val, debounced := false
              timer := if l.lines.flow.getLsbD i.val then some 1000 else none } } := by
  refine (vget_ofFn ..).trans ?_
  rw [reset_fan, read_of_low rfl rfl, show State.reset.clock + flowDebounceTime = 1000 from rfl]

theorem poweredOn_straps (i : Fin 8) : vget (s.poweredOn l).setup.straps i = l.safe.getLsbD i.val := vget_ofFn ..

theorem poweredOn_failsafeList : (s.poweredOn l).setup.failsafeList = (List.finRange 8).filter fun i => l.safe.getLsbD i.val := by
  change (List.finRange 8).filter (fun i => vget (Vector.ofFn fun i : Fin 8 => l.safe.getLsbD i.val) i) = _
  simp only [vget_ofFn]

theorem poweredOn_failsafeMade (i : Fin 8) : vget (s.poweredOn l).setup.failsafeMade i = false := vget_replicate ..

theorem poweredOn_eqz : (s.poweredOn l).eqz =
    { line := l.lines.eqz, debounced := false, timer := if l.lines.eqz then some 2000 else none } := read_of_low rfl rfl ..

theorem poweredOn_link : (s.poweredOn l).link = { Link.reset with
    service := { line := l.lines.service, debounced := false, timer := if l.lines.service then some 1000 else none } } := by
  have service := read_of_low (c := Link.reset.service) rfl rfl l.lines.service State.reset.clock serviceDebounceTime
  exact congrArg (fun c : Conditioner => { Link.reset with service := c }) service

/-- What a failsafe start leaves alone, and the setup it leaves. -/
theorem failsafeStart_rest (s : State) : ∃ fans setup, s.failsafeStart = { s with fans := fans, setup := setup } := by
  cases list : s.setup.failsafeList with
  | nil => exact ⟨s.fans, _, failsafeStart_nil list⟩
  | cons i rest => exact ⟨_, _, failsafeStart_cons list⟩

end

/-- What the first failsafe start leaves of the setup and the fans (R180). -/
structure FirstStart (s t : State) : Prop where
  armed : t.setup.armed = s.setup.armed
  straps : t.setup.straps = s.setup.straps
  list : t.setup.failsafeList = s.setup.failsafeList.drop 1
  timer : t.setup.failsafeTimer = if t.setup.failsafeList = [] then none else some (s.time.clock + 5000)
  made : ∀ i, vget t.setup.failsafeMade i = if s.setup.failsafeList.head? = some i then true else vget s.setup.failsafeMade i
  fan : ∀ i, t.fan i = if s.setup.failsafeList.head? = some i then { s.fan i with
    output := true, startCount := min 65535 ((s.fan i).startCount + 1) } else s.fan i

theorem failsafeStart_first (s : State) : FirstStart s s.failsafeStart := by
  cases list : s.setup.failsafeList with
  | nil =>
    rw [failsafeStart_nil list]
    refine ⟨rfl, rfl, ?_, ?_, fun i => ?_, fun i => ?_⟩
    · change s.setup.failsafeList = s.setup.failsafeList.drop 1
      rw [list]
      rfl
    · exact (if_pos list).symm
    · rw [list]
      rfl
    · rw [list]
      rfl
  | cons j rest =>
    rw [failsafeStart_cons list]
    refine ⟨rfl, rfl, ?_, rfl, fun i => ?_, fun i => ?_⟩
    · rw [list]
      rfl
    · rw [list]
      refine (vget_vset ..).trans ?_
      simp only [List.head?_cons, Option.some.injEq]
    · rw [list]
      refine (State.setFan_fan s j _ i).trans ?_
      simp only [List.head?_cons, Option.some.injEq]
      by_cases e : j = i
      · rw [if_pos e, if_pos e, e]
      · rw [if_neg e, if_neg e]

/-- Settles O29: the reset values, and the first failsafe start over them. -/
theorem powerOnResetAndFailsafeStarts : Obligations.PowerOnResetAndFailsafeStarts := by
  refine ⟨fun l s => ?_, fun i rest t s running le list => ?_⟩
  · have first := failsafeStart_first (s.poweredOn l)
    obtain ⟨fans, setup, rest⟩ := failsafeStart_rest (s.poweredOn l)
    refine ⟨(s.poweredOn l).failsafeStart, rfl, ?_⟩
    generalize (s.poweredOn l).failsafeStart = t at first rest
    have list := poweredOn_failsafeList s l
    have listed : t.setup.failsafeList = ((List.finRange 8).filter fun i => l.safe.getLsbD i.val).drop 1 := by
      rw [first.list, list]
    refine ⟨fun i => ?_, fun p => ?_, fun z => ?_, ?_, ?_, ?_, fun p => ?_, ?_, ?_, ?_, ?_, fun i => ?_, listed, ?_, fun i => ⟨?_, ?_⟩⟩
    · rw [rest]; exact vget_replicate ..
    · rw [rest]; exact vget_replicate ..
    · rw [rest]; exact vget_replicate ..
    · rw [rest]; rfl
    · rw [rest]; rfl
    · rw [rest]; rfl
    · rw [rest]; exact vget_map ..
    · rw [rest]; exact poweredOn_eqz s l
    · rw [rest]; exact poweredOn_link s l
    · rw [rest]; rfl
    · rw [first.armed]; rfl
    · rw [first.straps]; exact poweredOn_straps s l i
    · exact first.timer
    · rw [first.made, list, poweredOn_failsafeMade]
      split
      next h => rw [decide_eq_true h]
      next h => rw [decide_eq_false h]
    · rw [first.fan, list, poweredOn_fan]
      split
      next h => rw [decide_eq_true h]; rfl
      next h => rw [decide_eq_false h]; rfl
  · refine (if_pos (due_of_le running le)).trans ?_
    rw [failsafeStart_cons list]
    rfl

end Sys2Proof.Machine
end

section
/-! The statements about the millisecond, the regime and the permit, and the events of the link. -/

namespace Sys2Proof.Machine

/-! ## The millisecond (R51, R71, R167, R168, R192) -/

theorem Conditioner.read_eq (c : Conditioner) (level : Bool) (now time : Nat) : c.read level now time = { c with
    line := level, timer := if level = c.debounced then none else some (c.timer.getD (now + time)) } := by
  unfold Conditioner.read
  cases c.timer <;> rfl

theorem nextClock_of_lt {clock : Nat} (h : clock < 2 ^ 48 - 1) : nextClock clock = clock + 1 := if_pos h

/-- The state that reading the lines leaves. -/
theorem readLines_fan (s : State) (l : Lines) (i : Fin 8) : (s.readLines l).fan i = { s.fan i with
    flow := (s.fan i).flow.read (l.flow.getLsbD i.val) s.clock flowDebounceTime } := vget_ofFn ..

/-- Settles O48: one tick of the timebase, and each conditioned line as it is read. -/
theorem millisecondAdvancesTheClocks : Obligations.MillisecondAdvancesTheClocks := by
  intro l s
  refine ⟨(s.setTime s.time.tick).readLines l, rfl, nextClock_of_lt, fun below => ⟨?_, ?_⟩,
    fun carry => ⟨?_, fun fast => ?_, fun slow => ?_⟩, rfl, rfl, rfl, ?_, ?_, fun i => ?_, rfl, rfl, rfl, rfl, rfl, rfl, rfl⟩
  · exact s.time.tick_acc.trans (if_pos below)
  · exact s.time.tick_room.trans (by rw [Timebase.advance_of_no_carry below])
  · exact s.time.tick_acc.trans (if_neg (not_lt.2 carry))
  · exact s.time.tick_room.trans (by rw [Timebase.advance_of_carry_fast carry fast])
  · exact s.time.tick_room.trans (by rw [Timebase.advance_of_carry_slow carry slow, Nat.add_zero])
  · exact Conditioner.read_eq ..
  · exact congrArg (fun c : Conditioner => { s.link with service := c }) (Conditioner.read_eq ..)
  · rw [readLines_fan, Conditioner.read_eq]
    rfl

/-! ## The permit and the regime (R140, R142) -/

theorem anyRecord_iff {n : Nat} (a : Alarm) (key : Fin n → Fin 82) (test : Record → Bool) :
    a.anyRecord key test = true ↔ ∃ i r, a.record (key i) = some r ∧ test r = true := by
  simp [Alarm.anyRecord, Option.any_eq_true]

theorem anyRecord_isSome_iff {n : Nat} (a : Alarm) (key : Fin n → Fin 82) :
    a.anyRecord key (fun _ => true) = true ↔ ∃ i, (a.record (key i)).isSome = true := by
  simp [anyRecord_iff, Option.isSome_iff_exists]

theorem anyRecord_peak_iff (a : Alarm) (n : Severity) :
    a.anyRecord keyGas (fun r => r.peak == n) = true ↔ ∃ z r, a.record (keyGas z) = some r ∧ r.peak = n := by
  simp [anyRecord_iff]

open Classical in
theorem permitOf_eq (a : Alarm) (armed : Bool) : permitOf a armed =
    if ∃ z r, a.record (keyGas z) = some r ∧ r.peak = 3 then .disconnect
    else if (∃ z r, a.record (keyGas z) = some r ∧ r.peak = 2) ∨ ∃ z, (a.record (keyBlind z)).isSome = true then .reduce
    else if (∃ z r, a.record (keyGas z) = some r ∧ r.peak = 1) ∨ (∃ z, (a.record (keyShortfall z)).isSome = true) ∨
      (∃ p, (a.record (keySpill p)).isSome = true) ∨ (∃ z, vget a.paused z = true) ∨ armed = false then .holdFloat
    else .normal := by
  unfold permitOf
  simp only [Bool.or_eq_true, anyRecord_peak_iff, anyRecord_isSome_iff, List.any_eq_true, List.mem_finRange, true_and,
    Bool.not_eq_true', or_assoc]

open Classical in
theorem regimeOf_eq (a : Alarm) : regimeOf a =
    if ∃ z, (a.image (keyGas z)).active = true ∧ (a.image (keyGas z)).severity = 3 then .critical
    else if (∃ z, (a.image (keyGas z)).active = true ∧ (a.image (keyGas z)).severity = 2) ∨
      ∃ z, (a.image (keyBlind z)).active = true then .gasAlarm
    else if ∃ p, (a.image (keySpill p)).active = true then .spill
    else if a.eqz = true then .chargeVent else .normal := by
  unfold regimeOf
  simp only [Bool.or_eq_true, Bool.and_eq_true, List.any_eq_true, List.mem_finRange, true_and, beq_iff_eq, exists_or]

section
variable {A B C D : Prop} [Decidable A] [Decidable B] [Decidable C] [Decidable D]

/-- The permit's chain of tests, value by value. -/
theorem permitChain_iff (p : Permit) (h : p = if A then .disconnect else if B then .reduce else if C then .holdFloat else .normal) :
    (p = .disconnect ↔ A) ∧ (p = .reduce ↔ ¬A ∧ B) ∧ (p = .holdFloat ↔ ¬A ∧ ¬B ∧ C) ∧ (p = .normal ↔ ¬A ∧ ¬B ∧ ¬C) := by
  subst h
  by_cases a : A
  · simp [a]
  · by_cases b : B
    · simp [a, b]
    · by_cases c : C <;> simp [a, b, c]

/-- The regime's chain of tests, value by value. -/
theorem regimeChain_iff (r : Regime)
    (h : r = if A then .critical else if B then .gasAlarm else if C then .spill else if D then .chargeVent else .normal) :
    (r = .critical ↔ A) ∧ (r = .gasAlarm ↔ ¬A ∧ B) ∧ (r = .spill ↔ ¬A ∧ ¬B ∧ C) ∧ (r = .chargeVent ↔ ¬A ∧ ¬B ∧ ¬C ∧ D) ∧
      (r = .normal ↔ ¬A ∧ ¬B ∧ ¬C ∧ ¬D) := by
  subst h
  by_cases a : A
  · simp [a]
  · by_cases b : B
    · simp [a, b]
    · by_cases c : C
      · simp [a, b, c]
      · by_cases d : D <;> simp [a, b, c, d]

end

/-- Settles O50: each value of the permit and of the regime by the place of its test in the chain. -/
theorem permitAndRegimeFollowTheTable : Obligations.PermitAndRegimeFollowTheTable := by
  classical
  refine ⟨fun a armed => ?_, fun s => ⟨?_, ?_⟩⟩
  · obtain ⟨disconnect, reduce, holdFloat, normal⟩ := permitChain_iff _ (permitOf_eq a armed)
    obtain ⟨critical, gasAlarm, spill, chargeVent, none⟩ := regimeChain_iff _ (regimeOf_eq a)
    refine ⟨disconnect, reduce, holdFloat.trans ?_, normal.trans ?_, critical, gasAlarm, spill, chargeVent, none.trans ?_⟩
    · rw [not_or, and_assoc]
    · rw [not_or, not_or, and_assoc]
    · rw [Bool.not_eq_true]
  · unfold State.permit1 State.permit0
    cases s.alarm.permit <;> rfl
  · unfold State.attn
    simp

/-! ## The events of the link (R189, R190, R198, R199) -/

theorem badLength_iff {f : FrameIn} : f.badLength = true ↔ ∃ len : Byte, f.bytes = [len] ∧ (len.toNat < 2 ∨ 242 < len.toNat) := by
  unfold FrameIn.badLength badLength
  match bytes : f.bytes with
  | [] => simp
  | [len] => simp
  | _ :: _ :: _ => simp

theorem discarded_iff {f : FrameIn} : f.discarded = true ↔ 0x80 ≤ f.kind.toNat ∨ f.busyAtSync = true := by
  unfold FrameIn.discarded
  rw [Bool.or_eq_true, decide_eq_true_eq]

theorem traceRecord_flags (s : State) (i : Fin 16) (k : Fin 5) :
    vget (s.traceRecord i).flags k = (vget (s.chan i).flags k).set := vget_map ..

/-- Settles O53: each event by the state of the frame or of the transmitter it acts on. -/
theorem linkEventsActOnTheirFrames : Obligations.LinkEventsActOnTheirFrames := by
  refine ⟨fun f s => ⟨fun ended bad => ?_, fun ended good discarded => ?_, fun frame bad => ?_, fun frame gap => ?_, rfl, rfl⟩,
    fun s => ⟨fun sent => ?_, fun r sent => ?_, fun r free idle buffered => ?_, fun i traced => ?_⟩, fun p => rfl⟩
  · change execCrcMismatch s = _
    unfold execCrcMismatch
    rw [ended]
    exact if_neg (by rw [bad]; exact Bool.false_ne_true)
  · change execFrameReceived s = _
    unfold execFrameReceived
    rw [ended]
    dsimp only
    rw [good, discarded_iff.2 discarded]
    rfl
  · change execBadLengthByte s = _
    unfold execBadLengthByte
    rw [frame]
    exact if_pos (badLength_iff.2 bad)
  · change execInterbyteGap s = _
    unfold execInterbyteGap
    rw [frame]
    exact if_pos (decide_eq_true (Nat.lt_sub_of_add_lt (by rw [Nat.add_comm]; exact gap)))
  · change execFrameSent s = _
    unfold execFrameSent
    rw [sent]
    rfl
  · change execFrameSent s = _
    unfold execFrameSent
    rw [sent]
    cases s.link.outstanding <;> rfl
  · change execTraceFrameSend s = _
    unfold execTraceFrameSend
    rw [free, idle, buffered]
    rfl
  · refine ⟨s.traceRecord i, if_pos traced, rfl, rfl, rfl, rfl, fun m h => ?_, fun e h => ?_, fun raw h => ?_, fun v h => ?_,
      traceRecord_flags s i, rfl, rfl, rfl⟩
    · exact congrArg (Option.getD · 0) h
    · exact congrArg (Option.getD · 0) h
    · exact congrArg (Option.getD · 0) h
    · exact congrArg (Option.getD · 0) h

end Sys2Proof.Machine
end

section
/-! The statement about the hand-over of a condition and the report (07_alarm_table_regime_and_room_outputs.md). -/

namespace Sys2Proof.Machine

/-! ## Sorting -/

theorem pairwise_insertSorted {α : Type} {before : α → α → Bool}
    (trans : ∀ x y z, before x y = true → before y z = true → before x z = true) {x : α} {ys : List α}
    (sorted : ys.Pairwise fun x y => before x y = true) (comparable : ∀ y ∈ ys, before x y = true ∨ before y x = true) :
    (insertSorted before x ys).Pairwise fun x y => before x y = true := by
  induction ys with
  | nil => exact List.pairwise_singleton ..
  | cons y ys ih =>
    obtain ⟨first, rest⟩ := List.pairwise_cons.1 sorted
    unfold insertSorted
    split
    next h =>
      refine List.pairwise_cons.2 ⟨fun z mem => ?_, sorted⟩
      rcases List.mem_cons.1 mem with rfl | mem
      · exact h
      · exact trans _ _ _ h (first z mem)
    next h =>
      have after : before y x = true := (comparable y List.mem_cons_self).resolve_left h
      refine List.pairwise_cons.2 ⟨fun z mem => ?_, ih rest fun z mem => comparable z (List.mem_cons_of_mem y mem)⟩
      rcases (mem_insertSorted ..).1 mem with rfl | mem
      · exact after
      · exact first z mem

theorem pairwise_sortBy {α : Type} {before : α → α → Bool}
    (trans : ∀ x y z, before x y = true → before y z = true → before x z = true) {xs : List α}
    (comparable : xs.Pairwise fun x y => before x y = true ∨ before y x = true) :
    (sortBy before xs).Pairwise fun x y => before x y = true := by
  induction xs with
  | nil => exact List.Pairwise.nil
  | cons x xs ih =>
    obtain ⟨first, rest⟩ := List.pairwise_cons.1 comparable
    exact pairwise_insertSorted trans (ih rest) fun y mem => first y ((mem_sortBy ..).1 mem)

/-! ## Report order (R137) -/

theorem reportsBefore_iff (x y : Fin 82 × Record) : reportsBefore x y = true ↔
    y.2.reporting < x.2.reporting ∨
      (x.2.reporting = y.2.reporting ∧ (x.2.raised < y.2.raised ∨ (x.2.raised = y.2.raised ∧ x.1 < y.1))) := by
  unfold reportsBefore
  split
  next same =>
    rw [same]
    split
    next e => simp [e]
    next ne => simp [ne]
  next ne => simp [ne]

theorem reportsBefore_trans (x y z : Fin 82 × Record) (a : reportsBefore x y = true) (b : reportsBefore y z = true) :
    reportsBefore x z = true := by
  simp only [reportsBefore_iff, Fin.lt_def, Fin.ext_iff] at *
  omega

theorem reportsBefore_of_ne {x y : Fin 82 × Record} (ne : x.1 ≠ y.1) :
    reportsBefore x y = true ∨ reportsBefore y x = true := by
  simp only [reportsBefore_iff, Fin.lt_def, Fin.ext_iff] at *
  omega

theorem reportsBefore_irrefl (x : Fin 82 × Record) : ¬reportsBefore x x = true := by
  simp only [reportsBefore_iff, Fin.lt_def]
  omega

theorem mem_table {a : Alarm} {k : Fin 82} {r : Record} : (k, r) ∈ a.table ↔ a.record k = some r := by
  simp [Alarm.table]

theorem table_keys (a : Alarm) : a.table.Pairwise fun x y => x.1 ≠ y.1 := by
  unfold Alarm.table
  refine List.Pairwise.filterMap _ (R := fun i j => i ≠ j) (fun i j ne x hx y hy => ?_) (List.nodup_finRange 82)
  obtain ⟨r, -, rfl⟩ := Option.map_eq_some_iff.1 hx
  obtain ⟨q, -, rfl⟩ := Option.map_eq_some_iff.1 hy
  exact ne

theorem report_sorted (a : Alarm) : a.report.Pairwise fun x y => reportsBefore x y = true :=
  pairwise_sortBy reportsBefore_trans ((table_keys a).imp reportsBefore_of_ne)

/-! ## A pass, whatever it hands on -/

/-- A change of the regime makes hand-overs alone. -/
theorem handRegime_st (w : Work) (old new : Regime) : ∃ n, (w.handRegime old new).st = { w.st with choices := n } := by
  unfold Work.handRegime Work.forEachOpen
  exact ⟨_, foldl_post_st Handover.critical _ _⟩

theorem alarmPass_st (w : Work) (changed : Bool) (notes : List NoticeBody) :
    ∃ n, (w.alarmPass changed notes).st = { (w.judge changed notes).st with choices := n } := by
  rw [alarmPass_eq]
  split
  · exact ⟨(w.judge changed notes).st.choices, rfl⟩
  · exact handRegime_st ..

/-! ## The record after a hand-over (R129 to R132) -/

theorem takeCondition_pass (w : Work) (k : Fin 82) (image : Image) : w.takeCondition k image =
    (w.map fun s => s.setAlarm (s.alarm.taken k image s.room)).alarmPass
      (decide ((w.st.alarm.taken k image w.st.room).record k ≠ w.st.alarm.record k))
      (alarmNotice k (w.st.alarm.record k) ((w.st.alarm.taken k image w.st.room).record k)) := by
  rw [Alarm.taken_record, if_pos rfl]
  rfl

theorem valueAtRise_eq (c : AlarmClass) (old new : Option Nat) : valueAtRise c old new =
    if decide (c ∈ [AlarmClass.blind, .channelNote, .flowNote]) then none
    else if decide (c = .gas) then maxReading old new else new := by
  cases c <;> rfl

theorem valueAtChange_eq (c : AlarmClass) (old new : Option Nat) : valueAtChange c old new =
    if decide (c ∈ [AlarmClass.blind, .channelNote, .flowNote]) then none
    else if decide (c = .gas) then maxReading old new
    else if decide (c ∈ [AlarmClass.spill, .probeFault]) then old else new := by
  cases c <;> rfl

theorem latching_iff {c : AlarmClass} : c.latching = true ↔ c ≠ .channelNote ∧ c ≠ .flowNote := by
  cases c <;> simp [AlarmClass.latching]

section
variable {c : AlarmClass} {room : Nat} {before after : Image} {r : Record}

theorem recordAfter_masked (old : Option Record) : recordAfter c true room before after old = old := rfl

theorem recordAfter_rise (was : before.active = false) (is : after.active = true) (old : Option Record) :
    recordAfter c false room before after old = recordAtRise c room after old := by
  unfold recordAfter
  rw [was, is]
  rfl

theorem recordAfter_change (was : before.active = true) (is : after.active = true) (old : Option Record) :
    recordAfter c false room before after old = recordAtChange c after old := by
  unfold recordAfter
  rw [was, is]
  rfl

theorem recordAfter_clear (was : before.active = true) (is : after.active = false) (old : Option Record) :
    recordAfter c false room before after old = recordAtClear c room old := by
  unfold recordAfter
  rw [was, is]
  rfl

theorem recordAtRise_cleared (state : r.state = .clearedUnack) : recordAtRise c room after (some r) = some { r with
    state := .activeUnack, severity := after.severity, peak := max r.peak after.severity, cleared := none
    value := valueAtRise c r.value after.value, repeats := min 255 (r.repeats + 1) } := by
  unfold recordAtRise
  dsimp only
  rw [state]

theorem recordAtChange_same (same : after.severity = r.severity) : recordAtChange c after (some r) =
    some { r with value := valueAtChange c r.value after.value } := if_pos same

theorem recordAtChange_within (ne : after.severity ≠ r.severity) (within : after.severity ≤ r.peak) :
    recordAtChange c after (some r) =
      some { r with severity := after.severity, value := valueAtChange c r.value after.value } :=
  (if_neg ne).trans (if_neg (not_lt.2 within))

theorem recordAtChange_beyond (ne : after.severity ≠ r.severity) (beyond : r.peak < after.severity) :
    recordAtChange c after (some r) = some { r with
      state := .activeUnack, severity := after.severity, peak := after.severity
      value := valueAtChange c r.value after.value } :=
  (if_neg ne).trans (if_pos beyond)

theorem recordAtClear_unlatched (latch : ¬c.latching = true) : recordAtClear c room (some r) = none := if_neg latch

theorem recordAtClear_unack (latch : c.latching = true) (state : r.state = .activeUnack) : recordAtClear c room (some r) =
    some { r with state := .clearedUnack, severity := 0, cleared := some room } := by
  refine (if_pos latch).trans ?_
  rw [state]

theorem recordAtClear_ack (latch : c.latching = true) (state : r.state = .activeAck) : recordAtClear c room (some r) = none := by
  refine (if_pos latch).trans ?_
  rw [state]

end

theorem alarmNotice_eq (k : Fin 82) (before after : Option Record) : alarmNotice k before after =
    if after.map (fun r => (r.state, r.severity)) = before.map (fun r => (r.state, r.severity)) then []
    else [.alarmChange k (after.map fun r => (r.state, r.severity))] := by
  cases before with
  | none => cases after <;> simp [alarmNotice]
  | some b =>
    cases after with
    | none => simp [alarmNotice]
    | some r => simp [alarmNotice, eq_comm]

theorem foldl_enqueue_if {room : Nat} {q : List Notice} {c : Prop} [Decidable c] {b : NoticeBody} :
    (if c then [] else [b]).foldl (fun q b => enqueue q (noticeAt room b)) q = if c then q else enqueue q (noticeAt room b) := by
  split <;> rfl

/-- The alarm unit after a hand-over of a condition. -/
def Work.conditionAlarm (w : Work) (k : Fin 82) (image : Image) : Alarm :=
  (w.st.alarm.taken k image w.st.room).judged
    (decide ((w.st.alarm.taken k image w.st.room).record k ≠ w.st.alarm.record k)) w.st.setup.armed

/-- The notice queue after a hand-over of a condition. -/
def Work.conditionQueue (w : Work) (k : Fin 82) (image : Image) : List Notice :=
  ((w.st.alarm.taken k image w.st.room).passNotes w.st.setup.armed
    (alarmNotice k (w.st.alarm.record k) ((w.st.alarm.taken k image w.st.room).record k))).foldl
      (fun q b => enqueue q (noticeAt w.st.room b)) w.st.link.notices

/-- What a hand-over of a condition leaves: the image and the record of its key, a judged unit, and the notices. -/
theorem takeCondition_st (w : Work) (k : Fin 82) (image : Image) : ∃ n, (w.takeCondition k image).st = { w.st with
    alarm := w.conditionAlarm k image
    link := { w.st.link with notices := w.conditionQueue k image }
    choices := n } := by
  obtain ⟨n, left⟩ := alarmPass_st (w.map fun s => s.setAlarm (s.alarm.taken k image s.room))
    (decide ((w.st.alarm.taken k image w.st.room).record k ≠ w.st.alarm.record k))
    (alarmNotice k (w.st.alarm.record k) ((w.st.alarm.taken k image w.st.room).record k))
  rw [← takeCondition_pass, judge_st, foldl_notice] at left
  exact ⟨n, left⟩

theorem takeCondition_record (w : Work) (k : Fin 82) (image : Image) : (w.takeCondition k image).st.alarm.record k =
    recordAfter (classOf k) (w.st.alarm.masks (classOf k)) w.st.room (w.st.alarm.image k) image (w.st.alarm.record k) := by
  obtain ⟨n, left⟩ := takeCondition_st w k image
  rw [left]
  exact (Alarm.taken_record ..).trans (if_pos rfl)

theorem takeCondition_others (w : Work) (k : Fin 82) (image : Image) :
    (w.takeCondition k image).st.alarm.image k = image ∧
      (∀ j, j ≠ k → (w.takeCondition k image).st.alarm.image j = w.st.alarm.image j ∧
        (w.takeCondition k image).st.alarm.record j = w.st.alarm.record j) ∧
      (w.takeCondition k image).st.alarm.paused = w.st.alarm.paused ∧
      (w.takeCondition k image).st.alarm.eqz = w.st.alarm.eqz := by
  obtain ⟨n, left⟩ := takeCondition_st w k image
  rw [left]
  exact ⟨(Alarm.taken_image _ k image w.st.room k).trans (if_pos rfl), fun j ne =>
    ⟨(Alarm.taken_image _ k image w.st.room j).trans (if_neg ne.symm), (Alarm.taken_record ..).trans (if_neg ne.symm)⟩, rfl, rfl⟩

/-- The version moves just where the record of the key does (R138). -/
theorem takeCondition_version (w : Work) (k : Fin 82) (image : Image) : (w.takeCondition k image).st.alarm.version =
    w.st.alarm.version +
      (if (w.takeCondition k image).st.alarm.record k = w.st.alarm.record k then 0 else 1) := by
  obtain ⟨n, left⟩ := takeCondition_st w k image
  rw [left]
  change (if decide ((w.st.alarm.taken k image w.st.room).record k ≠ w.st.alarm.record k) = true then w.st.alarm.version + 1
    else w.st.alarm.version) = w.st.alarm.version +
      (if (w.st.alarm.taken k image w.st.room).record k = w.st.alarm.record k then 0 else 1)
  by_cases same : (w.st.alarm.taken k image w.st.room).record k = w.st.alarm.record k
  · rw [if_neg (by simpa using same), if_pos same]; simp
  · rw [if_pos (by simpa using same), if_neg same]

theorem passNotes_queued (a : Alarm) (armed : Bool) (k : Fin 82) (before : Option Record) (room : Nat) (q : List Notice) :
    (a.passNotes armed (alarmNotice k before (a.record k))).foldl (fun q b => enqueue q (noticeAt room b)) q =
      let q := if (a.record k).map (fun r => (r.state, r.severity)) = before.map (fun r => (r.state, r.severity)) then q
        else enqueue q (noticeAt room (.alarmChange k ((a.record k).map fun r => (r.state, r.severity))))
      let q := if regimeOf a = a.regime then q else enqueue q (noticeAt room (.regimeChange (regimeOf a)))
      if permitOf a armed = a.permit then q else enqueue q (noticeAt room (.permitChange (permitOf a armed))) := by
  unfold Alarm.passNotes regimeNotices permitNotices
  rw [alarmNotice_eq, List.foldl_append, List.foldl_append, foldl_enqueue_if, foldl_enqueue_if, foldl_enqueue_if]

/-- Settles O49: the report is sorted, and a hand-over is a new image, a new record and one pass. -/
theorem reportIsTheTableInReportOrder : Obligations.ReportIsTheTableInReportOrder := by
  refine ⟨fun a => ⟨fun k r => (mem_sortBy ..).trans mem_table, ?_, ?_⟩, fun w k image => ?_⟩
  · exact List.Pairwise.imp (S := fun x y => x ≠ y)
      (fun {x y} before (e : x = y) => reportsBefore_irrefl x (by rwa [← e] at before)) (report_sorted a)
  · exact (report_sorted a).imp fun before => (reportsBefore_iff ..).1 before
  · have own := takeCondition_record w k image
    refine ⟨takeCondition_others w k image, fun masked => ?_, fun unmasked was is => ⟨fun none => ?_, fun r old state => ?_⟩,
      fun r unmasked was is old => ⟨fun same => ?_, fun ne within => ?_, fun ne beyond => ?_⟩,
      fun r unmasked was is old => ⟨fun class_ => ?_, fun notChannel notFlow => ⟨fun state => ?_, fun state => ?_⟩⟩,
      takeCondition_version w k image, ?_⟩
    · rw [own, masked, recordAfter_masked]
    · rw [own, unmasked, recordAfter_rise was is, none]
      refine congrArg some ?_
      unfold Record.created
      rw [valueAtRise_eq]
      congr 1
      split
      · rfl
      · split <;> rcases image.value with _ | y <;> rfl
    · rw [own, unmasked, recordAfter_rise was is, old, recordAtRise_cleared state, valueAtRise_eq]
      rcases r.value with _ | x <;> rcases image.value with _ | y <;> rfl
    · rw [own, unmasked, recordAfter_change was is, old, recordAtChange_same same, valueAtChange_eq]
      rcases r.value with _ | x <;> rcases image.value with _ | y <;> rfl
    · rw [own, unmasked, recordAfter_change was is, old, recordAtChange_within ne within, valueAtChange_eq]
      rcases r.value with _ | x <;> rcases image.value with _ | y <;> rfl
    · rw [own, unmasked, recordAfter_change was is, old, recordAtChange_beyond ne beyond, valueAtChange_eq]
      rcases r.value with _ | x <;> rcases image.value with _ | y <;> rfl
    · rw [own, unmasked, recordAfter_clear was is, old]
      exact recordAtClear_unlatched fun latch => class_.elim (latching_iff.1 latch).1 (latching_iff.1 latch).2
    · rw [own, unmasked, recordAfter_clear was is, old]
      exact recordAtClear_unack (latching_iff.2 ⟨notChannel, notFlow⟩) state
    · rw [own, unmasked, recordAfter_clear was is, old]
      exact recordAtClear_ack (latching_iff.2 ⟨notChannel, notFlow⟩) state
    · obtain ⟨n, left⟩ := takeCondition_st w k image
      have queued := passNotes_queued (w.st.alarm.taken k image w.st.room) w.st.setup.armed k (w.st.alarm.record k) w.st.room
        w.st.link.notices
      rw [left]
      exact ⟨queued, congrArg (fun q => { w.st with
        alarm := w.conditionAlarm k image
        link := { w.st.link with notices := q }
        choices := n }) queued⟩

end Sys2Proof.Machine
end

section
/-! The bytes of a frame and of a request (11_the_serial_link.md). -/

namespace Sys2Proof.Machine

/-! ## Numbers of several bytes (R200) -/

theorem ofBytes_bytesBE (n v : Nat) : ofBytes (bytesBE n v) = v % 256 ^ n := by
  induction n with
  | zero => simp [bytesBE, ofBytes, Nat.mod_one]
  | succ n ih =>
    have high : v % 256 ^ (n + 1) = v % 256 ^ n + 256 ^ n * (v / 256 ^ n % 256) := Nat.mod_mul
    unfold bytesBE ofBytes
    rw [ih, bytesBE_length, BitVec.toNat_ofNat, high, Nat.mul_comm, Nat.add_comm]

theorem ofBytes_lt (bs : List Byte) : ofBytes bs < 256 ^ bs.length := by
  induction bs with
  | nil => exact Nat.one_pos
  | cons b bs ih =>
    have top : b.toNat + 1 ≤ 256 := b.isLt
    calc ofBytes (b :: bs) = b.toNat * 256 ^ bs.length + ofBytes bs := rfl
      _ < b.toNat * 256 ^ bs.length + 256 ^ bs.length := by omega
      _ = (b.toNat + 1) * 256 ^ bs.length := by ring
      _ ≤ 256 * 256 ^ bs.length := Nat.mul_le_mul_right _ top
      _ = 256 ^ (b :: bs).length := by rw [List.length_cons, Nat.pow_succ, Nat.mul_comm]

theorem bytesBE_mod (n v : Nat) : bytesBE n (v % 256 ^ n) = bytesBE n v := by
  suffices h : ∀ m, n ≤ m → bytesBE n (v % 256 ^ m) = bytesBE n v from h n le_rfl
  induction n with
  | zero => exact fun _ _ => rfl
  | succ n ih =>
    intro m le
    unfold bytesBE
    rw [ih m (by omega)]
    congr 1
    have split : 256 ^ m = 256 ^ n * 256 ^ (m - n) := by rw [← Nat.pow_add]; congr 1; omega
    have whole : (256 : Nat) ∣ 256 ^ (m - n) := dvd_pow_self 256 (by omega)
    apply BitVec.eq_of_toNat_eq
    rw [BitVec.toNat_ofNat, BitVec.toNat_ofNat, split, Nat.mod_mul_right_div_self]
    exact Nat.mod_mod_of_dvd _ whole

theorem bytesBE_ofBytes (bs : List Byte) : bytesBE bs.length (ofBytes bs) = bs := by
  induction bs with
  | nil => rfl
  | cons b bs ih =>
    have pos : 0 < 256 ^ bs.length := Nat.pow_pos (by decide)
    have low : bytesBE bs.length (ofBytes (b :: bs)) = bs := by
      rw [← bytesBE_mod]
      unfold ofBytes
      rw [Nat.mul_add_mod_of_lt (ofBytes_lt bs)]
      exact ih
    have high : ofBytes (b :: bs) / 256 ^ bs.length = b.toNat := by
      unfold ofBytes
      rw [Nat.mul_comm, Nat.mul_add_div pos, Nat.div_eq_of_lt (ofBytes_lt bs), Nat.add_zero]
    calc bytesBE (b :: bs).length (ofBytes (b :: bs))
      _ = BitVec.ofNat 8 (ofBytes (b :: bs) / 256 ^ bs.length) :: bytesBE bs.length (ofBytes (b :: bs)) := rfl
      _ = b :: bs := by rw [high, low, BitVec.ofNat_toNat, BitVec.setWidth_eq]

section
variable {n w : Nat} (whole : 256 ^ n = 2 ^ w)
include whole

/-- A word of whole bytes is read back from its bytes. -/
theorem word_bytesBE (v : BitVec w) : BitVec.ofNat w (ofBytes (bytesBE n v.toNat)) = v := by
  rw [ofBytes_bytesBE, whole, Nat.mod_eq_of_lt v.isLt, BitVec.ofNat_toNat, BitVec.setWidth_eq]

theorem bytesBE_word {bs : List Byte} (length : bs.length = n) : bytesBE n (BitVec.ofNat w (ofBytes bs)).toNat = bs := by
  subst length
  rw [BitVec.toNat_ofNat, ← whole, Nat.mod_eq_of_lt (ofBytes_lt bs), bytesBE_ofBytes]

end

/-! ## Receiving a frame (R189) -/

/-- The bytes that complete a frame in progress end it. -/
theorem takeBytes_complete {len : Byte} {body : List Byte} (good : badLength len = false) (size : body.length = len.toNat + 2)
    (more : List Byte) (some_ : more ≠ []) : ∀ (f : FrameIn) (s : State), s.link.receiver.frame = some f → f.lastAt = s.clock →
      f.bytes ++ more = len :: body →
      more.foldl State.takeByte s = s.setReceiver { frame := none, ended := some { f with bytes := len :: body } } := by
  induction more with
  | nil => exact absurd rfl some_
  | cons b more ih =>
    intro f s open_ now joined
    have fresh : f.stale s.clock = false := by simp [FrameIn.stale, now]
    have fine : f.badLength = false := by
      unfold FrameIn.badLength
      split
      next l e =>
        rw [e, List.singleton_append, List.cons.injEq] at joined
        rw [joined.1]
        exact good
      · rfl
      · rfl
    have grown : (f.bytes ++ [b]) ++ more = len :: body := by rw [← joined, List.append_assoc]; rfl
    have took : s.takeByte b = if (f.add b s.clock).whole then s.setReceiver { frame := none, ended := some (f.add b s.clock) }
        else s.setReceiver { s.link.receiver with frame := some (f.add b s.clock) } := by
      unfold State.takeByte
      rw [open_]
      exact if_neg (by simp [fresh, fine])
    rw [List.foldl_cons, took]
    cases more with
    | nil =>
      rw [List.append_nil] at grown
      have whole : (f.add b s.clock).whole = true := by
        unfold FrameIn.whole FrameIn.add
        rw [grown]
        simpa using size
      rw [if_pos whole]
      unfold FrameIn.add
      rw [grown, ← now]
      rfl
    | cons c rest =>
      have part : ¬(f.add b s.clock).whole = true := by
        unfold FrameIn.whole FrameIn.add
        cases e : f.bytes ++ [b] with
        | nil => simp at e
        | cons l tail =>
          rw [e] at grown
          obtain ⟨rfl, tails⟩ := List.cons.inj grown
          have sum : tail.length + (rest.length + 1) = body.length := by
            rw [← tails]
            exact (List.length_append (as := tail) (bs := c :: rest)).symm
          simp only [beq_iff_eq]
          omega
      rw [if_neg part]
      refine (ih (List.cons_ne_nil c rest) (f.add b s.clock)
        (s.setReceiver { s.link.receiver with frame := some (f.add b s.clock) }) rfl rfl grown).trans ?_
      unfold FrameIn.add
      rw [now]
      rfl

/-- Settles O51: the sync byte begins the frame, and the bytes that follow complete it. -/
theorem frameBytesAreReadBack : Obligations.FrameBytesAreReadBack := by
  intro kind tag payload s short hunting
  have count : (BitVec.ofNat 8 (payload.length + 2)).toNat = payload.length + 2 := by
    rw [BitVec.toNat_ofNat]
    exact Nat.mod_eq_of_lt (by omega)
  have good : badLength (BitVec.ofNat 8 (payload.length + 2)) = false := by
    unfold badLength
    rw [count]
    simp
    omega
  have synced : s.takeByte 0xC3 = s.setReceiver { s.link.receiver with
      frame := some { bytes := [], lastAt := s.clock, busyAtSync := s.link.outstanding.isSome } } := by
    unfold State.takeByte
    rw [hunting]
    rfl
  let covered : List Byte := BitVec.ofNat 8 (payload.length + 2) :: kind :: tag :: payload
  let crc := bytesBE 2 (crc16 covered).toNat
  have crcTwo : crc.length = 2 := rfl
  have covers : (covered ++ crc).take ((covered ++ crc).length - 2) = covered := by
    rw [List.length_append, crcTwo, Nat.add_sub_cancel, List.take_left']
    rfl
  refine ⟨{ bytes := covered ++ crc, lastAt := s.clock, busyAtSync := s.link.outstanding.isSome }, ?_, rfl, rfl, ?_, ?_, rfl,
    fun b u => rfl⟩
  · unfold frameBytes
    rw [List.cons_append, List.foldl_cons, synced]
    exact takeBytes_complete (body := kind :: tag :: payload ++ crc) good (by simp [crcTwo, count]) (covered ++ crc)
      (List.cons_ne_nil _ _) { bytes := [], lastAt := s.clock, busyAtSync := s.link.outstanding.isSome } (s.setReceiver _) rfl rfl rfl
  · unfold FrameIn.payload FrameIn.covered
    rw [covers]
    rfl
  · unfold FrameIn.crcMatches FrameIn.sentCrc FrameIn.covered
    rw [covers]
    have sent : (covered ++ crc).drop ((covered ++ crc).length - 2) = crc := by
      rw [List.length_append, crcTwo, Nat.add_sub_cancel, List.drop_left']
      rfl
    rw [sent]
    refine decide_eq_true ?_
    rw [ofBytes_bytesBE]
    exact Nat.mod_eq_of_lt (crc16 covered).isLt

end Sys2Proof.Machine
end

section
/-! A framed request and its command (11_the_serial_link.md): each payload is read back as the fields it was written from, and a payload
of the right length is that of a request. -/

namespace Sys2Proof.Machine

/-! ## Reading a request's fields back (R201) -/

theorem word16_bytesBE (v : BitVec 16) : BitVec.ofNat 16 (ofBytes (bytesBE 2 v.toNat)) = v := word_bytesBE rfl v
theorem word24_bytesBE (v : BitVec 24) : BitVec.ofNat 24 (ofBytes (bytesBE 3 v.toNat)) = v := word_bytesBE rfl v
theorem word48_bytesBE (v : BitVec 48) : BitVec.ofNat 48 (ofBytes (bytesBE 6 v.toNat)) = v := word_bytesBE rfl v

theorem channelFieldsOf_payload (n : Byte) (f : ChannelFields) : channelFieldsOf (n :: channelPayload f) = f := by
  cases f
  exact ChannelFields.mk.injEq .. ▸ ⟨rfl, rfl, rfl, rfl, word16_bytesBE _, rfl, rfl, word16_bytesBE _, word16_bytesBE _,
    word16_bytesBE _, word16_bytesBE _, word16_bytesBE _, word16_bytesBE _, word24_bytesBE _, word16_bytesBE _, word16_bytesBE _⟩

theorem fanFieldsOf_payload (n : Byte) (f : FanFields) : fanFieldsOf (n :: fanPayload f) = f := by
  cases f
  exact FanFields.mk.injEq .. ▸ ⟨rfl, rfl, rfl, rfl, word16_bytesBE _, word16_bytesBE _, rfl, word16_bytesBE _, word16_bytesBE _⟩

theorem probeFieldsOf_payload (n : Byte) (f : ProbeFields) : probeFieldsOf (n :: probePayload f) = f := by
  cases f
  exact ProbeFields.mk.injEq .. ▸ ⟨rfl, rfl, rfl, word16_bytesBE _⟩

theorem arbiterFieldsOf_payload (f : ArbiterFields) : arbiterFieldsOf (f.k :: bytesBE 2 f.w.toNat ++ [f.g]) = f := by
  cases f
  exact ArbiterFields.mk.injEq .. ▸ ⟨rfl, word16_bytesBE _, rfl⟩

theorem scheduleFieldsOf_payload (f : ScheduleFields) : scheduleFieldsOf (schedulePayload f) = f := by
  cases f
  exact ScheduleFields.mk.injEq .. ▸ ⟨word48_bytesBE _, rfl, rfl, rfl, rfl, word24_bytesBE _, rfl, rfl, word24_bytesBE _⟩

/-! ### Fields after a list -/

theorem flatten_singletons (bs : List Byte) : (bs.map fun b => [b]).flatten = bs := by
  induction bs with
  | nil => rfl
  | cons b bs ih => exact congrArg (b :: ·) ih

theorem listBE_bytes (bs : List Byte) : listBE (bs.map fun b => [b]) = BitVec.ofNat 8 bs.length :: bs := by
  unfold listBE
  rw [flatten_singletons, List.length_map]

theorem count_toNat {n : Nat} (h : n < 256) : (BitVec.ofNat 8 n).toNat = n := by
  rw [BitVec.toNat_ofNat]
  exact Nat.mod_eq_of_lt h

section
variable {head tail : List Byte} {n : Nat} (size : head.length = n)
include size

theorem byteAt_append (i : Nat) : byteAt (head ++ tail) (n + i) = byteAt tail i := by
  subst size
  unfold byteAt
  rw [List.getD_append_right _ _ _ _ (Nat.le_add_right ..), Nat.add_sub_cancel_left]

theorem word16At_append (i : Nat) : word16At (head ++ tail) (n + i) = word16At tail i := by
  subst size
  unfold word16At numberAt
  rw [← List.drop_drop, List.drop_left]

end

theorem zoneFieldsOf_payload (z : Byte) (f : ZoneFields) (short : f.order.length ≤ 220) : zoneFieldsOf (z :: zonePayload f) = f := by
  obtain ⟨vote, order, idle, base, boost, purge, floor_, t1, t2, t3, hysteresis, hold, coupled, linger⟩ := f
  dsimp only at short
  let tail : List Byte := [idle, base, boost, purge, floor_] ++ bytesBE 2 t1.toNat ++ bytesBE 2 t2.toNat ++ bytesBE 2 t3.toNat
    ++ [hysteresis] ++ bytesBE 2 hold.toNat ++ [coupled] ++ bytesBE 2 linger.toNat
  have joined : z :: zonePayload ⟨vote, order, idle, base, boost, purge, floor_, t1, t2, t3, hysteresis, hold, coupled, linger⟩ =
      (z :: vote :: BitVec.ofNat 8 order.length :: order) ++ tail := by
    unfold zonePayload
    rw [listBE_bytes]
    simp [tail]
  have size : (z :: vote :: BitVec.ofNat 8 order.length :: order).length = order.length + 3 := rfl
  have count : zoneOrderCount ((z :: vote :: BitVec.ofNat 8 order.length :: order) ++ tail) = order.length :=
    count_toNat (by omega)
  rw [joined]
  unfold zoneFieldsOf
  rw [count]
  refine ZoneFields.mk.injEq .. ▸ ⟨rfl, ?_, byteAt_append size 0, byteAt_append size 1, byteAt_append size 2,
    byteAt_append size 3, byteAt_append size 4, (word16At_append size 5).trans (word16_bytesBE _),
    (word16At_append size 7).trans (word16_bytesBE _), (word16At_append size 9).trans (word16_bytesBE _), byteAt_append size 11,
    (word16At_append size 12).trans (word16_bytesBE _), byteAt_append size 14, (word16At_append size 15).trans (word16_bytesBE _)⟩
  exact List.take_left' rfl

theorem zoneBytes_fit (z : Byte) (f : ZoneFields) (short : f.order.length ≤ 220) :
    (3 ≤ (z :: zonePayload f).length && decide ((z :: zonePayload f).length = 20 + zoneOrderCount (z :: zonePayload f))) = true := by
  have count : zoneOrderCount (z :: zonePayload f) = f.order.length := by
    unfold zonePayload
    rw [listBE_bytes]
    exact count_toNat (by omega)
  rw [count]
  unfold zonePayload
  rw [listBE_bytes]
  simp
  omega

/-- The words of a list of words, by their places. -/
theorem words_drop_take (xs : List (BitVec 16)) (k : Nat) (h : k < xs.length) :
    (((xs.map fun n => bytesBE 2 n.toNat).flatten).drop (2 * k)).take 2 = bytesBE 2 (xs[k]).toNat := by
  induction xs generalizing k with
  | nil => cases h
  | cons x xs ih =>
    cases k with
    | zero => rfl
    | succ k => exact ih k (Nat.lt_of_succ_lt_succ h)

theorem words_length (xs : List (BitVec 16)) : ((xs.map fun n => bytesBE 2 n.toNat).flatten).length = 2 * xs.length := by
  induction xs with
  | nil => rfl
  | cons x xs ih =>
    rw [List.map_cons, List.flatten_cons, List.length_append, bytesBE_length, ih, List.length_cons]
    omega

theorem profileBytes_length (n : Byte) (v : Vector (BitVec 16) 10) :
    (n :: (v.toList.map fun n => bytesBE 2 n.toNat).flatten).length = 21 := by
  rw [List.length_cons, words_length, Vector.length_toList]

theorem profileWords_payload (n : Byte) (v : Vector (BitVec 16) 10) :
    (Vector.ofFn fun k : Fin 10 => word16At (n :: (v.toList.map fun n => bytesBE 2 n.toNat).flatten) (1 + 2 * k.val)) = v := by
  refine Vector.ext fun k hk => ?_
  rw [Vector.getElem_ofFn]
  have taken := words_drop_take v.toList k (by simpa using hk)
  unfold word16At numberAt
  rw [Nat.add_comm 1, List.drop_succ_cons, taken, word16_bytesBE]
  simp

/-! ## A framed request is read back (R191) -/

theorem ofLength_of {n : Nat} {p : List Byte} (h : p.length = n) (act : State → Answer) : ofLength n p act = act := by
  unfold ofLength
  rw [decide_eq_true h]
  rfl

theorem withLength_of {fits : Bool} (h : fits = true) (act : State → Answer) : withLength fits act = act := by
  rw [h]
  rfl

theorem answerRequest_unknown {kind : Byte} (p : List Byte) (unnamed : kind ∉ requestKinds) :
    answerRequest kind p = fun s => refuse s .unknownKind := by
  have differs (n : Nat) (small : n < 256) (named : BitVec.ofNat 8 n ∈ requestKinds) : kind.toNat ≠ n := by
    rintro rfl
    rw [BitVec.ofNat_toNat, BitVec.setWidth_eq] at named
    exact unnamed named
  unfold answerRequest
  split
  all_goals first | rfl | exact absurd ‹_› (differs _ (by decide) (by decide))

/-- The payload of a request is read back as that request. -/
theorem answerRequest_payload {c : Instr} {kind tag : Byte} (h : requestOf c = some (kind, tag)) (fits : wellFormed c = true) :
    answerRequest kind (requestPayload c) = answerOf c := by
  cases c
  case unknownKind t k =>
    change (if k.toNat < 0x80 ∧ k ∉ requestKinds then some (k, t) else none) = some (kind, tag) at h
    split at h
    next unnamed =>
      cases h
      exact answerRequest_unknown _ unnamed.2
    · cases h
  all_goals cases h
  case clearFlags n flags =>
    have short : flags.length ≤ 238 := of_decide_eq_true fits
    change answerRequest 0x11 (n :: listBE (flags.map fun b => [b])) = _
    rw [listBE_bytes]
    exact withLength_of (by simp [byteAt, count_toNat (show flags.length < 256 by omega)]; omega) _
  case mask classes =>
    have short : classes.length ≤ 239 := of_decide_eq_true fits
    change answerRequest 0x12 (listBE (classes.map fun b => [b])) = _
    rw [listBE_bytes]
    exact withLength_of (by simp [byteAt, count_toNat (show classes.length < 256 by omega)]; omega) _
  case fanStart n d => exact (ofLength_of rfl _).trans (congrArg (answerFanStart n) (word24_bytesBE d))
  case span n d => exact (ofLength_of rfl _).trans (congrArg (answerSpan n) (word16_bytesBE d))
  case setTime d => exact (ofLength_of rfl _).trans (congrArg answerSetTime (word48_bytesBE d))
  case setTrim d b => exact (ofLength_of rfl _).trans (congrArg (answerSetTrim · b) (word16_bytesBE d))
  case schedule f => exact (ofLength_of rfl _).trans (congrArg answerSchedule (scheduleFieldsOf_payload f))
  case setChannel n f => exact (ofLength_of rfl _).trans (congrArg (answerSetChannel n) (channelFieldsOf_payload n f))
  case setProfile n v =>
    exact (ofLength_of (profileBytes_length n v) _).trans (congrArg (answerSetProfile n) (profileWords_payload n v))
  case setZone n f =>
    have short : f.order.length ≤ 220 := of_decide_eq_true fits
    exact (withLength_of (zoneBytes_fit n f short) _).trans (congrArg (answerSetZone n) (zoneFieldsOf_payload n f short))
  case setFan n f => exact (ofLength_of rfl _).trans (congrArg (answerSetFan n) (fanFieldsOf_payload n f))
  case setProbe n f => exact (ofLength_of rfl _).trans (congrArg (answerSetProbe n) (probeFieldsOf_payload n f))
  case setArbiter f => exact (ofLength_of rfl _).trans (congrArg answerSetArbiter (arbiterFieldsOf_payload f))
  all_goals exact ofLength_of rfl _

/-! ## A payload of the right length is that of a request (R191) -/

section
variable (p : List Byte) (i : Nat)

theorem drop_byte (h : i < p.length) : p.drop i = byteAt p i :: p.drop (i + 1) := by
  rw [List.drop_eq_getElem_cons h]
  unfold byteAt
  rw [List.getD_eq_getElem _ _ h]

theorem drop_bytes {n w : Nat} (whole : 256 ^ n = 2 ^ w) (h : i + n ≤ p.length) :
    p.drop i = bytesBE n (BitVec.ofNat w (numberAt p i n)).toNat ++ p.drop (i + n) := by
  unfold numberAt
  rw [bytesBE_word whole (by rw [List.length_take, List.length_drop]; omega), ← List.drop_drop, List.take_append_drop]

theorem drop_word16 (h : i + 2 ≤ p.length) : p.drop i = bytesBE 2 (word16At p i).toNat ++ p.drop (i + 2) := drop_bytes p i rfl h
theorem drop_word24 (h : i + 3 ≤ p.length) : p.drop i = bytesBE 3 (word24At p i).toNat ++ p.drop (i + 3) := drop_bytes p i rfl h
theorem drop_word48 (h : i + 6 ≤ p.length) : p.drop i = bytesBE 6 (word48At p i).toNat ++ p.drop (i + 6) := drop_bytes p i rfl h

end

section
variable {p : List Byte}

theorem channelPayload_fieldsOf (size : p.length = 28) : byteAt p 0 :: channelPayload (channelFieldsOf p) = p := by
  have e : p = p.drop 0 := rfl
  rw [drop_byte p 0 (by omega), drop_byte p 1 (by omega), drop_byte p 2 (by omega), drop_byte p 3 (by omega),
    drop_byte p 4 (by omega), drop_word16 p 5 (by omega), drop_byte p 7 (by omega), drop_byte p 8 (by omega),
    drop_word16 p 9 (by omega), drop_word16 p 11 (by omega), drop_word16 p 13 (by omega), drop_word16 p 15 (by omega),
    drop_word16 p 17 (by omega), drop_word16 p 19 (by omega), drop_word24 p 21 (by omega), drop_word16 p 24 (by omega),
    drop_word16 p 26 (by omega), List.drop_eq_nil_of_le (i := 26 + 2) (by omega)] at e
  simpa [channelPayload, channelFieldsOf] using e.symm

theorem fanPayload_fieldsOf (size : p.length = 14) : byteAt p 0 :: fanPayload (fanFieldsOf p) = p := by
  have e : p = p.drop 0 := rfl
  rw [drop_byte p 0 (by omega), drop_byte p 1 (by omega), drop_byte p 2 (by omega), drop_byte p 3 (by omega),
    drop_byte p 4 (by omega), drop_word16 p 5 (by omega), drop_word16 p 7 (by omega), drop_byte p 9 (by omega),
    drop_word16 p 10 (by omega), drop_word16 p 12 (by omega), List.drop_eq_nil_of_le (i := 12 + 2) (by omega)] at e
  simpa [fanPayload, fanFieldsOf] using e.symm

theorem probePayload_fieldsOf (size : p.length = 6) : byteAt p 0 :: probePayload (probeFieldsOf p) = p := by
  have e : p = p.drop 0 := rfl
  rw [drop_byte p 0 (by omega), drop_byte p 1 (by omega), drop_byte p 2 (by omega), drop_byte p 3 (by omega),
    drop_word16 p 4 (by omega), List.drop_eq_nil_of_le (i := 4 + 2) (by omega)] at e
  simpa [probePayload, probeFieldsOf] using e.symm

theorem arbiterPayload_fieldsOf (size : p.length = 4) :
    (arbiterFieldsOf p).k :: bytesBE 2 (arbiterFieldsOf p).w.toNat ++ [(arbiterFieldsOf p).g] = p := by
  have e : p = p.drop 0 := rfl
  rw [drop_byte p 0 (by omega), drop_word16 p 1 (by omega), drop_byte p 3 (by omega),
    List.drop_eq_nil_of_le (i := 3 + 1) (by omega)] at e
  simpa [arbiterFieldsOf] using e.symm

theorem schedulePayload_fieldsOf (size : p.length = 18) : schedulePayload (scheduleFieldsOf p) = p := by
  have e : p = p.drop 0 := rfl
  rw [drop_word48 p 0 (by omega), drop_byte p 6 (by omega), drop_byte p 7 (by omega), drop_byte p 8 (by omega),
    drop_byte p 9 (by omega), drop_word24 p 10 (by omega), drop_byte p 13 (by omega), drop_byte p 14 (by omega),
    drop_word24 p 15 (by omega), List.drop_eq_nil_of_le (i := 15 + 3) (by omega)] at e
  simpa [schedulePayload, scheduleFieldsOf] using e.symm

theorem zonePayload_fieldsOf (size : p.length = 20 + zoneOrderCount p) :
    byteAt p 0 :: zonePayload (zoneFieldsOf p) = p := by
  have e : p = p.drop 0 := rfl
  rw [drop_byte p 0 (by omega), drop_byte p 1 (by omega), drop_byte p 2 (by omega),
    ← List.take_append_drop (zoneOrderCount p) (p.drop (2 + 1)), List.drop_drop, Nat.add_comm (2 + 1)] at e
  generalize order : (p.drop (2 + 1)).take (zoneOrderCount p) = o at e
  have length : o.length = zoneOrderCount p := by
    rw [← order, List.length_take, List.length_drop]
    omega
  have count : BitVec.ofNat 8 (zoneOrderCount p) = byteAt p 2 := by
    unfold zoneOrderCount
    rw [BitVec.ofNat_toNat, BitVec.setWidth_eq]
  unfold zonePayload zoneFieldsOf
  dsimp only
  rw [order, listBE_bytes, length, count]
  generalize zoneOrderCount p = n at *
  rw [drop_byte p (n + 3) (by omega), drop_byte p (n + 4) (by omega), drop_byte p (n + 5) (by omega), drop_byte p (n + 6) (by omega),
    drop_byte p (n + 7) (by omega), drop_word16 p (n + 8) (by omega), drop_word16 p (n + 10) (by omega),
    drop_word16 p (n + 12) (by omega), drop_byte p (n + 14) (by omega), drop_word16 p (n + 15) (by omega),
    drop_byte p (n + 17) (by omega), drop_word16 p (n + 18) (by omega), List.drop_eq_nil_of_le (i := n + 18 + 2) (by omega)] at e
  simpa using e.symm

theorem byte_count {i k : Nat} (size : p.length = k + (byteAt p i).toNat) : BitVec.ofNat 8 (p.drop k).length = byteAt p i := by
  rw [List.length_drop, size, Nat.add_sub_cancel_left, BitVec.ofNat_toNat, BitVec.setWidth_eq]

theorem clearFlagsPayload_of (some_ : 2 ≤ p.length) (size : p.length = 2 + (byteAt p 1).toNat) :
    byteAt p 0 :: listBE ((p.drop 2).map fun b => [b]) = p := by
  rw [listBE_bytes, byte_count size, ← drop_byte p 1 (by omega), ← drop_byte p 0 (by omega), List.drop_zero]

theorem maskPayload_of (some_ : 1 ≤ p.length) (size : p.length = 1 + (byteAt p 0).toNat) :
    listBE ((p.drop 1).map fun b => [b]) = p := by
  rw [listBE_bytes, byte_count size, ← drop_byte p 0 (by omega), List.drop_zero]

theorem profilePayload_words (size : p.length = 21) :
    byteAt p 0 :: ((Vector.ofFn fun k : Fin 10 => word16At p (1 + 2 * k.val)).toList.map fun n => bytesBE 2 n.toNat).flatten = p := by
  have e : p = p.drop 0 := rfl
  rw [drop_byte p 0 (by omega), drop_word16 p 1 (by omega), drop_word16 p 3 (by omega), drop_word16 p 5 (by omega),
    drop_word16 p 7 (by omega), drop_word16 p 9 (by omega), drop_word16 p 11 (by omega), drop_word16 p 13 (by omega),
    drop_word16 p 15 (by omega), drop_word16 p 17 (by omega), drop_word16 p 19 (by omega),
    List.drop_eq_nil_of_le (i := 19 + 2) (by omega)] at e
  simpa [Vector.toList_ofFn, List.ofFn_succ] using e.symm

end

/-- A frame's kind, tag and payload are those of a request. -/
def Carried (kind tag : Byte) (p : List Byte) : Prop := ∃ c, requestOf c = some (kind, tag) ∧ requestPayload c = p

/-- A payload is that of a request, or its length is refused. -/
def CarriedOrShort (kind tag : Byte) (p : List Byte) (act : State → Answer) : Prop :=
  Carried kind tag p ∨ act = fun s => refuse s .badLength

section
variable {kind tag : Byte} {p : List Byte} {act : State → Answer}

theorem carried_withLength {fits : Bool} (h : fits = true → Carried kind tag p) : CarriedOrShort kind tag p (withLength fits act) := by
  cases e : fits
  · exact .inr rfl
  · exact .inl (h e)

theorem carried_ofLength {n : Nat} (h : p.length = n → Carried kind tag p) : CarriedOrShort kind tag p (ofLength n p act) :=
  carried_withLength fun e => h (of_decide_eq_true e)

theorem carried_empty {c : Instr} (h : requestOf c = some (kind, tag)) (e : requestPayload c = []) :
    CarriedOrShort kind tag p (ofLength 0 p act) :=
  carried_ofLength fun size => ⟨c, h, e.trans (List.length_eq_zero_iff.1 size).symm⟩

theorem carried_byte {c : Byte → Instr} (h : ∀ b, requestOf (c b) = some (kind, tag)) (e : ∀ b, requestPayload (c b) = [b]) :
    CarriedOrShort kind tag p (ofLength 1 p act) :=
  carried_ofLength fun size => by
    obtain ⟨b, rfl⟩ := List.length_eq_one_iff.1 size
    exact ⟨c b, h b, e b⟩

end

theorem answerRequest_carried {kind : Byte} (tag : Byte) (p : List Byte) (named : kind ∈ requestKinds) :
    CarriedOrShort kind tag p (answerRequest kind p) := by
  simp only [requestKinds, List.mem_cons, List.not_mem_nil, or_false] at named
  rcases named with rfl | rfl | rfl | rfl | rfl | rfl | rfl | rfl | rfl | rfl | rfl | rfl | rfl | rfl | rfl | rfl | rfl | rfl | rfl |
    rfl | rfl | rfl | rfl | rfl | rfl | rfl | rfl | rfl | rfl | rfl | rfl | rfl | rfl | rfl | rfl | rfl | rfl
  · exact carried_empty (c := .status tag) rfl rfl
  · exact carried_byte (c := .readChannel tag) (fun _ => rfl) (fun _ => rfl)
  · exact carried_byte (c := .readZone tag) (fun _ => rfl) (fun _ => rfl)
  · exact carried_byte (c := .readFan tag) (fun _ => rfl) (fun _ => rfl)
  · exact carried_empty (c := .readArbiter tag) rfl rfl
  · exact carried_byte (c := .readAlarms tag) (fun _ => rfl) (fun _ => rfl)
  · exact carried_empty (c := .readNotices tag) rfl rfl
  · exact carried_byte (c := .readProbe tag) (fun _ => rfl) (fun _ => rfl)
  · exact carried_empty (c := .readTime tag) rfl rfl
  · exact carried_empty (c := .readSchedule tag) rfl rfl
  · exact carried_byte (c := .acknowledge tag) (fun _ => rfl) (fun _ => rfl)
  · refine carried_withLength fun fits => ⟨.clearFlags tag (byteAt p 0) (p.drop 2), rfl, ?_⟩
    obtain ⟨some_, size⟩ := Bool.and_eq_true_iff.1 fits
    exact clearFlagsPayload_of (of_decide_eq_true some_) (of_decide_eq_true size)
  · refine carried_withLength fun fits => ⟨.mask tag (p.drop 1), rfl, ?_⟩
    obtain ⟨some_, size⟩ := Bool.and_eq_true_iff.1 fits
    exact maskPayload_of (of_decide_eq_true some_) (of_decide_eq_true size)
  · exact carried_empty (c := .lampTest tag) rfl rfl
  · exact carried_byte (c := .trace tag) (fun _ => rfl) (fun _ => rfl)
  · refine carried_ofLength fun size => ⟨.fanStart tag (byteAt p 0) (word24At p 1), rfl, ?_⟩
    rw [requestPayload, ← List.append_nil (bytesBE 3 _), ← List.drop_eq_nil_of_le (as := p) (i := 1 + 3) (by omega),
      ← drop_word24 p 1 (by omega), ← drop_byte p 0 (by omega), List.drop_zero]
  · exact carried_byte (c := .fanStop tag) (fun _ => rfl) (fun _ => rfl)
  · exact carried_byte (c := .fanLock tag) (fun _ => rfl) (fun _ => rfl)
  · exact carried_byte (c := .fanRelease tag) (fun _ => rfl) (fun _ => rfl)
  · exact carried_byte (c := .rotate tag) (fun _ => rfl) (fun _ => rfl)
  · exact carried_byte (c := .channelHold tag) (fun _ => rfl) (fun _ => rfl)
  · exact carried_byte (c := .channelResume tag) (fun _ => rfl) (fun _ => rfl)
  · exact carried_byte (c := .zero tag) (fun _ => rfl) (fun _ => rfl)
  · refine carried_ofLength fun size => ⟨.span tag (byteAt p 0) (word16At p 1), rfl, ?_⟩
    rw [requestPayload, ← List.append_nil (bytesBE 2 _), ← List.drop_eq_nil_of_le (as := p) (i := 1 + 2) (by omega),
      ← drop_word16 p 1 (by omega), ← drop_byte p 0 (by omega), List.drop_zero]
  · exact carried_byte (c := .bump tag) (fun _ => rfl) (fun _ => rfl)
  · refine carried_ofLength fun size => ⟨.setTime tag (word48At p 0), rfl, ?_⟩
    rw [requestPayload, ← List.append_nil (bytesBE 6 _), ← List.drop_eq_nil_of_le (as := p) (i := 0 + 6) (by omega),
      ← drop_word48 p 0 (by omega), List.drop_zero]
  · refine carried_ofLength fun size => ⟨.setTrim tag (word16At p 0) (byteAt p 2), rfl, ?_⟩
    rw [requestPayload, ← List.drop_eq_nil_of_le (as := p) (i := 2 + 1) (by omega), ← drop_byte p 2 (by omega),
      ← drop_word16 p 0 (by omega), List.drop_zero]
  · exact carried_ofLength fun size => ⟨.schedule tag (scheduleFieldsOf p), rfl, schedulePayload_fieldsOf size⟩
  · exact carried_byte (c := .cancel tag) (fun _ => rfl) (fun _ => rfl)
  · exact carried_ofLength fun size => ⟨.setChannel tag (byteAt p 0) (channelFieldsOf p), rfl, channelPayload_fieldsOf size⟩
  · exact carried_ofLength fun size => ⟨.setProfile tag (byteAt p 0) _, rfl, profilePayload_words size⟩
  · refine carried_withLength fun fits => ⟨.setZone tag (byteAt p 0) (zoneFieldsOf p), rfl, ?_⟩
    obtain ⟨-, size⟩ := Bool.and_eq_true_iff.1 fits
    exact zonePayload_fieldsOf (of_decide_eq_true size)
  · exact carried_ofLength fun size => ⟨.setFan tag (byteAt p 0) (fanFieldsOf p), rfl, fanPayload_fieldsOf size⟩
  · exact carried_ofLength fun size => ⟨.setProbe tag (byteAt p 0) (probeFieldsOf p), rfl, probePayload_fieldsOf size⟩
  · exact carried_ofLength fun size => ⟨.setArbiter tag (arbiterFieldsOf p), rfl, arbiterPayload_fieldsOf size⟩
  · exact carried_empty (c := .arm tag) rfl rfl
  · exact carried_empty (c := .disarm tag) rfl rfl

/-! ## The statement -/

theorem requestOf_below {c : Instr} {kind tag : Byte} (h : requestOf c = some (kind, tag)) : kind.toNat < 0x80 := by
  cases c
  case unknownKind t k =>
    change (if k.toNat < 0x80 ∧ k ∉ requestKinds then some (k, t) else none) = some (kind, tag) at h
    split at h
    next below =>
      cases h
      exact below.1
    · cases h
  all_goals cases h
  all_goals decide

theorem execFrameReceived_taken {s : State} {f : FrameIn} (ended : s.link.receiver.ended = some f) (good : f.crcMatches = true)
    (below : f.kind.toNat < 0x80) (idle : f.busyAtSync = false) : exec .frameReceived s =
      .next (takeRequest f.kind f.tag (answerRequest f.kind f.payload) s.frameChecked) := by
  have kept : ¬f.discarded = true := by
    unfold FrameIn.discarded
    rw [idle, decide_eq_false (by omega)]
    simp
  change execFrameReceived s = _
  unfold execFrameReceived
  rw [ended]
  refine (if_neg (by simp [good])).trans (if_neg kept)

/-- Settles O52: the payload is read back as its request, and one that is no request's is refused. -/
theorem framedRequestActsAsItsCommand : Obligations.FramedRequestActsAsItsCommand := by
  refine ⟨fun c kind tag f s request fits ended good idle kinds tags payload => ?_, fun f s ended good idle below free => ⟨?_, ?_⟩⟩
  · have taken := execFrameReceived_taken ended good (kinds ▸ requestOf_below request) idle
    rw [kinds, tags, payload, answerRequest_payload request fits] at taken
    refine ⟨_, taken, exec_request request s.frameChecked, ?_, fun free => ?_⟩
    · rcases takeRequest_does (kind := kind) (tag := tag) (act := answerOf c) (s := s.frameChecked) with e | ⟨r, e⟩
      · rw [e]
        rfl
      · rw [e]
        exact (effect_core (answerOf_answers c s.frameChecked).effect).receiver
    · rw [takeRequest_taken (s := s.frameChecked) free]
      exact ⟨_, rfl, rfl, rfl⟩
  · intro unnamed
    rw [execFrameReceived_taken ended good below idle, answerRequest_unknown _ unnamed, takeRequest_taken (s := s.frameChecked) free]
    rfl
  · intro named none_
    rcases answerRequest_carried f.tag f.payload named with ⟨c, request, payload⟩ | short
    · exact absurd payload (none_ c request)
    · rw [execFrameReceived_taken ended good below idle, short, takeRequest_taken (s := s.frameChecked) free]
      rfl

end Sys2Proof.Machine
end

section
/-! The probes (06_spill_probes.md): each line event and each expiry is one change of one probe's record. -/

namespace Sys2Proof.Machine

/-- What a probe hands on at a change of its record (R123). -/
def Probe.handovers (p : Fin 8) (before after : Probe) : List Handover :=
  before.spillHandover after ++ changedImage (keySpill p) before.spillImage after.spillImage
    ++ changedImage (keyProbeFault p) before.faultImage after.faultImage

theorem moveProbe_out (w : Work) (p : Fin 8) (r : Probe) : (w.moveProbe p r).out = w.out ++ (w.st.probe p).handovers p r := rfl

theorem mem_changedImage {k : Fin 82} {a b : Image} {h : Handover} : h ∈ changedImage k a b ↔ a ≠ b ∧ h = .condition k b := by
  unfold changedImage
  split
  next same => simp [same]
  next ne => simp [ne]

theorem changedImage_self (k : Fin 82) (a : Image) : changedImage k a a = [] := if_pos rfl

theorem mem_spillHandover {before after : Probe} {h : Handover} : h ∈ before.spillHandover after ↔
    before.contribution ≠ after.contribution ∧ ∃ z, after.cfg.zone = some z ∧ h = .spill z := by
  unfold Probe.spillHandover
  split
  next same => simp [same]
  next ne =>
    rcases after.cfg.zone with _ | z
    · simp
    · simp [ne]

theorem mem_probeHandovers {p : Fin 8} {before after : Probe} {h : Handover} (mem : h ∈ before.handovers p after) :
    (before.contribution ≠ after.contribution ∧ ∃ z, after.cfg.zone = some z ∧ h = .spill z) ∨ ∃ k image, h = .condition k image := by
  unfold Probe.handovers at mem
  rcases List.mem_append.1 mem with mem | mem
  · rcases List.mem_append.1 mem with mem | mem
    · exact .inl (mem_spillHandover.1 mem)
    · exact .inr ⟨_, _, (mem_changedImage.1 mem).2⟩
  · exact .inr ⟨_, _, (mem_changedImage.1 mem).2⟩

theorem spill_mem_probeHandovers {p : Fin 8} {before after : Probe} {z : Fin 6} : Handover.spill z ∈ before.handovers p after ↔
    before.contribution ≠ after.contribution ∧ after.cfg.zone = some z := by
  constructor
  · intro mem
    rcases mem_probeHandovers mem with ⟨ne, y, zone, e⟩ | ⟨k, image, e⟩
    · cases e
      exact ⟨ne, zone⟩
    · cases e
  · rintro ⟨ne, zone⟩
    exact List.mem_append_left _ (List.mem_append_left _ (mem_spillHandover.2 ⟨ne, z, zone, rfl⟩))

theorem probeHandovers_length (p : Fin 8) (before after : Probe) : (before.handovers p after).length ≤ 3 := by
  have spill : (before.spillHandover after).length ≤ 1 := by
    unfold Probe.spillHandover
    split
    · exact Nat.zero_le 1
    · rcases after.cfg.zone with _ | z
      · exact Nat.zero_le 1
      · exact le_rfl
  have image (k : Fin 82) (a b : Image) : (changedImage k a b).length ≤ 1 := by
    unfold changedImage
    split
    · exact Nat.zero_le 1
    · exact le_rfl
  unfold Probe.handovers
  have one := image (keySpill p) before.spillImage after.spillImage
  have two := image (keyProbeFault p) before.faultImage after.faultImage
  rw [List.length_append, List.length_append]
  omega

/-- A command that changes one probe's record leads to that change, and reaches the zone of a changed contribution (R123). -/
theorem leads_probe {c : Instr} {s : State} {p : Fin 8} {r : Probe} (h : exec c s = .next (s.does fun w => w.moveProbe p r))
    (cfg : r.cfg = (s.probe p).cfg) : Leads c s (s.setProbe p r)
      (spilt := fun z => (s.probe p).contribution ≠ r.contribution ∧ MappedTo s p z) := by
  have out : (s.begin.moveProbe p r).out = (s.probe p).handovers p r := rfl
  refine leads_does h rfl ?_ ?_ ?_ ?_
  · rw [out]
    exact (probeHandovers_length ..).trans (by decide)
  · intro x mem
    rw [out] at mem
    rcases mem_probeHandovers mem with ⟨-, z, -, rfl⟩ | ⟨k, image, rfl⟩
    · rfl
    · rfl
  · intro z
    rw [out]
    refine iff_of_false (fun told => ?_) id
    rcases mem_probeHandovers told.1 with ⟨-, y, -, e⟩ | ⟨k, image, e⟩
    · cases e
    · cases e
  · intro z
    rw [out, spill_mem_probeHandovers, cfg]
    exact ⟨fun ⟨⟨ne, zone⟩, active⟩ => ⟨ne, active, zone⟩, fun ⟨ne, active, zone⟩ => ⟨⟨ne, zone⟩, active⟩⟩

theorem leads_probe_spilt {c : Instr} {s : State} {p : Fin 8} {r : Probe} {q : Prop}
    (h : exec c s = .next (s.does fun w => w.moveProbe p r)) (cfg : r.cfg = (s.probe p).cfg)
    (e : (s.probe p).contribution ≠ r.contribution ↔ q) : Leads c s (s.setProbe p r) (spilt := fun z => q ∧ MappedTo s p z) := by
  obtain ⟨t, ran, settled⟩ := leads_probe h cfg
  exact ⟨t, ran, settled.keeps, settled.rests, settled.ungranted,
    settled.zones.congr (fun _ => .rfl) (fun z => and_congr_left fun _ => e)⟩

/-- Where the contribution stays, no zone is reached. -/
theorem leads_probe_quiet {c : Instr} {s : State} {p : Fin 8} {r : Probe} (h : exec c s = .next (s.does fun w => w.moveProbe p r))
    (cfg : r.cfg = (s.probe p).cfg) (same : (s.probe p).contribution = r.contribution) : Leads c s (s.setProbe p r) := by
  obtain ⟨t, ran, settled⟩ := leads_probe h cfg
  exact ⟨t, ran, settled.keeps, settled.rests, settled.ungranted,
    settled.zones.congr (fun _ => .rfl) (fun z => iff_of_false (fun spilt => spilt.1 same) id)⟩

/-! ## The line (R115, R118 to R122) -/

/-- Where nothing of a probe but its line changes, nothing is handed on. -/
theorem exec_probeLineChange_plain {p : Fin 8} {x : LineResistance} {s : State} {r : Probe}
    (e : (if s.setup.armed && (s.probe p).cfg.present then
      { s.probe p with line := classify x }.takeLine (s.probe p).line (classify x) s.clock s.room
      else { s.probe p with line := classify x }) = r)
    (out : (s.probe p).handovers p r = []) : exec (.probeLineChange p x) s = .next (s.setProbe p r) := by
  subst e
  exact congrArg Host.Outcome.next (does_quiet s out)

theorem handovers_line (p : Fin 8) (r : Probe) (c : LineCond) : r.handovers p { r with line := c } = [] := by
  have spill : r.spillHandover { r with line := c } = [] := if_pos rfl
  unfold Probe.handovers
  rw [spill]
  exact congrArg₂ (· ++ ·) (changedImage_self ..) (changedImage_self ..)

section
variable {s : State} {p : Fin 8} {x : LineResistance} {r : Probe}

/-- An evaluated probe takes its line. -/
theorem leads_line (armed : s.setup.armed = true) (present : (s.probe p).cfg.present = true)
    (e : { s.probe p with line := classify x }.takeLine (s.probe p).line (classify x) s.clock
      s.room = r) (cfg : r.cfg = (s.probe p).cfg) (same : (s.probe p).contribution = r.contribution) :
    Leads (.probeLineChange p x) s (s.setProbe p r) := by
  subst e
  refine leads_probe_quiet (?_ : execProbeLineChange p x s = _) cfg same
  unfold execProbeLineChange
  dsimp only
  rw [armed, present]
  rfl

end

section
variable {r : Probe} {old : LineCond} {clock room : Nat}

theorem takeLine_wet {new : LineCond} (wet : new = .wet) (ne : new ≠ old) (state : r.state ≠ some .fault) :
    r.takeLine old new clock room = r.takeWet clock room := by
  subst wet
  exact (if_neg ne.symm).trans (if_neg state)

theorem takeLine_dry {new : LineCond} (dry : new = .dry) (ne : new ≠ old) (state : r.state ≠ some .fault) :
    r.takeLine old new clock room = r.takeDry clock := by
  subst dry
  exact (if_neg ne.symm).trans (if_neg state)

theorem takeLine_fault {new : LineCond} (ne : new ≠ old) (state : r.state = some .fault) :
    r.takeLine old new clock room = r.takeInFault new clock := (if_neg ne.symm).trans (if_pos state)

theorem takeLine_bad {new : LineCond} (ne : new ≠ old) (state : r.state ≠ some .fault) (bad : new.good = false) :
    r.takeLine old new clock room = if old.good then r.loseLine clock else r := by
  refine (if_neg ne.symm).trans ((if_neg state).trans ?_)
  cases new
  case wet => cases bad
  case dry => cases bad
  all_goals rfl

end

theorem seconds_eq (n : Nat) : seconds n = 1000 * n := Nat.mul_comm ..

section
variable {r : Probe} {clock room : Nat}

theorem takeWet_dry (state : r.state = some .dry) : r.takeWet clock room = { r with
    state := some .wetPending, wetSince := some room, supervisionTimer := none
    debounceTimer := startTimer clock (1000 * r.cfg.wetDebounce) } := by
  cases r
  cases state
  rw [← seconds_eq]
  rfl

theorem takeWet_wetPending (state : r.state = some .wetPending) : r.takeWet clock room = { r with
    supervisionTimer := none, debounceTimer := startTimer clock (1000 * r.cfg.wetDebounce) } := by
  cases r
  cases state
  rw [← seconds_eq]
  rfl

theorem takeWet_wet (state : r.state = some .wet) : r.takeWet clock room = { r with supervisionTimer := none } := by
  cases r
  cases state
  rfl

theorem takeWet_drying (state : r.state = some .drying) :
    r.takeWet clock room = { r with state := some .wet, supervisionTimer := none, debounceTimer := none } := by
  cases r
  cases state
  rfl

theorem takeDry_dry (state : r.state = some .dry) : r.takeDry clock = { r with supervisionTimer := none } := by
  cases r
  cases state
  rfl

theorem takeDry_wetPending (state : r.state = some .wetPending) : r.takeDry clock =
    { r with state := some .dry, wetSince := none, supervisionTimer := none, debounceTimer := none } := by
  cases r
  cases state
  rfl

theorem takeDry_wet (state : r.state = some .wet) : r.takeDry clock = { r with
    state := some .drying, supervisionTimer := none, debounceTimer := startTimer clock (1000 * r.cfg.dryDebounce) } := by
  cases r
  cases state
  rw [← seconds_eq]
  rfl

theorem takeDry_drying (state : r.state = some .drying) : r.takeDry clock = { r with
    supervisionTimer := none, debounceTimer := startTimer clock (1000 * r.cfg.dryDebounce) } := by
  cases r
  cases state
  rw [← seconds_eq]
  rfl

end

/-! ## Expiries (R121, R122) -/

section
variable {r : Probe} {room : Nat}

theorem fail_held (state : r.state = some .wet ∨ r.state = some .drying) : r.fail = { r with
    state := some .fault, heldSpill := true, detail := detailOf r.line, debounceTimer := none, supervisionTimer := none } := by
  unfold Probe.fail
  rcases state with e | e
  · simp [e]
  · simp [e]

theorem fail_released (state : r.state = some .dry ∨ r.state = some .wetPending) : r.fail = { r with
    state := some .fault, heldSpill := false, wetSince := none, detail := detailOf r.line, debounceTimer := none
    supervisionTimer := none } := by
  unfold Probe.fail
  rcases state with e | e
  · simp [e]
  · simp [e]

theorem recover_dry (line : r.line = .dry) : r.recover room = { r with
    state := some .dry, heldSpill := false, detail := none, wetSince := none, contribution := false, debounceTimer := none } := by
  unfold Probe.recover
  cases r
  cases line
  rfl

theorem recover_wet (line : r.line = .wet) : r.recover room = { r with
    state := some .wet, heldSpill := false, detail := none, contribution := true, debounceTimer := none
    wetSince := if r.heldSpill then r.wetSince else some room } := by
  unfold Probe.recover
  cases r
  cases line
  rfl

end

/-! ## The statement -/

theorem setProbe_self (s : State) (p : Fin 8) : s.setProbe p (s.probe p) = s := by
  unfold State.setProbe State.probe
  rw [vset_vget]

theorem classify_iff (n : Nat) : (n < 100000 → classify (.milliohms n) = .shorted) ∧
    (100000 ≤ n → n < 2000000 → classify (.milliohms n) = .wet) ∧
    (2000000 ≤ n → n ≤ 20000000 → classify (.milliohms n) = .dry) ∧ (20000000 < n → classify (.milliohms n) = .opened) := by
  refine ⟨fun low => if_pos low, fun a b => ?_, fun a b => ?_, fun a => ?_⟩
  · exact (if_neg (by omega)).trans (if_pos b)
  · exact (if_neg (by omega)).trans ((if_neg (by omega)).trans (if_pos b))
  · exact (if_neg (by omega)).trans ((if_neg (by omega)).trans (if_neg (by omega)))

/-- Settles O45: each line event and each expiry is a change of one probe's record. -/
theorem probesActByTheirState : Obligations.ProbesActByTheirState := by
  refine ⟨classify_iff, rfl, fun p x t s => ⟨fun idle => ?_, fun same => ?_, fun armed present ne => ?_, fun le => ?_⟩⟩
  · refine exec_probeLineChange_plain (if_neg ?_) (handovers_line ..)
    rcases idle with e | e <;> simp [e]
  · have whole : { s.probe p with line := classify x } = s.probe p := by rw [same]
    refine (exec_probeLineChange_plain (r := s.probe p) ?_ ?_).trans ?_
    · rw [whole, same]
      split
      · exact if_pos rfl
      · rfl
    · rw [← whole]
      exact handovers_line ..
    · rw [setProbe_self]
  · refine ⟨fun state wet => ?_, fun state dry => ?_, fun state dry => ?_, fun state wet => ?_, fun state wet => ?_, fun state dry => ?_,
      fun held => ?_, fun state bad good => ?_, fun state bad worse => ?_, fun state => ?_⟩
    · exact leads_line armed present ((takeLine_wet wet ne (by simp [state])).trans (takeWet_dry state)) rfl rfl
    · exact leads_line armed present ((takeLine_dry dry ne (by simp [state])).trans (takeDry_wetPending state)) rfl rfl
    · exact leads_line armed present ((takeLine_dry dry ne (by simp [state])).trans (takeDry_wet state)) rfl rfl
    · exact leads_line armed present ((takeLine_wet wet ne (by simp [state])).trans (takeWet_drying state)) rfl rfl
    · exact leads_line armed present ((takeLine_wet wet ne (by simp [state])).trans (takeWet_wetPending state)) rfl rfl
    · exact leads_line armed present ((takeLine_dry dry ne (by simp [state])).trans (takeDry_drying state)) rfl rfl
    · rcases held with ⟨state, dry⟩ | ⟨state, wet⟩
      · exact leads_line armed present ((takeLine_dry dry ne (by simp [state])).trans (takeDry_dry state)) rfl rfl
      · exact leads_line armed present ((takeLine_wet wet ne (by simp [state])).trans (takeWet_wet state)) rfl rfl
    · exact leads_line armed present ((takeLine_bad (r := { s.probe p with line := classify x }) ne state bad).trans
        (if_pos good)) rfl rfl
    · exact leads_line armed present ((takeLine_bad (r := { s.probe p with line := classify x }) ne state bad).trans
        (if_neg (by simp [worse]))) rfl rfl
    · exact leads_line armed present (takeLine_fault ne state) rfl rfl
  · refine ⟨fun state timer => ?_, fun state timer => ?_, fun state timer => ?_, fun state timer => ?_, fun state timer line => ?_,
      fun state timer line => ?_⟩
    · exact leads_probe_spilt (r := (s.probe p).becomeWet) (if_pos ⟨state, due_of_le timer le⟩) rfl Bool.eq_false_iff.symm
    · exact leads_probe_spilt (r := (s.probe p).becomeDry) (if_pos ⟨state, due_of_le timer le⟩) rfl Bool.ne_false_iff
    · refine leads_probe_quiet (?_ : exec (.supervisionExpiry p) s = .next (s.does fun w => w.moveProbe p _)) rfl rfl
      rw [← fail_held state]
      exact if_pos ⟨by rcases state with e | e <;> simp [e], due_of_le timer le⟩
    · refine leads_probe_quiet (?_ : exec (.supervisionExpiry p) s = .next (s.does fun w => w.moveProbe p _)) rfl rfl
      rw [← fail_released state]
      exact if_pos ⟨by rcases state with e | e <;> simp [e], due_of_le timer le⟩
    · refine leads_probe_spilt (?_ : exec (.recoveryExpiry p) s = .next (s.does fun w => w.moveProbe p _)) rfl Bool.ne_false_iff
      rw [← recover_dry line (room := s.room)]
      exact if_pos ⟨state, due_of_le timer le⟩
    · refine leads_probe_spilt (?_ : exec (.recoveryExpiry p) s = .next (s.does fun w => w.moveProbe p _)) rfl Bool.eq_false_iff.symm
      rw [← recover_wet line (room := s.time.room)]
      exact if_pos ⟨state, due_of_le timer le⟩

end Sys2Proof.Machine
end

section
/-! A fall of SERVICE (08_calibration_and_bump_testing.md, 8.8): the channels under test leave it one by one. -/

namespace Sys2Proof.Machine

/-! ## The notices of a cascade -/

theorem Consequences.of_eq {q r : List Notice} (e : r = q) : Consequences q r := e ▸ .refl q

theorem consequences_foldl (bs : List NoticeBody) (s : State) (all : ∀ b ∈ bs, b.consequent = true) :
    Consequences s.link.notices (bs.foldl State.notice s).link.notices := by
  induction bs generalizing s with
  | nil => exact .refl _
  | cons b bs ih =>
    exact (Consequences.one s (all b List.mem_cons_self)).trans (ih (s.notice b) fun x mem => all x (List.mem_cons_of_mem b mem))

theorem passNotes_consequent {a : Alarm} {armed : Bool} {notes : List NoticeBody} (all : ∀ b ∈ notes, b.consequent = true) :
    ∀ b ∈ a.passNotes armed notes, b.consequent = true := by
  intro b mem
  unfold Alarm.passNotes regimeNotices permitNotices at mem
  rcases List.mem_append.1 mem with mem | mem
  · rcases List.mem_append.1 mem with mem | mem
    · exact all b mem
    · split at mem
      · cases mem
      · rw [List.mem_singleton.1 mem]
        rfl
  · split at mem
    · cases mem
    · rw [List.mem_singleton.1 mem]
      rfl

theorem alarmPass_consequences (w : Work) (changed : Bool) {notes : List NoticeBody} (all : ∀ b ∈ notes, b.consequent = true) :
    Consequences w.st.link.notices (w.alarmPass changed notes).st.link.notices := by
  obtain ⟨n, e⟩ := alarmPass_st w changed notes
  rw [e, judge_st]
  exact consequences_foldl _ (w.st.setAlarm (w.st.alarm.judged changed w.st.setup.armed)) (passNotes_consequent all)

theorem alarmNotice_consequent (k : Fin 82) (before after : Option Record) : ∀ b ∈ alarmNotice k before after, b.consequent = true := by
  rw [alarmNotice_eq]
  intro b mem
  split at mem
  · cases mem
  · rw [List.mem_singleton.1 mem]
    rfl

theorem take_consequences (w : Work) (h : Handover) : Consequences w.st.link.notices (w.take h).st.link.notices := by
  have pass (a : Alarm) : Consequences w.st.link.notices ((w.map fun s => s.setAlarm a).alarmPass false []).st.link.notices :=
    alarmPass_consequences (w.map fun s => s.setAlarm a) false fun b mem => nomatch mem
  cases h with
  | condition k image => exact alarmPass_consequences _ _ (alarmNotice_consequent _ _ _)
  | paused z yes => exact pass { w.st.alarm with paused := vset w.st.alarm.paused z yes }
  | eqz active => exact pass { w.st.alarm with eqz := active }
  | member z => exact (within_ifActive w z (within_evaluateSight w z)).notices
  | coupling z active => exact (within_ifActive w z (within_takeCoupling w z active)).notices
  | spill z => exact (within_ifActive w z (within_takeSpill w z)).notices
  | critical z => exact (within_ifActive w z (within_evaluateDemand w z _ true)).notices
  | availability z => exact (within_ifActive w z (within_evaluateAllocation w z _)).notices
  | toArbiter => exact (within_consider w).notices
  | toFans fell => exact (within_ite (within_forEachOpen (fun v i => within_testExercise v i) _ _) (.refl w.st)).notices
  | completion i =>
    refine .of_eq ?_
    change (w.st.buildTrace i).link.notices = _
    unfold State.buildTrace
    split
    · rfl
    · rfl

theorem settle_consequences (fuel : Nat) (w : Work) : Consequences w.st.link.notices (w.settle fuel).st.link.notices := by
  induction fuel generalizing w with
  | zero => exact .refl _
  | succ fuel ih =>
    unfold Work.settle
    split
    · exact .refl _
    · next h rest _ =>
      have taken : Consequences w.st.link.notices ({ w with out := rest }.take h).st.link.notices :=
        take_consequences { w with out := rest } h
      exact taken.trans (ih ({ w with out := rest }.take h))

/-! ## Channels that a zone sees alike -/

/-- The members' configurations, their health and what the healthy ones read are the same, so that a zone senses the same. -/
structure SeenAlike (c d : Channel) : Prop where
  cfg : d.cfg = c.cfg
  failed : d.failed = c.failed
  reads : (if d.healthy then d.reading else none) = if c.healthy then c.reading else none

/-- The state with these channels. -/
def State.rechanneled (s : State) (cs : Vector Channel 16) : State := { s with chans := cs }

theorem rechanneled_chan (s : State) (cs : Vector Channel 16) (i : Fin 16) : (s.rechanneled cs).chan i = vget cs i := rfl

section
variable {s : State} {cs : Vector Channel 16} (alike : ∀ i, SeenAlike (s.chan i) (vget cs i))
include alike

theorem rechanneled_members (z : Fin 6) : (s.rechanneled cs).members z = s.members z := by
  unfold State.members Channel.memberOf
  simp only [rechanneled_chan, (alike _).cfg]

theorem rechanneled_readings (z : Fin 6) : (s.rechanneled cs).healthyReadings z = s.healthyReadings z := by
  unfold State.healthyReadings
  rw [rechanneled_members alike]
  exact List.filterMap_congr fun i _ => (alike i).reads

theorem rechanneled_sense (z : Fin 6) : (s.rechanneled cs).sense z = s.sense z := by
  unfold State.sense
  simp only [rechanneled_members alike, rechanneled_readings alike, rechanneled_chan, (alike _).failed]
  rfl

theorem ZonesKept.rechanneled {t : State} {told spilt : Fin 6 → Prop} (h : ZonesKept s t told spilt) (ds : Vector Channel 16) :
    ZonesKept (s.rechanneled cs) (t.rechanneled ds) told spilt := fun z =>
  ⟨fun p => by rw [rechanneled_sense alike]; exact (h z).sensed p, (h z).unsensed, (h z).coupling, (h z).lingerTimer,
    (h z).spilled, (h z).unspilled⟩

end

theorem CascadeKeeps.rechanneled {s t : State} (h : CascadeKeeps s t) (cs : Vector Channel 16) :
    CascadeKeeps (s.rechanneled cs) (t.rechanneled cs) := { h with chans := rfl }

/-! ## One channel leaves its test -/

/-- A channel under test (R165). -/
def UnderTest (c : Channel) : Prop := c.state = .hold ∨ c.state = .bump

/-- The record with which a channel leaves its test at a fall of SERVICE (R165). -/
def Channel.recovering (c : Channel) (clock : Nat) : Channel := c.endTest.enter .recover clock

theorem recovering_eq (c : Channel) (clock : Nat) : c.recovering clock =
    { c with state := .recover, timer := some (clock + 600000), bumpTimer := none, bumpPeak := none, armedSpan := none } :=
  enter_recover ..

theorem recovering_seenAlike {c : Channel} (h : UnderTest c) (clock : Nat) : SeenAlike c (c.recovering clock) := by
  refine ⟨rfl, ?_, ?_⟩
  · have same : c.failed = false := by
      unfold Channel.failed
      rcases h with e | e <;> rw [e]
    exact same.symm
  · have sick : c.healthy = false := by
      unfold Channel.healthy
      rcases h with e | e <;> simp [e]
    rw [sick]
    rfl

/-- The TEST RESULT notice of a channel whose test SERVICE's fall ends (R165, R166). -/
def State.abortNotice (s : State) (i : Fin 16) : Notice :=
  noticeAt s.time.room (.testResult i (.testAborted .service (s.chan i).armedSpan.isSome))

/-- Its CHANNEL CHANGE notice (R12). -/
def State.recoverNotice (s : State) (i : Fin 16) : Notice := noticeAt s.time.room (.channelChange i .recover)

/-- A channel under test leaves it: its two notices are queued, its zone senses anew, and nothing is left to be handed over. -/
structure Fallen (s : State) (i : Fin 16) (t : State) : Prop where
  settles : Settles (s.channelMoved i ((s.chan i).recovering s.time.clock)
    [.testResult i (.testAborted .service (s.chan i).armedSpan.isSome)]) t (MemberOf s i)
  noted : Consequences (enqueue (enqueue s.link.notices (s.abortNotice i)) (s.recoverNotice i)) t.link.notices

theorem Conditions.weight {w : Work} {n : Nat} (h : Conditions w n) : (w.out.map Handover.weight).sum ≤ 121 * n := by
  have each : ∀ x ∈ w.out.map Handover.weight, x ≤ 121 := by
    intro x mem
    obtain ⟨y, posted, rfl⟩ := List.mem_map.1 mem
    obtain ⟨k, image, rfl⟩ := h.all y posted
    change (if classOf k ∈ [AlarmClass.gas, .blind, .spill] then 121 else 1) ≤ 121
    split
    · exact le_rfl
    · decide
  have sum := List.sum_le_card_nsmul _ 121 each
  rw [List.length_map, smul_eq_mul] at sum
  have few := h.few
  omega

theorem moveAndTell_light {w : Work} (h : Conditions w 2) (i : Fin 16) : ((w.tellZone i).out.map Handover.weight).sum ≤ 3848 := by
  have light := h.weight
  rw [tellZone_out, List.map_append, List.sum_append]
  cases (w.st.chan i).memberOf with
  | none => exact light.trans (by decide)
  | some z => exact (Nat.add_le_add_right light 245).trans (by decide)

theorem serviceFalls_fallen {w : Work} {i : Fin 16} (idle : w.out = []) (h : UnderTest (w.st.chan i)) :
    Fallen w.st i (w.serviceFalls i).st ∧ (w.serviceFalls i).out = [] := by
  have changed : (w.st.chan i).state ≠ ((w.st.chan i).recovering w.st.time.clock).state := by
    change _ ≠ ChannelState.recover
    rcases h with e | e <;> rw [e] <;> decide
  obtain ⟨s, out⟩ := w
  cases idle
  have moved : (((s.begin.noticeAll [.testResult i (.testAborted .service (s.chan i).armedSpan.isSome)]).moveAndTell i
      ((s.chan i).recovering s.time.clock))).st = s.channelMoved i ((s.chan i).recovering s.time.clock)
        [.testResult i (.testAborted .service (s.chan i).armedSpan.isSome)] :=
    (tellZone_st ..).trans (moveChannel_changed changed)
  refine ⟨⟨does_moveAndTell _ changed rfl, ?_⟩, ?_⟩
  · have queued := settle_consequences settleLimit
      ((s.begin.noticeAll [.testResult i (.testAborted .service (s.chan i).armedSpan.isSome)]).moveAndTell i
        ((s.chan i).recovering s.time.clock))
    rw [moved] at queued
    exact queued
  · refine finish_done _ ?_
    exact moveAndTell_light (((conditions_begin s).notice _).moveChannel i _) i


/-! ## The channels leave their tests one by one -/

theorem channelMoved_chan (s : State) (i : Fin 16) (c : Channel) (notes : List NoticeBody) (j : Fin 16) :
    (s.channelMoved i c notes).chan j = if i = j then c else s.chan j := by
  change ((notes.foldl State.notice s).setChan i c).chan j = _
  rw [State.setChan_chan, foldl_notice_chan]

theorem SeenAlike.refl (c : Channel) : SeenAlike c c := ⟨rfl, rfl, rfl⟩

theorem SeenAlike.symm {c d : Channel} (h : SeenAlike c d) : SeenAlike d c := ⟨h.cfg.symm, h.failed.symm, h.reads.symm⟩

theorem SeenAlike.trans {b c d : Channel} (h : SeenAlike b c) (k : SeenAlike c d) : SeenAlike b d :=
  ⟨k.cfg.trans h.cfg, k.failed.trans h.failed, k.reads.trans h.reads⟩

/-- The channels of `xs` have left their tests, from `s` to `t`; seen with the channels `cs`, which every zone sees alike. -/
structure FallenAll (s : State) (cs : Vector Channel 16) (xs : List (Fin 16)) (t : State) : Prop where
  keeps : CascadeKeeps (s.rechanneled cs) (t.rechanneled cs)
  chans : ∀ i, t.chan i = if i ∈ xs then (s.chan i).recovering s.time.clock else s.chan i
  zones : ZonesKept (s.rechanneled cs) (t.rechanneled cs) (fun z => ∃ i ∈ xs, MemberOf s i z)
  noted : ∃ more : List Notice, t.link.notices = more.foldl enqueue s.link.notices ∧
    (more.filter fun n => !n.body.consequent) = xs.flatMap fun i => [s.abortNotice i, s.recoverNotice i]

section
variable {s : State} {cs : Vector Channel 16} (alike : ∀ i, SeenAlike (s.chan i) (vget cs i))

theorem fallenAll_nil (cs : Vector Channel 16) (n : Nat) : FallenAll s cs [] { s with choices := n } where
  keeps := (settles_choices (s.rechanneled cs) n).keeps
  chans _ := (if_neg List.not_mem_nil).symm
  zones := (ZonesKept.refl (s.rechanneled cs)).congr (fun _ => ⟨False.elim, fun ⟨_, mem, _⟩ => nomatch mem⟩) fun _ => .rfl
  noted := ⟨[], rfl, rfl⟩

include alike in
theorem FallenAll.concat {xs : List (Fin 16)} {t u : State} {i : Fin 16} (h : FallenAll s cs xs t) (fresh : i ∉ xs)
    (all : ∀ j ∈ xs, UnderTest (s.chan j)) (test : UnderTest (s.chan i)) (fell : Fallen t i u) : FallenAll s cs (xs ++ [i]) u := by
  have chan : t.chan i = s.chan i := (h.chans i).trans (if_neg fresh)
  have time : t.time = s.time := h.keeps.time
  let v := t.channelMoved i ((t.chan i).recovering t.time.clock)
    [.testResult i (.testAborted .service (t.chan i).armedSpan.isSome)]
  have chans (j : Fin 16) : v.chan j = if j ∈ xs ++ [i] then (s.chan j).recovering s.time.clock else s.chan j := by
    refine (channelMoved_chan ..).trans ?_
    by_cases e : i = j
    · subst e
      rw [if_pos rfl, if_pos (by simp), chan, time]
    · rw [if_neg e, h.chans j]
      exact if_congr (by simp [Ne.symm e]) rfl rfl
  have seen (j : Fin 16) : SeenAlike (v.chan j) (vget cs j) := by
    rw [chans]
    split
    next mem =>
      have under : UnderTest (s.chan j) := by
        rcases List.mem_append.1 mem with old | new
        · exact all j old
        · rw [List.mem_singleton.1 new]
          exact test
      exact (recovering_seenAlike under _).symm.trans (alike j)
    · exact alike j
  have moved : CascadeKeeps (t.rechanneled cs) (v.rechanneled cs) :=
    ⟨rfl, rfl, rfl, rfl, rfl, rfl, rfl, rfl, rfl, rfl, rfl, rfl, rfl, rfl, rfl, rfl, rfl, rfl, fun _ => .refl _, fun _ => .refl _,
      ⟨[_, _], rfl⟩⟩
  have keeps := h.keeps.trans moved
  refine ⟨keeps.trans (fell.settles.keeps.rechanneled cs), fun j => ?_, ?_, ?_⟩
  · rw [← chans j]
    unfold State.chan
    rw [fell.settles.keeps.chans]
  · have before : ZonesKept (s.rechanneled cs) (v.rechanneled cs) (fun z => ∃ i ∈ xs, MemberOf s i z) :=
      h.zones.then fun _ => .refl _
    refine (ZonesKept.seq keeps before (fell.settles.zones.rechanneled seen cs)).congr (fun z => ?_) fun _ => or_false _ |>.to_iff
    have member : MemberOf t i z ↔ MemberOf s i z := by
      unfold MemberOf
      rw [chan]
      exact and_congr_left fun _ => iff_of_eq (congrArg (· = true) (h.keeps.zones z).active)
    simp only [List.mem_append, List.mem_singleton, or_and_right, exists_or, exists_eq_left]
    exact or_congr .rfl member
  · obtain ⟨more, e, own⟩ := h.noted
    obtain ⟨cascade, e', consequent⟩ := fell.noted
    refine ⟨more ++ [s.abortNotice i, s.recoverNotice i] ++ cascade, ?_, ?_⟩
    · have same : t.abortNotice i = s.abortNotice i ∧ t.recoverNotice i = s.recoverNotice i := by
        unfold State.abortNotice State.recoverNotice
        rw [chan, time]
        exact ⟨rfl, rfl⟩
      rw [e', same.1, same.2, e, List.foldl_append, List.foldl_append]
      rfl
    · have quiet : (cascade.filter fun n => !n.body.consequent) = [] :=
        List.filter_eq_nil_iff.2 fun n mem => by simp [consequent n mem]
      rw [List.filter_append, List.filter_append, quiet, own, List.append_nil, List.flatMap_append]
      rfl

include alike in
/-- The channels fall one after another, whatever the order. -/
theorem FallenAll.foldl {xs ys : List (Fin 16)} {w : Work} (h : FallenAll s cs xs w.st) (idle : w.out = [])
    (nodup : (xs ++ ys).Nodup) (all : ∀ i ∈ xs ++ ys, UnderTest (s.chan i)) :
    FallenAll s cs (xs ++ ys) (ys.foldl Work.serviceFalls w).st ∧ (ys.foldl Work.serviceFalls w).out = [] := by
  induction ys generalizing xs w with
  | nil =>
    rw [List.append_nil]
    exact ⟨h, idle⟩
  | cons i ys ih =>
    have fresh : i ∉ xs := fun mem => (List.nodup_append.1 nodup).2.2 i mem i List.mem_cons_self rfl
    have chan : w.st.chan i = s.chan i := (h.chans i).trans (if_neg fresh)
    have test : UnderTest (s.chan i) := all i (List.mem_append_right xs List.mem_cons_self)
    obtain ⟨fell, done⟩ := serviceFalls_fallen idle (chan ▸ test)
    have next := h.concat alike fresh (fun j mem => all j (List.mem_append_left _ mem)) test fell
    rw [List.append_cons] at nodup all ⊢
    exact ih next done nodup all

end

/-! ## The notices of the fall -/

section
variable (s : State)

theorem abortNotice_inj {i j : Fin 16} (h : s.abortNotice i = s.abortNotice j) : i = j := by
  injection h with _ body
  injection body

theorem recoverNotice_inj {i j : Fin 16} (h : s.recoverNotice i = s.recoverNotice j) : i = j := by
  injection h with _ body
  injection body

theorem abortNotice_ne (i j : Fin 16) : s.abortNotice i ≠ s.recoverNotice j := by
  intro h
  injection h with _ body
  cases body

theorem pairs_nodup {xs : List (Fin 16)} (nodup : xs.Nodup) :
    (xs.flatMap fun i => [s.abortNotice i, s.recoverNotice i]).Nodup := by
  refine List.nodup_flatMap.2 ⟨fun i _ => by simp [abortNotice_ne s], nodup.imp fun {i j} ne => ?_⟩
  intro n here there
  simp only [List.mem_cons, List.not_mem_nil, or_false] at here there
  rcases here with rfl | rfl <;> rcases there with e | e
  · exact ne (abortNotice_inj s e)
  · exact abortNotice_ne s _ _ e
  · exact abortNotice_ne s _ _ e.symm
  · exact ne (recoverNotice_inj s e)

/-- The fall's own notices are among those queued as often and in the order in which the channels fell. -/
theorem fall_noted {xs : List (Fin 16)} (nodup : xs.Nodup) {more : List Notice}
    (own : (more.filter fun n => !n.body.consequent) = xs.flatMap fun i => [s.abortNotice i, s.recoverNotice i]) :
    (∀ i ∈ xs, more.count (s.abortNotice i) = 1 ∧ more.count (s.recoverNotice i) = 1 ∧
      [s.abortNotice i, s.recoverNotice i].Sublist more) ∧
    (∀ n ∈ more, ∀ i result, n.body = .testResult i result → n = s.abortNotice i ∧ i ∈ xs) ∧
    ∀ n ∈ more, ∀ i state, n.body = .channelChange i state → n = s.recoverNotice i ∧ i ∈ xs := by
  have counted {n : Notice} (kind : n.body.consequent = false)
      (mem : n ∈ xs.flatMap fun i => [s.abortNotice i, s.recoverNotice i]) : more.count n = 1 := by
    rw [← List.count_filter (p := fun n => !n.body.consequent) (by simp [kind]), own]
    exact List.count_eq_one_of_mem (pairs_nodup s nodup) mem
  have queued {n : Notice} (mem : n ∈ more) (kind : n.body.consequent = false) :
      ∃ i ∈ xs, n = s.abortNotice i ∨ n = s.recoverNotice i := by
    have kept : n ∈ xs.flatMap fun i => [s.abortNotice i, s.recoverNotice i] := by
      rw [← own]
      exact List.mem_filter.2 ⟨mem, by simp [kind]⟩
    simpa using kept
  refine ⟨fun i mem => ⟨?_, ?_, ?_⟩, fun n mem i result body => ?_, fun n mem i state body => ?_⟩
  · exact counted rfl (List.mem_flatMap.2 ⟨i, mem, List.mem_cons_self⟩)
  · exact counted rfl (List.mem_flatMap.2 ⟨i, mem, List.mem_cons_of_mem _ List.mem_cons_self⟩)
  · refine List.Sublist.trans ?_ (List.filter_sublist (p := fun n => !n.body.consequent))
    obtain ⟨before, after, rfl⟩ := List.append_of_mem mem
    rw [own, List.flatMap_append, List.flatMap_cons]
    exact (List.sublist_append_left _ _).trans (List.sublist_append_right _ _)
  · obtain ⟨j, listed, rfl | rfl⟩ := queued mem (by rw [body]; rfl)
    · cases body
      exact ⟨rfl, listed⟩
    · cases body
  · obtain ⟨j, listed, rfl | rfl⟩ := queued mem (by rw [body]; rfl)
    · cases body
    · cases body
      exact ⟨rfl, listed⟩

end

/-! ## The statement -/

/-- The channels once every test has ended. -/
def State.fallenChannels (s : State) : Vector Channel 16 :=
  Vector.ofFn fun i => if i ∈ s.underTest then (s.chan i).recovering s.time.clock else s.chan i

theorem mem_underTest {s : State} {i : Fin 16} : i ∈ s.underTest ↔ UnderTest (s.chan i) := by
  simp [State.underTest, UnderTest]

theorem fallenChannels_alike (s : State) (i : Fin 16) : SeenAlike (s.chan i) (vget s.fallenChannels i) := by
  unfold State.fallenChannels
  rw [vget_ofFn]
  split
  next mem => exact recovering_seenAlike (mem_underTest.1 mem) _
  · exact .refl _

/-- Every channel under test falls, in some order. -/
theorem fall_all (s : State) : ∃ xs, xs.Perm s.underTest ∧
    FallenAll s s.fallenChannels xs (s.does fun w => w.forEachOpen s.underTest Work.serviceFalls) := by
  have order := inOpenOrder_perm s.choices s.underTest
  have nodup : (inOpenOrder s.choices s.underTest).Nodup := order.nodup_iff.2 ((List.nodup_finRange 16).filter _)
  obtain ⟨fell, done⟩ := FallenAll.foldl (fallenChannels_alike s) (xs := []) (ys := inOpenOrder s.choices s.underTest)
    (w := { st := { s with choices := s.choices + drawsFor s.underTest }, out := [] })
    (fallenAll_nil s.fallenChannels (s.choices + drawsFor s.underTest)) rfl nodup
    fun i mem => mem_underTest.1 (order.mem_iff.1 mem)
  refine ⟨_, order, ?_⟩
  rw [does_quiet s done]
  exact fell

theorem ZonesKept.of_setLink {s t : State} {l : Link} {told spilt : Fin 6 → Prop} (h : ZonesKept (s.setLink l) t told spilt) :
    ZonesKept s t told spilt := fun z =>
  ⟨(h z).sensed, (h z).unsensed, (h z).coupling, (h z).lingerTimer, (h z).spilled, (h z).unspilled⟩

theorem setLink_rechanneled (s : State) (l : Link) (cs : Vector Channel 16) :
    (s.setLink l).rechanneled cs = (s.rechanneled cs).setLink l := rfl

/-- The state once SERVICE's debounced level has taken this value. -/
def State.serviced (s : State) (level : Bool) : State :=
  s.setLink { s.link with service := { s.link.service with debounced := level, timer := none } }

section
variable {s : State} {t : Nat} (timer : s.link.service.timer = some t) (le : t ≤ s.time.clock)
include timer le

theorem exec_serviceDebounce {level : Bool} (was : s.link.service.debounced = !level) : exec .serviceDebounce s =
    if level then .next (s.serviced true)
    else .next ((s.serviced false).does fun w => w.forEachOpen (s.serviced false).underTest Work.serviceFalls) := by
  have toggled : s.link.service.toggle = { s.link.service with debounced := level, timer := none } := by
    unfold Conditioner.toggle
    rw [was, Bool.not_not]
  refine (if_pos (due_of_le timer le)).trans ?_
  dsimp only
  rw [toggled]
  cases level
  · exact if_neg Bool.false_ne_true
  · exact if_pos rfl

theorem exec_serviceFall (was : s.link.service.debounced = true) : ∃ u xs, exec .serviceDebounce s = .next u ∧
    xs.Perm s.underTest ∧ FallenAll (s.serviced false) s.fallenChannels xs u := by
  obtain ⟨xs, order, fell⟩ := fall_all (s.serviced false)
  exact ⟨_, xs, (exec_serviceDebounce (level := false) timer le was).trans (if_neg Bool.false_ne_true), order, fell⟩

end

theorem FallenAll.rest {s t : State} {cs : Vector Channel 16} {xs : List (Fin 16)} (h : FallenAll s cs xs t) :
    t.link.service = s.link.service ∧ t.probes = s.probes ∧ t.time = s.time ∧ t.setup = s.setup ∧ t.profiles = s.profiles :=
  ⟨h.keeps.service, h.keeps.probes, h.keeps.time, h.keeps.setup, h.keeps.profiles⟩

theorem FallenAll.fallen {s u : State} {xs : List (Fin 16)} (order : xs.Perm s.underTest)
    (fell : FallenAll (s.serviced false) s.fallenChannels xs u) : u.chans = s.fallenChannels := by
  refine vec_ext fun i => (fell.chans i).trans ?_
  unfold State.fallenChannels
  rw [vget_ofFn]
  exact if_congr order.mem_iff rfl rfl

theorem FallenAll.zonesKept {s u : State} {xs : List (Fin 16)} (order : xs.Perm s.underTest)
    (fell : FallenAll (s.serviced false) s.fallenChannels xs u) : ZonesKept { s with chans := u.chans } u
      (fun z => ∃ i, UnderTest (s.chan i) ∧ MemberOf s i z) := by
  have zones := fell.zones
  unfold State.serviced at zones
  rw [setLink_rechanneled] at zones
  rw [fell.fallen order]
  have whole : u.rechanneled s.fallenChannels = u := by
    rw [← fell.fallen order]
    rfl
  rw [whole] at zones
  refine zones.of_setLink.congr (fun z => ?_) fun _ => .rfl
  exact exists_congr fun i => and_congr_left fun _ => order.mem_iff.trans mem_underTest

/-- Settles O47: a rise is the toggled line alone; at a fall the channels under test fall one by one. -/
theorem serviceFallEndsEveryTest : Obligations.ServiceFallEndsEveryTest := by
  intro t s timer le
  refine ⟨fun low => (exec_serviceDebounce (level := true) timer le low).trans (if_pos rfl), fun high => ?_⟩
  obtain ⟨u, xs, ended, order, fell⟩ := exec_serviceFall timer le high
  have under (i : Fin 16) : i ∈ xs ↔ UnderTest (s.chan i) := order.mem_iff.trans mem_underTest
  obtain ⟨line, rest⟩ := fell.rest
  obtain ⟨more, queued, own⟩ := fell.noted
  obtain ⟨each, results, changes⟩ := fall_noted (s.serviced false) (order.nodup_iff.2 ((List.nodup_finRange 16).filter _)) own
  refine ⟨u, ended, ?_, ?_, fun i => ?_, ⟨more, queued, fun i test => ?_, ?_, ?_⟩, ?_, rest⟩
  · exact congrArg Conditioner.debounced line
  · exact congrArg Conditioner.timer line
  · refine (fell.chans i).trans (if_congr (under i) ?_ rfl)
    exact recovering_eq ..
  · exact each i ((under i).2 test)
  · intro n mem i result body
    obtain ⟨e, listed⟩ := results n mem i result body
    exact ⟨e, (under i).1 listed⟩
  · intro n mem i state body
    obtain ⟨e, listed⟩ := changes n mem i state body
    exact ⟨e, (under i).1 listed⟩
  · exact fell.zonesKept order

end Sys2Proof.Machine
end

section
/-! What the laws of the fans and of the arbiter ask of one fan (`Fan.Fits`) and of the work at the middle of a step (`Ordered`,
`Awaited`): a hand-over that has been made and not been taken excuses what it will put in order. -/

namespace Sys2Proof.Machine

/-! ## What is asked for -/

/-- Which laws are followed beside the fans' law: that the claim sets go with the states, the start budget, and that nothing is left to
be done at once. An ARM has fans that it started in PROVING or RUNNING without a claim, until it takes their empty claim sets. -/
structure Aims where
  claims : Prop
  budget : Prop
  prompt : Prop
  started : Fin 8 → Prop

/-! ## One fan -/

/-- A fan's record and its request time obey the fans' law, and the claims' law as far as it goes with the fan's own state. -/
structure Fan.Fits (K : Aims) (setup : Setup) (i : Fin 8) (f : Fan) (request : Option Nat) : Prop where
  output : f.output = true → f.state = .proving ∨ f.state = .running
    ∨ (setup.armed = false ∧ vget setup.straps i = true ∧ vget setup.failsafeMade i = true)
  waiting : request.isSome = true ↔ f.state = .waiting
  unarmed : setup.armed = false → f.state = .unmanaged
  absent : f.cfg.present = false → f.state = .unmanaged
  managed : setup.armed = true → f.cfg.present = true → f.state ≠ .unmanaged
  unclaimed : K.claims → f.state = .idle ∨ f.takesClaims = false → f.claims = .empty
  claimed : K.claims → f.state = .waiting → f.claims.none_ = false
  stopping : K.claims → f.state = .proving ∨ f.state = .running →
    (f.stopPending = f.claims.none_ ∧ (f.claims.none_ = true → f.minRunElapsed = false)) ∨
    (K.started i ∧ f.claims.none_ = true ∧ f.stopPending = false)

section
variable {K : Aims} {setup : Setup} {i : Fin 8} {f g : Fan} {request : Option Nat}

/-- A managed fan is a present one of an ARMED part. -/
theorem Fan.Fits.armed (h : f.Fits K setup i request) (m : f.state ≠ .unmanaged) : setup.armed = true := by
  cases e : setup.armed with
  | true => rfl
  | false => exact absurd (h.unarmed e) m

theorem Fan.Fits.present (h : f.Fits K setup i request) (m : f.state ≠ .unmanaged) : f.cfg.present = true := by
  cases e : f.cfg.present with
  | true => rfl
  | false => exact absurd (h.absent e) m

/-- A fan without a request does not wait. -/
theorem Fan.Fits.unasked (h : f.Fits K setup i request) (m : f.state ≠ .waiting) : request = none := by
  cases request with
  | none => rfl
  | some t => exact absurd (h.waiting.1 rfl) m

/-- The empty claim set holds no claim. -/
theorem empty_none : Claims.empty.none_ = true := by decide

/-- A managed fan comes to another managed state. -/
theorem Fan.Fits.move (h : f.Fits K setup i request) {asked : Option Nat} (m : f.state ≠ .unmanaged) (n : g.state ≠ .unmanaged)
    (present : g.cfg.present = f.cfg.present) (output : g.output = true → g.state = .proving ∨ g.state = .running)
    (waiting : asked.isSome = true ↔ g.state = .waiting)
    (unclaimed : K.claims → g.state = .idle ∨ g.takesClaims = false → g.claims = .empty)
    (claimed : K.claims → g.state = .waiting → g.claims.none_ = false)
    (stopping : K.claims → g.state = .proving ∨ g.state = .running →
      (g.stopPending = g.claims.none_ ∧ (g.claims.none_ = true → g.minRunElapsed = false)) ∨
      (K.started i ∧ g.claims.none_ = true ∧ g.stopPending = false)) : g.Fits K setup i asked where
  output o := (output o).imp_right .inl
  waiting := waiting
  unarmed a := by rw [h.armed m] at a; cases a
  absent a := by rw [present, h.present m] at a; cases a
  managed _ _ := n
  unclaimed := unclaimed
  claimed := claimed
  stopping := stopping

/-- A write to fields that the laws do not speak of. -/
theorem Fan.Fits.congr (h : f.Fits K setup i request) (state : g.state = f.state) (output : g.output = f.output)
    (present : g.cfg.present = f.cfg.present) (claims : g.claims = f.claims) (stop : g.stopPending = f.stopPending)
    (elapsed : g.minRunElapsed = f.minRunElapsed) : g.Fits K setup i request := by
  have takes : g.takesClaims = f.takesClaims := by unfold Fan.takesClaims; rw [state]
  refine ⟨?_, ?_, ?_, ?_, ?_, ?_, ?_, ?_⟩
  · rw [output, state]; exact h.output
  · rw [state]; exact h.waiting
  · rw [state]; exact h.unarmed
  · rw [present, state]; exact h.absent
  · rw [present, state]; exact h.managed
  · rw [state, takes, claims]; exact h.unclaimed
  · rw [state, claims]; exact h.claimed
  · rw [state, claims, stop, elapsed]; exact h.stopping

theorem Fan.Fits.remeasured (h : f.Fits K setup i request) (before : Fan) (clock : Nat) :
    (f.remeasure before clock).Fits K setup i request := h.congr rfl rfl rfl rfl rfl rfl

end

/-! ## The whole -/

/-- The work keeps the fans' law and, as far as they are followed, the claims of each fan, the budget, and that no fan in IDLE but those
of `E` owes an exercise that it might take, unless the fans are still to be told of a fall of the regime. -/
structure Ordered (K : Aims) (E : Fin 8 → Prop) (w : Work) : Prop where
  fits : ∀ i, (w.st.fan i).Fits K w.st.setup i (w.st.requestTime i)
  failsafe : ∀ i ∈ w.st.setup.failsafeList, w.st.setup.armed = false ∧ vget w.st.setup.straps i = true
  budget : K.budget → ArbiterLaw w.st
  owes : K.prompt → K.claims ∧ ∀ i, ¬E i → (w.st.fan i).state = .idle → (w.st.fan i).exerciseOwed = true →
    w.st.alarm.regime.alarming = true ∨ .toFans true ∈ w.out

/-- No fan waits that might be granted a start, unless the arbiter is still to be told of a change of the regime. -/
def Awaited (K : Aims) (w : Work) : Prop :=
  K.prompt → ∀ i, (w.st.fan i).state = .waiting → w.st.arb.k ≤ w.st.arb.history.length ∨ w.st.arb.spacing.isSome = true ∨
    (w.st.alarm.regime = .critical ∧ (w.st.fan i).cfg.rating = .ordinary) ∨ .toArbiter ∈ w.out

/-- Both hold, without exception. -/
def Lawful (K : Aims) (w : Work) : Prop := Ordered K (fun _ => False) w ∧ Awaited K w

section
variable {K : Aims} {E F : Fin 8 → Prop} {w v : Work}

theorem Ordered.weaken (h : Ordered K E w) (sub : ∀ i, E i → F i) : Ordered K F w :=
  ⟨h.fits, h.failsafe, h.budget, fun p => ⟨(h.owes p).1, fun i n => (h.owes p).2 i fun e => n (sub i e)⟩⟩

theorem Ordered.all (h : Ordered K (fun _ => False) w) : Ordered K E w := h.weaken fun _ n => n.elim

/-- Work at one fan: all but that fan, its request and what is granted stays. -/
theorem Ordered.turn (h : Ordered K E w) {i : Fin 8} (within : Within w.st v.st) (others : ∀ j, j ≠ i → SameFan j w v)
    (grown : ∀ x ∈ w.out, x ∈ v.out) (budget : ArbiterLaw w.st → ArbiterLaw v.st)
    (fits : (v.st.fan i).Fits K w.st.setup i (v.st.requestTime i)) (sub : ∀ j, j ≠ i → E j → F j)
    (owes : K.prompt → ¬F i → (v.st.fan i).state = .idle → (v.st.fan i).exerciseOwed = true →
      w.st.alarm.regime.alarming = true ∨ .toFans true ∈ v.out) : Ordered K F v := by
  refine ⟨fun j => ?_, ?_, fun b => budget (h.budget b), fun p => ⟨(h.owes p).1, fun j n => ?_⟩⟩
  · rw [within.setup]
    by_cases e : j = i
    · subst e; exact fits
    · rw [(others j e).1, (others j e).2]; exact h.fits j
  · rw [within.setup]; exact h.failsafe
  · rw [within.alarm]
    by_cases e : j = i
    · subst e; exact owes p n
    · rw [(others j e).1]
      intro idle owed
      exact ((h.owes p).2 j (fun x => n (sub j e x)) idle owed).imp_right (grown _)

theorem Awaited.turn (h : Awaited K w) {i : Fin 8} (within : Within w.st v.st) (others : ∀ j, j ≠ i → SameFan j w v)
    (grown : ∀ x ∈ w.out, x ∈ v.out) (arb : v.st.arb.history = w.st.arb.history ∧ v.st.arb.spacing = w.st.arb.spacing)
    (cfg : (v.st.fan i).cfg = (w.st.fan i).cfg) (still : (v.st.fan i).state = .waiting → (w.st.fan i).state = .waiting) :
    Awaited K v := by
  intro p j waits
  rw [within.alarm, within.arb.1, arb.1, arb.2]
  have kept : (w.st.fan j).state = .waiting ∧ (v.st.fan j).cfg = (w.st.fan j).cfg := by
    by_cases e : j = i
    · subst e; exact ⟨still waits, cfg⟩
    · rw [(others j e).1] at waits ⊢
      exact ⟨waits, rfl⟩
  rw [kept.2]
  exact (h p j kept.1).imp_right (Or.imp_right (Or.imp_right (grown _)))

end

end Sys2Proof.Machine
end

section
/-! What each operation of one fan leaves: the fan's record, what it hands over, and that no other fan is reached. -/

namespace Sys2Proof.Machine

/-! ## Work at one fan -/

/-- Work that reaches no fan but `i`, no zone and no grant, and makes its hand-overs behind those that wait. -/
structure AtFan (i : Fin 8) (w v : Work) : Prop where
  within : Within w.st v.st
  others : ∀ j, j ≠ i → SameFan j w v
  zones : v.st.zones = w.st.zones
  cfg : (v.st.fan i).cfg = (w.st.fan i).cfg
  history : v.st.arb.history = w.st.arb.history
  spacing : v.st.arb.spacing = w.st.arb.spacing
  lastGrant : v.st.arb.lastGrant = w.st.arb.lastGrant
  out : ∃ new, v.out = w.out ++ new

section
variable {i : Fin 8} {u v w : Work}

theorem AtFan.refl (i : Fin 8) (w : Work) : AtFan i w w := ⟨.refl _, fun _ _ => .refl .., rfl, rfl, rfl, rfl, rfl, [], by simp⟩

theorem AtFan.trans (a : AtFan i u v) (b : AtFan i v w) : AtFan i u w := by
  obtain ⟨m, hm⟩ := a.out
  obtain ⟨n, hn⟩ := b.out
  exact ⟨a.within.trans b.within, fun j ne => (a.others j ne).trans (b.others j ne), b.zones.trans a.zones, b.cfg.trans a.cfg,
    b.history.trans a.history, b.spacing.trans a.spacing, b.lastGrant.trans a.lastGrant, m ++ n, by rw [hn, hm, List.append_assoc]⟩

theorem AtFan.grown (a : AtFan i w v) : ∀ x ∈ w.out, x ∈ v.out := by
  obtain ⟨new, h⟩ := a.out
  rw [h]
  exact fun x m => List.mem_append_left _ m

theorem AtFan.clock (a : AtFan i w v) : v.st.clock = w.st.clock := by unfold State.clock; rw [a.within.time]

theorem atFan_setFan (w : Work) (i : Fin 8) {g : State → Fan} (cfg : (g w.st).cfg = (w.st.fan i).cfg) :
    AtFan i w (w.map fun s => s.setFan i (g s)) := by
  refine ⟨within_mapFan .., fun j ne => same_setFan j w ne g, rfl, ?_, rfl, rfl, rfl, [], by simp [Work.map]⟩
  change ((w.st.setFan i (g w.st)).fan i).cfg = _
  rw [State.setFan_fan_same, cfg]

theorem atFan_setWaiting (w : Work) (i : Fin 8) (t : State → Option Nat) :
    AtFan i w (w.map fun s => s.setArb { s.arb with waiting := vset s.arb.waiting i (t s) }) :=
  ⟨within_mapArb w ⟨rfl, rfl, rfl⟩, fun j ne => same_setWaiting j w ne (g := fun s => { s.arb with waiting := vset s.arb.waiting i (t s) }) rfl,
    rfl, rfl, rfl, rfl, rfl, [], by simp [Work.map]⟩

theorem atFan_leaveWaiting (w : Work) (i : Fin 8) : AtFan i w (w.map fun s => s.leaveWaiting i) :=
  atFan_setWaiting w i fun _ => none

/-! ## A fan takes a new record -/

/-- The conditions that a fan hands over with a new record, each where it changes (R94, R95). -/
def Fan.handed (before after : Fan) (i : Fin 8) : List Handover :=
  (if before.failed = after.failed then [] else [.condition (keyFanFail i) (if after.failed then after.failImage else .inactive)]) ++
  (if before.flowNote = after.flowNote then [] else [.condition (keyFlowNote i) (if after.flowNote then .raised 1 none else .inactive)])

theorem handCondition_out (w : Work) (k : Fin 82) (was is : Bool) (now : Image) : (w.handCondition k was is now).out =
    w.out ++ if was = is then [] else [.condition k (if is then now else .inactive)] := by
  unfold Work.handCondition
  by_cases e : was = is
  · rw [if_pos e, if_pos e, List.append_nil]
  · rw [if_neg e, if_neg e]; rfl

/-- A hand-over to each of several takers, in their open order. -/
theorem forEachOpen_post_out {α : Type} (w : Work) (xs : List α) (f : α → Handover) :
    (w.forEachOpen xs fun w x => w.post (f x)).out = w.out ++ (inOpenOrder w.st.choices xs).map f := by
  have fold : ∀ (ys : List α) (v : Work), (ys.foldl (fun w x => w.post (f x)) v).out = v.out ++ ys.map f := by
    intro ys
    induction ys with
    | nil => intro v; simp
    | cons y ys ih => intro v; rw [List.foldl_cons, ih]; simp [Work.post]
  exact fold _ _

theorem moveFan_out (w : Work) (i : Fin 8) (f : Fan) : (w.moveFan i f).out = w.out ++ (w.st.fan i).handed f i ++
    if (w.st.fan i).available w.st.alarm.regime = f.available w.st.alarm.regime then []
    else (inOpenOrder w.st.choices (w.st.zonesUsing i)).map .availability := by
  have noted : ∀ (p : Prop) [Decidable p] (v : Work) (b : NoticeBody), ((if p then v else v.notice b) : Work).out = v.out ∧
      ((if p then v else v.notice b) : Work).st.choices = v.st.choices := by
    intro p _ v b
    split <;> exact ⟨rfl, rfl⟩
  have same : (f.remeasure (w.st.fan i) w.st.clock).available w.st.alarm.regime = f.available w.st.alarm.regime := rfl
  unfold Work.moveFan
  dsimp only
  rw [same]
  split
  · rw [handCondition_out, handCondition_out, (noted _ _ _).1, List.append_nil, List.append_assoc]; rfl
  · rw [forEachOpen_post_out, handCondition_st, handCondition_st, (noted _ _ _).2, handCondition_out, handCondition_out,
      (noted _ _ _).1]
    unfold Fan.handed
    simp only [List.append_assoc]
    rfl

theorem moveFan_arb (w : Work) (i : Fin 8) (f : Fan) : (w.moveFan i f).st.arb = w.st.arb ∧ (w.moveFan i f).st.zones = w.st.zones := by
  have told : ∀ (v : Work) (zs : List (Fin 6)), (v.forEachOpen zs fun w z => w.post (.availability z)).st.arb = v.st.arb ∧
      (v.forEachOpen zs fun w z => w.post (.availability z)).st.zones = v.st.zones := by
    intro v zs
    unfold Work.forEachOpen
    rw [foldl_post_st]
    exact ⟨rfl, rfl⟩
  have noted : ∀ (p : Prop) [Decidable p] (v : Work) (b : NoticeBody), ((if p then v else v.notice b) : Work).st.arb = v.st.arb ∧
      ((if p then v else v.notice b) : Work).st.zones = v.st.zones := by
    intro p _ v b
    split <;> exact ⟨rfl, rfl⟩
  unfold Work.moveFan
  dsimp only
  split
  · rw [handCondition_st, handCondition_st, (noted _ _ _).1, (noted _ _ _).2]; exact ⟨rfl, rfl⟩
  · rw [(told _ _).1, (told _ _).2, handCondition_st, handCondition_st, (noted _ _ _).1, (noted _ _ _).2]; exact ⟨rfl, rfl⟩

theorem moveFan_request (w : Work) (i : Fin 8) (f : Fan) (j : Fin 8) : (w.moveFan i f).st.requestTime j = w.st.requestTime j := by
  unfold State.requestTime
  rw [(moveFan_arb w i f).1]

theorem atFan_moveFan (w : Work) (i : Fin 8) {f : Fan} (cfg : f.cfg = (w.st.fan i).cfg) : AtFan i w (w.moveFan i f) := by
  have arb := (moveFan_arb w i f).1
  refine ⟨within_moveFan .., fun j ne => same_moveFan j w ne f, (moveFan_arb w i f).2, ?_, by rw [arb], by rw [arb], by rw [arb], ?_⟩
  · rw [moveFan_fan]; exact cfg
  · rw [moveFan_out, List.append_assoc]; exact ⟨_, rfl⟩

/-! ## Proving and running -/

theorem startTimer_seconds (clock n : Nat) : startTimer clock (seconds n) = startTimer clock (1000 * n) := by rw [seconds_eq]

/-- A fan that does not rest from airflow and shows no FLOW NOTE measures nothing (R95). -/
theorem remeasure_unmeasured {f : Fan} (still : f.still = false) (note : f.flowNote = false) (before : Fan) (clock : Nat) :
    f.remeasure before clock = { f with noteTimer := none, clearTimer := none } := by
  have a : f.measuresNote = false := by unfold Fan.measuresNote; rw [still]; rfl
  have b : f.measuresClear = false := by unfold Fan.measuresClear; rw [note]; rfl
  unfold Fan.remeasure
  rw [a, b]
  rfl

theorem nextExercise_eq (f : Fan) (clock : Nat) : f.nextExercise clock =
    if f.cfg.exInterval = 0 then none else some (clock + 3600000 * f.cfg.exInterval) := by
  unfold Fan.nextExercise startTimer hours
  by_cases h : f.cfg.exInterval = 0
  · rw [if_pos h, if_pos (by rw [h])]
  · rw [if_neg h, if_neg (by omega), Nat.mul_comm]

/-- A fan that enters PROVING, and RUNNING at once where its debounced flow is present: but for the count it is one that a grant has
started (R75, R76). -/
theorem enterProving_fan (w : Work) (i : Fin 8) : (w.enterProving i).st.fan i =
    { (w.st.fan i).startedAt w.st.time.clock with startCount := (w.st.fan i).startCount } := by
  have first : (w.moveFan i ((w.st.fan i).proving w.st.clock)).st.fan i =
      { (w.st.fan i).proving w.st.clock with noteTimer := none, clearTimer := none } := by
    rw [moveFan_fan]
    exact remeasure_unmeasured rfl rfl _ _
  have clock : (w.moveFan i ((w.st.fan i).proving w.st.clock)).st.clock = w.st.clock := by
    unfold State.clock; rw [(within_moveFan ..).time]
  have elapsed : (w.st.fan i).startedAt w.st.time.clock = (w.st.fan i).startedAt w.st.clock := rfl
  unfold Work.enterProving
  dsimp only
  rw [elapsed]
  cases flow : (w.st.fan i).flow.debounced with
  | false =>
    rw [if_neg (by simp), first]
    simp [Fan.startedAt, flow, Fan.proving, startTimer_seconds, beq_eq_decide]
  | true =>
    rw [if_pos rfl]
    unfold Work.enterRunning
    rw [moveFan_fan, first, clock, remeasure_unmeasured rfl rfl]
    simp [Fan.startedAt, flow, Fan.proving, Fan.running, startTimer_seconds, nextExercise_eq, beq_eq_decide]

theorem atFan_enterRunning (w : Work) (i : Fin 8) : AtFan i w (w.enterRunning i) := atFan_moveFan w i rfl

theorem atFan_enterProving (w : Work) (i : Fin 8) : AtFan i w (w.enterProving i) := by
  unfold Work.enterProving
  dsimp only
  split
  · exact (atFan_moveFan w i (f := (w.st.fan i).proving w.st.clock) rfl).trans (atFan_enterRunning _ i)
  · exact atFan_moveFan w i rfl

theorem enterProving_arb (w : Work) (i : Fin 8) : (w.enterProving i).st.arb = w.st.arb ∧ (w.enterProving i).st.zones = w.st.zones := by
  unfold Work.enterProving
  dsimp only
  split
  · unfold Work.enterRunning
    rw [(moveFan_arb ..).1, (moveFan_arb ..).1, (moveFan_arb ..).2, (moveFan_arb ..).2]; exact ⟨rfl, rfl⟩
  · exact moveFan_arb ..

/-! ## The grant -/

/-- What the arbiter and the fan's count take of a grant, before the fan enters PROVING. -/
def Work.counted (w : Work) (i : Fin 8) : Work :=
  (w.map fun s => s.setArb (s.arb.granted i s.clock)).map fun s =>
    s.setFan i { s.fan i with startCount := countStart (s.fan i).startCount }

theorem Work.grant_eq (w : Work) (i : Fin 8) : w.grant i = (w.counted i).enterProving i := rfl

theorem counted_fan (w : Work) (i : Fin 8) :
    (w.counted i).st.fan i = { w.st.fan i with startCount := min 65535 ((w.st.fan i).startCount + 1) } := State.setFan_fan_same ..

/-- The fan that a grant has started (R70, R75, R76). -/
theorem grant_fan (w : Work) (i : Fin 8) : (w.grant i).st.fan i = (w.st.fan i).startedAt w.st.time.clock := by
  rw [Work.grant_eq, enterProving_fan, counted_fan]
  unfold Fan.startedAt
  dsimp only
  split <;> rfl

/-- The arbiter after a grant (R104, R110). -/
theorem grant_arb (w : Work) (i : Fin 8) : (w.grant i).st.arb = w.st.arb.granted i w.st.time.clock := by
  rw [Work.grant_eq, (enterProving_arb ..).1]; rfl

theorem grant_zones (w : Work) (i : Fin 8) : (w.grant i).st.zones = w.st.zones := by
  rw [Work.grant_eq, (enterProving_arb ..).2]; rfl

theorem grant_request (w : Work) (i : Fin 8) : (w.grant i).st.requestTime i = none := by
  unfold State.requestTime
  rw [grant_arb]
  exact vget_vset_same ..

theorem grant_out (w : Work) (i : Fin 8) : ∃ new, (w.grant i).out = w.out ++ new := (atFan_enterProving (w.counted i) i).out

/-- Where no spacing runs and the budget is open, a fan that waits uninhibited is granted a start (R109). -/
theorem consider_some {w : Work} {i : Fin 8} (h : w.st.grantChoice = some i) : w.consider = w.grant i := by
  unfold Work.consider
  rw [h]

theorem consider_none {w : Work} (h : w.st.grantChoice = none) : w.consider = w := by
  unfold Work.consider
  rw [h]

/-- Whom a consideration grants: the budget is open, no spacing runs, and the fan waits uninhibited (R107, R109). -/
theorem grantChoice_some {s : State} {i : Fin 8} (h : s.grantChoice = some i) :
    s.arb.history.length < s.arb.k ∧ s.arb.spacing = none ∧ (s.requestTime i).isSome = true ∧ s.inhibited i = false := by
  have waits := grantChoice_waits h
  unfold State.grantChoice at h
  split at h
  · rename_i open_
    refine ⟨open_.1, open_.2, waits, ?_⟩
    have := List.find?_some h
    simpa using this
  · cases h

/-- Why none is granted: the budget is used up, spacing runs, or CRITICAL inhibits every fan that waits (R107, R109). -/
theorem grantChoice_none {s : State} (h : s.grantChoice = none) :
    s.arb.k ≤ s.arb.history.length ∨ s.arb.spacing.isSome = true ∨ ∀ j, (s.requestTime j).isSome = true → s.inhibited j = true := by
  unfold State.grantChoice at h
  split at h
  · refine .inr (.inr fun j asked => ?_)
    have mem : j ∈ s.grantOrder := by
      unfold State.grantOrder
      rw [mem_sortBy]
      simpa [State.waitingFans] using asked
    simpa using List.find?_eq_none.1 h j mem
  · rename_i shut
    by_cases full : s.arb.history.length < s.arb.k
    · refine .inr (.inl ?_)
      cases e : s.arb.spacing with
      | some t => rfl
      | none => exact absurd ⟨full, e⟩ shut
    · exact .inl (Nat.le_of_not_lt full)

end

end Sys2Proof.Machine
end

section
/-! Every operation of a fan and of the arbiter keeps the order of the fans (`Lawful`). -/

namespace Sys2Proof.Machine

section
variable {K : Aims} {E F : Fin 8 → Prop} {u v w : Work} {i : Fin 8}

/-! ## Work that reaches no fan, and work at one fan -/

theorem ArbiterLaw.congr {s t : State} (h : ArbiterLaw s) (k : t.arb.k = s.arb.k) (history : t.arb.history = s.arb.history)
    (armed : t.setup.armed = s.setup.armed) : ArbiterLaw t := ⟨by rw [k, history]; exact h.budget, by rw [armed, history]; exact h.unarmed⟩

/-- Work that reaches neither a fan, nor the arbiter, nor the part state, nor the regime. -/
theorem Ordered.same (h : Ordered K E w) (fans : v.st.fans = w.st.fans) (arb : v.st.arb = w.st.arb) (setup : v.st.setup = w.st.setup)
    (regime : v.st.alarm.regime = w.st.alarm.regime) (grown : ∀ x ∈ w.out, x ∈ v.out) : Ordered K E v := by
  have fan (j) : v.st.fan j = w.st.fan j := by unfold State.fan; rw [fans]
  have request (j) : v.st.requestTime j = w.st.requestTime j := by unfold State.requestTime; rw [arb]
  refine ⟨fun j => ?_, ?_, fun b => (h.budget b).congr (by rw [arb]) (by rw [arb]) (by rw [setup]), fun p => ⟨(h.owes p).1, fun j n => ?_⟩⟩
  · rw [fan, request, setup]; exact h.fits j
  · rw [setup]; exact h.failsafe
  · rw [fan, regime]
    exact fun idle owed => ((h.owes p).2 j n idle owed).imp_right (grown _)

theorem Awaited.same (h : Awaited K w) (fans : v.st.fans = w.st.fans) (arb : v.st.arb = w.st.arb)
    (regime : v.st.alarm.regime = w.st.alarm.regime) (grown : ∀ x ∈ w.out, x ∈ v.out) : Awaited K v := by
  intro p j
  have fan : v.st.fan j = w.st.fan j := by unfold State.fan; rw [fans]
  rw [fan, regime, arb]
  exact fun waits => (h p j waits).imp_right (Or.imp_right (Or.imp_right (grown _)))

theorem Lawful.same (h : Lawful K w) (fans : v.st.fans = w.st.fans) (arb : v.st.arb = w.st.arb) (setup : v.st.setup = w.st.setup)
    (regime : v.st.alarm.regime = w.st.alarm.regime) (grown : ∀ x ∈ w.out, x ∈ v.out) : Lawful K v :=
  ⟨h.1.same fans arb setup regime grown, h.2.same fans arb regime grown⟩

theorem Ordered.at (h : Ordered K E w) (a : AtFan i w v) (fits : (v.st.fan i).Fits K w.st.setup i (v.st.requestTime i))
    (sub : ∀ j, j ≠ i → E j → F j) (owes : K.prompt → ¬F i → (v.st.fan i).state = .idle → (v.st.fan i).exerciseOwed = true →
      w.st.alarm.regime.alarming = true ∨ .toFans true ∈ v.out) : Ordered K F v :=
  h.turn a.within a.others a.grown (fun b => b.congr a.within.arb.1 a.history (by rw [a.within.setup])) fits sub owes

/-- Work that leaves the fan out of IDLE. -/
theorem Ordered.atMoving (h : Ordered K E w) (a : AtFan i w v) (fits : (v.st.fan i).Fits K w.st.setup i (v.st.requestTime i))
    (sub : ∀ j, j ≠ i → E j → F j) (moving : (v.st.fan i).state ≠ .idle) : Ordered K F v :=
  h.at a fits sub fun _ _ idle => absurd idle moving

theorem Awaited.at (h : Awaited K w) (a : AtFan i w v) (still : (v.st.fan i).state = .waiting → (w.st.fan i).state = .waiting) :
    Awaited K v := h.turn a.within a.others a.grown ⟨a.history, a.spacing⟩ a.cfg still

/-- Work that leaves the fan out of IDLE and out of WAITING. -/
theorem Lawful.atMoving (h : Lawful K w) (a : AtFan i w v) (fits : (v.st.fan i).Fits K w.st.setup i (v.st.requestTime i))
    (moving : (v.st.fan i).state ≠ .idle) (unasked : (v.st.fan i).state ≠ .waiting) : Lawful K v :=
  ⟨h.1.atMoving a fits (fun _ _ => id) moving, h.2.at a fun x => absurd x unasked⟩

/-- Work that leaves the fan in its state, owing no more than before. -/
theorem Lawful.atSame (h : Lawful K w) (a : AtFan i w v) (fits : (v.st.fan i).Fits K w.st.setup i (v.st.requestTime i))
    (state : (v.st.fan i).state = (w.st.fan i).state) (owed : (v.st.fan i).exerciseOwed = (w.st.fan i).exerciseOwed) : Lawful K v := by
  refine ⟨h.1.at a fits (fun _ _ => id) fun p _ idle owes => ?_, h.2.at a fun x => state.symm.trans x⟩
  exact ((h.1.owes p).2 i id (state.symm.trans idle) (owed.symm.trans owes)).imp_right (a.grown _)

/-- A write to fields of a fan that the laws do not speak of. -/
theorem Lawful.write (h : Lawful K w) {g : State → Fan} (cfg : (g w.st).cfg = (w.st.fan i).cfg) (state : (g w.st).state = (w.st.fan i).state)
    (output : (g w.st).output = (w.st.fan i).output) (claims : (g w.st).claims = (w.st.fan i).claims)
    (stop : (g w.st).stopPending = (w.st.fan i).stopPending) (elapsed : (g w.st).minRunElapsed = (w.st.fan i).minRunElapsed)
    (owed : (g w.st).exerciseOwed = (w.st.fan i).exerciseOwed) : Lawful K (w.map fun s => s.setFan i (g s)) := by
  have fan : (w.map fun s => s.setFan i (g s)).st.fan i = g w.st := State.setFan_fan_same ..
  refine h.atSame (atFan_setFan w i cfg) ?_ (by rw [fan, state]) (by rw [fan, owed])
  rw [fan]
  exact (h.1.fits i).congr state output (by rw [cfg]) claims stop elapsed

/-- The same, as a move that re-measures FLOW NOTE. -/
theorem Lawful.rewrite (h : Lawful K w) {f : Fan} (cfg : f.cfg = (w.st.fan i).cfg) (state : f.state = (w.st.fan i).state)
    (output : f.output = (w.st.fan i).output) (claims : f.claims = (w.st.fan i).claims)
    (stop : f.stopPending = (w.st.fan i).stopPending) (elapsed : f.minRunElapsed = (w.st.fan i).minRunElapsed)
    (owed : f.exerciseOwed = (w.st.fan i).exerciseOwed) : Lawful K (w.moveFan i f) := by
  have fan := moveFan_fan w i f
  refine h.atSame (atFan_moveFan w i cfg) ?_ (by rw [fan]; exact state) (by rw [fan]; exact owed)
  rw [fan, moveFan_request]
  exact ((h.1.fits i).congr state output (by rw [cfg]) claims stop elapsed).remeasured ..

/-! ## The arbiter -/

/-- A consideration keeps the order, and leaves no fan waiting that might be granted a start (R108, R109). -/
theorem Ordered.consider (h : Ordered K E w) : Ordered K E w.consider ∧ Awaited K w.consider := by
  cases e : w.st.grantChoice with
  | none =>
    rw [consider_none e]
    refine ⟨h, fun p j waits => ?_⟩
    rcases grantChoice_none e with full | spaced | inhibited
    · exact .inl full
    · exact .inr (.inl spaced)
    · have := inhibited j (((h.fits j).waiting).2 waits)
      exact .inr (.inr (.inl (by simpa [State.inhibited] using this)))
  | some i =>
    obtain ⟨few, -, asked, -⟩ := grantChoice_some e
    have waits : (w.st.fan i).state = .waiting := ((h.fits i).waiting).1 asked
    have m : (w.st.fan i).state ≠ .unmanaged := by rw [waits]; exact FanState.noConfusion
    have within : Within w.st (w.grant i).st := consider_some e ▸ within_consider w
    have state : ((w.grant i).st.fan i).state = .proving ∨ ((w.grant i).st.fan i).state = .running := by
      rw [grant_fan]
      unfold Fan.startedAt
      dsimp only
      split
      · exact .inr rfl
      · exact .inl rfl
    have fields : ((w.grant i).st.fan i).cfg = (w.st.fan i).cfg ∧ ((w.grant i).st.fan i).claims = (w.st.fan i).claims ∧
        ((w.grant i).st.fan i).stopPending = false := by
      rw [grant_fan]
      unfold Fan.startedAt
      dsimp only
      split <;> exact ⟨rfl, rfl, rfl⟩
    obtain ⟨cfg, claims, stop⟩ := fields
    have busy : ∀ st, st ≠ .proving → st ≠ .running → ((w.grant i).st.fan i).state ≠ st := by
      intro st a b c
      rcases state with x | x
      · exact a (c.symm.trans x)
      · exact b (c.symm.trans x)
    have resting : ((w.grant i).st.fan i).takesClaims = true := by
      unfold Fan.takesClaims
      rcases state with x | x <;> rw [x]
    rw [consider_some e]
    refine ⟨h.turn within (fun j ne => same_grant j w ne) ?_ ?_ ?_ (fun _ _ => id) ?_, fun p j _ => .inr (.inl ?_)⟩
    · obtain ⟨new, out⟩ := grant_out w i
      rw [out]
      exact fun x m => List.mem_append_left _ m
    · refine fun b => ⟨?_, fun unarmed => ?_⟩
      · rw [grant_arb]
        change (w.st.arb.history ++ [_]).length ≤ w.st.arb.k
        rw [List.length_append]
        exact few
      · rw [within.setup, (h.fits i).armed m] at unarmed
        cases unarmed
    · refine (h.fits i).move m (busy _ (by decide) (by decide)) (by rw [cfg]) (fun _ => state) ?_ ?_ ?_ ?_
      · rw [grant_request]
        exact ⟨fun x => (nomatch x), fun x => absurd x (busy _ (by decide) (by decide))⟩
      · intro _ rest
        rcases rest with idle | rest
        · exact absurd idle (busy _ (by decide) (by decide))
        · rw [resting] at rest; cases rest
      · exact fun _ x => absurd x (busy _ (by decide) (by decide))
      · intro c _
        have some_ := (h.fits i).claimed c waits
        rw [claims, stop, some_]
        exact .inl ⟨rfl, fun x => (nomatch x)⟩
    · exact fun _ _ idle => absurd idle (busy _ (by decide) (by decide))
    · rw [grant_arb]; rfl

theorem Lawful.consider (h : Ordered K (fun _ => False) w) : Lawful K w.consider := h.consider

/-! ## Waiting -/

theorem empty_of_none {c : Claims} (h : c.none_ = true) : c = .empty := by
  obtain ⟨zones, manual, exercise⟩ := c
  have parts : (List.finRange 6).any (fun z => vget zones z) = false ∧ manual = false ∧ exercise = false := by
    simpa [Claims.none_, Claims.anyZone, and_assoc] using h
  obtain ⟨z, rfl, rfl⟩ := parts
  have : zones = .replicate 6 false := vec_ext fun k => by
    rw [vget_replicate]
    simpa using List.any_eq_false.1 z k (List.mem_finRange k)
  rw [this]
  rfl

/-- A set that carries a claim is not empty. -/
theorem none_of_has {c : Claims} {src : Source} (h : c.has src = true) : c.none_ = false := by
  cases e : c.none_ with
  | false => rfl
  | true => rw [empty_of_none e, empty_has] at h; cases h

theorem has_add (c : Claims) (src : Source) : (c.add src).has src = true := by
  cases src with
  | zone z => exact vget_vset_same ..
  | manual => rfl
  | exercise => rfl

/-- A fan that waits behind its claim, before a grant is considered. -/
def Work.queued (w : Work) (i : Fin 8) : Work :=
  (w.moveFan i { w.st.fan i with state := .waiting, coastTimer := none }).map fun s =>
    s.setArb { s.arb with waiting := vset s.arb.waiting i (some s.clock) }

theorem enterWaiting_eq (w : Work) (i : Fin 8) : w.enterWaiting i = (w.queued i).consider := rfl

theorem atFan_queued (w : Work) (i : Fin 8) : AtFan i w (w.queued i) :=
  (atFan_moveFan w i (f := { w.st.fan i with state := .waiting, coastTimer := none }) rfl).trans (atFan_setWaiting _ i fun s => some s.clock)

theorem queued_fan (w : Work) (i : Fin 8) : (w.queued i).st.fan i =
    ({ w.st.fan i with state := .waiting, coastTimer := none } : Fan).remeasure (w.st.fan i) w.st.clock := moveFan_fan ..

theorem queued_request (w : Work) (i : Fin 8) : (w.queued i).st.requestTime i =
    some (w.moveFan i { w.st.fan i with state := .waiting, coastTimer := none }).st.clock := vget_vset_same ..

/-- A fan in IDLE or COASTING has its output off. -/
theorem Fan.Fits.off {setup : Setup} {f : Fan} {request : Option Nat} (h : f.Fits K setup i request)
    (state : f.state = .idle ∨ f.state = .coasting ∨ f.state = .waiting) : f.output = false := by
  have m : f.state ≠ .unmanaged := by rcases state with x | x | x <;> rw [x] <;> exact FanState.noConfusion
  cases e : f.output with
  | false => rfl
  | true =>
    rcases h.output e with x | x | x
    · rw [x] at state; simp at state
    · rw [x] at state; simp at state
    · rw [h.armed m] at x; cases x.1

/-- A fan in IDLE or COASTING that comes by a claim, or has one, enters WAITING (R73, R74, R79). -/
theorem Ordered.enterWaiting (h : Ordered K E w) {g : State → Fan} (cfg : (g w.st).cfg = (w.st.fan i).cfg)
    (output : (g w.st).output = (w.st.fan i).output) (state : (w.st.fan i).state = .idle ∨ (w.st.fan i).state = .coasting)
    (claims : (g w.st).claims.none_ = false) (sub : ∀ j, j ≠ i → E j → F j) :
    Ordered K F ((w.map fun s => s.setFan i (g s)).enterWaiting i) ∧ Awaited K ((w.map fun s => s.setFan i (g s)).enterWaiting i) := by
  have a : AtFan i w ((w.map fun s => s.setFan i (g s)).queued i) := (atFan_setFan w i cfg).trans (atFan_queued _ i)
  have m : (w.st.fan i).state ≠ .unmanaged := by rcases state with x | x <;> rw [x] <;> exact FanState.noConfusion
  have off := (h.fits i).off (state.imp_right .inl)
  have fan : ((w.map fun s => s.setFan i (g s)).queued i).st.fan i =
      ({ g w.st with state := .waiting, coastTimer := none } : Fan).remeasure (g w.st) w.st.clock := by
    rw [queued_fan]
    rw [show (w.map fun s => s.setFan i (g s)).st.fan i = g w.st from State.setFan_fan_same ..]
    rfl
  rw [enterWaiting_eq]
  refine Ordered.consider (h.atMoving a ?_ sub (by rw [fan]; exact FanState.noConfusion))
  rw [fan, queued_request]
  refine (h.fits i).move m FanState.noConfusion (by change (g w.st).cfg.present = _; rw [cfg]) ?_ ⟨fun _ => rfl, fun _ => rfl⟩ ?_
    (fun _ _ => claims) ?_
  · intro o
    exact absurd ((show (g w.st).output = true from o).symm.trans output) (by rw [off]; exact Bool.noConfusion)
  · rintro _ (x | x)
    · exact FanState.noConfusion x
    · cases x
  · rintro _ (x | x) <;> exact FanState.noConfusion x

theorem map_self (w : Work) (i : Fin 8) : (w.map fun s => s.setFan i (s.fan i)) = w :=
  congrArg (fun s => ({ w with st := s } : Work)) (setFan_self w.st i)

theorem Lawful.enterWaiting (h : Ordered K E w) (state : (w.st.fan i).state = .idle ∨ (w.st.fan i).state = .coasting)
    (claims : (w.st.fan i).claims.none_ = false) (sub : ∀ j, j ≠ i → ¬E j) : Lawful K (w.enterWaiting i) := by
  have := h.enterWaiting (F := fun _ => False) (g := fun s => s.fan i) rfl rfl state claims sub
  rw [map_self] at this
  exact this

/-! ## Exercises -/

/-- A fan in IDLE that owes an exercise and takes none is withheld by the regime (R91). -/
theorem untaken_alarming {s : State} {i : Fin 8} (empty : (s.fan i).claims = .empty) (idle : (s.fan i).state = .idle)
    (owed : (s.fan i).exerciseOwed = true) (untaken : ¬s.takesExercise i = true) : s.alarm.regime.alarming = true := by
  by_contra calm
  refine untaken ?_
  unfold State.takesExercise
  simp only [idle, owed, empty, decide_true, Bool.true_and]
  rw [Bool.eq_false_iff.2 calm]
  rfl

theorem takesExercise_idle {s : State} {i : Fin 8} (h : s.takesExercise i = true) : (s.fan i).state = .idle := by
  unfold State.takesExercise at h
  simp only [Bool.and_eq_true, decide_eq_true_eq] at h
  exact h.1.1.1

/-- After its test a fan owes no exercise that it might take (R91). -/
theorem Ordered.testExercise (h : Ordered K E w) (sub : ∀ j, j ≠ i → E j → F j) : Ordered K F (w.testExercise i) := by
  unfold Work.testExercise
  split
  · rename_i takes
    have idle := takesExercise_idle takes
    exact (h.enterWaiting (g := fun s => { s.fan i with exerciseOwed := false, claims := (s.fan i).claims.add .exercise }) rfl rfl (.inl idle)
      (none_of_has (has_add _ .exercise)) sub).1
  · rename_i kept
    refine h.at (.refl i w) (h.fits i) sub fun p _ idle owed => .inl ?_
    exact untaken_alarming ((h.fits i).unclaimed (h.owes p).1 (.inl idle)) idle owed kept

theorem Awaited.testExercise (h : Ordered K E w) (a : Awaited K w) : Awaited K (w.testExercise i) := by
  unfold Work.testExercise
  split
  · rename_i takes
    have idle := takesExercise_idle takes
    exact (h.enterWaiting (F := E) (g := fun s => { s.fan i with exerciseOwed := false, claims := (s.fan i).claims.add .exercise }) rfl rfl (.inl idle)
      (none_of_has (has_add _ .exercise)) fun _ _ => id).2
  · exact a

theorem Lawful.testExercise (h : Ordered K (· = i) w) (a : Awaited K w) : Lawful K (w.testExercise i) :=
  ⟨h.testExercise fun _ ne e => ne e, .testExercise h a⟩

theorem Lawful.tested (h : Lawful K w) : Lawful K (w.testExercise i) := .testExercise h.1.all h.2

/-- A managed fan comes to IDLE with its claim set empty and tests for an owed exercise (R91). -/
theorem Lawful.idle (h : Lawful K w) (a : AtFan i w v) (m : (w.st.fan i).state ≠ .unmanaged) (state : (v.st.fan i).state = .idle)
    (output : (v.st.fan i).output = false) (claims : K.claims → (v.st.fan i).claims = .empty) (request : v.st.requestTime i = none) :
    Lawful K (v.testExercise i) := by
  refine .testExercise (h.1.at a ?_ (fun _ _ e => e.elim) fun _ n => absurd rfl n) (h.2.at a fun x => ?_)
  · rw [request]
    refine (h.1.fits i).move m (by rw [state]; exact FanState.noConfusion) (by rw [a.cfg]) ?_ ?_ (fun c _ => claims c) ?_ ?_
    · rw [output]; exact fun x => (nomatch x)
    · rw [state]; exact ⟨fun x => (nomatch x), fun x => (nomatch x)⟩
    · rw [state]; exact fun _ x => (nomatch x)
    · rw [state]; rintro _ (x | x) <;> exact FanState.noConfusion x
  · rw [state] at x; cases x

/-! ## Claims -/

theorem Lawful.addClaim (h : Lawful K w) (src : Source) : Lawful K (w.addClaim i src) := by
  have a : AtFan i w (w.map fun s => s.setFan i { s.fan i with claims := (s.fan i).claims.add src }) := atFan_setFan w i rfl
  have fan : (w.map fun s => s.setFan i { s.fan i with claims := (s.fan i).claims.add src }).st.fan i =
      { w.st.fan i with claims := (w.st.fan i).claims.add src } := State.setFan_fan_same ..
  have some_ : ((w.st.fan i).claims.add src).none_ = false := none_of_has (has_add ..)
  have fits := h.1.fits i
  have busy : (w.st.fan i).state = .proving ∨ (w.st.fan i).state = .running → Lawful K
      ((w.map fun s => s.setFan i { s.fan i with claims := (s.fan i).claims.add src }).map fun s =>
        s.setFan i { s.fan i with stopPending := false }) := by
    intro state
    have b : AtFan i w ((w.map fun s => s.setFan i { s.fan i with claims := (s.fan i).claims.add src }).map fun s =>
        s.setFan i { s.fan i with stopPending := false }) := a.trans (atFan_setFan _ i (g := fun s => { s.fan i with stopPending := false }) rfl)
    have fan' : ((w.map fun s => s.setFan i { s.fan i with claims := (s.fan i).claims.add src }).map fun s =>
        s.setFan i { s.fan i with stopPending := false }).st.fan i =
        { w.st.fan i with claims := (w.st.fan i).claims.add src, stopPending := false } := by
      refine (State.setFan_fan_same ..).trans ?_
      rw [fan]
    refine h.atSame b ?_ (by rw [fan']) (by rw [fan'])
    rw [fan']
    have m : (w.st.fan i).state ≠ .unmanaged := by rcases state with x | x <;> rw [x] <;> exact FanState.noConfusion
    refine fits.move m m rfl (fun _ => state) fits.waiting ?_ (fun _ _ => some_) (fun _ _ => .inl ⟨some_.symm, fun x => ?_⟩)
    · rintro _ (x | x)
      · rcases state with y | y <;> exact FanState.noConfusion (y.symm.trans x)
      · exact absurd x (by unfold Fan.takesClaims; rcases state with y | y <;> rw [y] <;> exact Bool.noConfusion)
    · exact absurd (some_.symm.trans x) Bool.noConfusion
  have resting : (w.st.fan i).state = .waiting ∨ (w.st.fan i).state = .coasting →
      Lawful K (w.map fun s => s.setFan i { s.fan i with claims := (s.fan i).claims.add src }) := by
    intro state
    have m : (w.st.fan i).state ≠ .unmanaged := by rcases state with x | x <;> rw [x] <;> exact FanState.noConfusion
    refine h.atSame a ?_ (by rw [fan]) (by rw [fan])
    rw [fan]
    refine fits.move m m rfl ?_ fits.waiting ?_ (fun _ _ => some_) ?_
    · intro o
      exact absurd (fits.off (.inr state.symm)) (by rw [show (w.st.fan i).output = true from o]; exact Bool.noConfusion)
    · rintro _ (x | x)
      · rcases state with y | y <;> exact FanState.noConfusion (y.symm.trans x)
      · exact absurd x (by unfold Fan.takesClaims; rcases state with y | y <;> rw [y] <;> exact Bool.noConfusion)
    · rintro _ (x | x) <;> rcases state with y | y <;> exact FanState.noConfusion (y.symm.trans x)
  unfold Work.addClaim
  dsimp only
  split
  · exact h
  · rename_i taken
    split
    · rename_i state
      exact h.1.enterWaiting (g := fun s => { s.fan i with claims := (s.fan i).claims.add src }) rfl rfl (.inl state) some_ fun _ _ => id
    · rename_i state; exact Lawful.consider (resting (.inl state)).1
    · rename_i state; exact busy (.inl state)
    · rename_i state; exact busy (.inr state)
    · rename_i state; exact resting (.inr state)
    all_goals rename_i state; exact absurd (show (w.st.fan i).takesClaims = false by unfold Fan.takesClaims; rw [state]) (by simp_all)

end

end Sys2Proof.Machine
end

section
/-! The requests and the events of a fan keep the order of the fans. -/

namespace Sys2Proof.Machine

/-- Fits a fan to a record that moves it out of every state that the laws tie to a claim. -/
theorem Fan.Fits.rest {K : Aims} {setup : Setup} {i : Fin 8} {f g : Fan} {request : Option Nat} (h : f.Fits K setup i request)
    (m : f.state ≠ .unmanaged) (cfg : g.cfg = f.cfg) (output : g.output = false)
    (state : g.state = .coasting ∨ (g.claims = .empty ∧ (g.state = .fault ∨ ∃ cause, g.state = .lockout cause))) :
    g.Fits K setup i none := by
  have off : g.state ≠ .waiting ∧ g.state ≠ .proving ∧ g.state ≠ .running ∧ g.state ≠ .idle ∧ g.state ≠ .unmanaged := by
    rcases state with x | ⟨-, x | ⟨cause, x⟩⟩ <;> rw [x] <;> exact ⟨nofun, nofun, nofun, nofun, nofun⟩
  refine h.move m off.2.2.2.2 (by rw [cfg]) (by rw [output]; exact nofun) ⟨nofun, fun x => absurd x off.1⟩ ?_ (fun _ x => absurd x off.1)
    fun _ x => (x.elim off.2.1 off.2.2.1).elim
  rintro _ (x | x)
  · exact absurd x off.2.2.2.1
  · rcases state with y | y
    · unfold Fan.takesClaims at x; rw [y] at x; cases x
    · exact y.1

section
variable {K : Aims} {E F : Fin 8 → Prop} {u v w : Work} {i : Fin 8}

theorem Lawful.ite {p : Prop} [Decidable p] {a b : Work} (ha : p → Lawful K a) (hb : ¬p → Lawful K b) :
    Lawful K (if p then a else b) := by
  split
  · exact ha ‹_›
  · exact hb ‹_›

/-- A managed fan comes to rest in COASTING, FAULT or LOCKOUT. -/
theorem Lawful.atRest (h : Lawful K w) (a : AtFan i w v) (m : (w.st.fan i).state ≠ .unmanaged) (output : (v.st.fan i).output = false)
    (request : v.st.requestTime i = none)
    (state : (v.st.fan i).state = .coasting ∨ ((v.st.fan i).claims = .empty ∧
      ((v.st.fan i).state = .fault ∨ ∃ cause, (v.st.fan i).state = .lockout cause))) : Lawful K v := by
  have off : (v.st.fan i).state ≠ .waiting ∧ (v.st.fan i).state ≠ .idle := by
    rcases state with x | ⟨-, x | ⟨cause, x⟩⟩ <;> rw [x] <;> exact ⟨nofun, nofun⟩
  exact h.atMoving a (by rw [request]; exact (h.1.fits i).rest m a.cfg output state) off.2 off.1

/-! ## A claim that ends -/

/-- A proving or running fan that has come to an empty claim set is stop-pending, or coasts (R77). -/
theorem Lawful.stopOrCoast (h : Lawful K w) (a : AtFan i w v) (state : (w.st.fan i).state = .proving ∨ (w.st.fan i).state = .running)
    (same : (v.st.fan i).state = (w.st.fan i).state) (claims : (v.st.fan i).claims.none_ = true)
    (request : v.st.requestTime i = w.st.requestTime i) : Lawful K (v.stopOrCoast i) := by
  have m : (w.st.fan i).state ≠ .unmanaged := by rcases state with x | x <;> rw [x] <;> exact nofun
  have none_ : v.st.requestTime i = none := request.trans ((h.1.fits i).unasked (by rcases state with x | x <;> rw [x] <;> exact nofun))
  unfold Work.stopOrCoast
  split
  · have fan := moveFan_fan v i ((v.st.fan i).coasting v.st.clock)
    change Lawful K (v.moveFan i ((v.st.fan i).coasting v.st.clock))
    refine h.atRest (a.trans (atFan_moveFan v i (f := (v.st.fan i).coasting v.st.clock) rfl)) m ?_ ?_ (.inl ?_)
    · rw [fan]; rfl
    · rw [moveFan_request, none_]
    · rw [fan]; rfl
  · rename_i early
    have fan : (v.map fun s => s.setFan i { s.fan i with stopPending := true }).st.fan i = { v.st.fan i with stopPending := true } :=
      State.setFan_fan_same ..
    have b := a.trans (atFan_setFan v i (g := fun s => { s.fan i with stopPending := true }) rfl)
    refine h.atMoving b ?_ ?_ ?_
    · rw [fan, show (v.map fun s => s.setFan i { s.fan i with stopPending := true }).st.requestTime i = none from none_]
      refine (h.1.fits i).move m (same ▸ m) (by rw [← a.cfg]) (fun _ => same ▸ state) ⟨nofun, fun x => ?_⟩ ?_ ?_ ?_
      · rcases state with y | y <;> exact FanState.noConfusion ((same.trans y).symm.trans x)
      · rintro _ (x | x)
        · rcases state with y | y <;> exact FanState.noConfusion ((same.trans y).symm.trans x)
        · exact absurd x (by unfold Fan.takesClaims; rcases state with y | y <;> rw [show (({ v.st.fan i with stopPending := true } : Fan)).state = _ from same.trans y] <;> exact nofun)
      · intro _ x
        rcases state with y | y <;> exact FanState.noConfusion ((same.trans y).symm.trans x)
      · exact fun _ _ => .inl ⟨claims.symm, fun _ => Bool.eq_false_iff.2 early⟩
    · rw [fan]; intro x; rcases state with y | y <;> exact FanState.noConfusion ((same.trans y).symm.trans x)
    · rw [fan]; intro x; rcases state with y | y <;> exact FanState.noConfusion ((same.trans y).symm.trans x)

theorem withoutClaim_fields (f : Fan) (src : Source) : (f.withoutClaim src).cfg = f.cfg ∧ (f.withoutClaim src).state = f.state ∧
    (f.withoutClaim src).output = f.output ∧ (f.withoutClaim src).claims = f.claims.remove src ∧
    (f.withoutClaim src).stopPending = f.stopPending ∧ (f.withoutClaim src).exerciseOwed = f.exerciseOwed := by
  cases src <;> exact ⟨rfl, rfl, rfl, rfl, rfl, rfl⟩

/-- A fan in IDLE, and one that takes no claims, carries none that could end. -/
theorem Fan.Fits.carries {setup : Setup} {f : Fan} {request : Option Nat} (h : f.Fits K setup i request) (c : K.claims) {src : Source}
    (has : f.claims.has src = true) : f.state ≠ .idle ∧ f.takesClaims = true := by
  have full : ¬(f.state = .idle ∨ f.takesClaims = false) := fun x => by
    rw [h.unclaimed c x, empty_has] at has; cases has
  exact ⟨fun x => full (.inl x), by cases e : f.takesClaims with
    | true => rfl
    | false => exact absurd (.inr e) full⟩

theorem Lawful.removeClaim (h : Lawful K w) (src : Source) : Lawful K (w.removeClaim i src) := by
  have a : AtFan i w (w.map fun s => s.setFan i ((s.fan i).withoutClaim src)) :=
    atFan_setFan w i (g := fun s => (s.fan i).withoutClaim src) (withoutClaim_fields ..).1
  have fan : (w.map fun s => s.setFan i ((s.fan i).withoutClaim src)).st.fan i = (w.st.fan i).withoutClaim src := State.setFan_fan_same ..
  obtain ⟨cfg, state, output, claims, stop, owed⟩ := withoutClaim_fields (w.st.fan i) src
  have fits := h.1.fits i
  have takes : ((w.st.fan i).withoutClaim src).takesClaims = (w.st.fan i).takesClaims := by unfold Fan.takesClaims; rw [state]
  have kept : (w.st.fan i).claims.has src = true → (((w.st.fan i).claims.remove src).none_ = false ∨
      ((w.st.fan i).state ≠ .waiting ∧ (w.st.fan i).state ≠ .proving ∧ (w.st.fan i).state ≠ .running)) →
      Lawful K (w.map fun s => s.setFan i ((s.fan i).withoutClaim src)) := by
    intro has left
    refine h.atSame a ?_ (by rw [fan, state]) (by rw [fan, owed])
    rw [fan]
    refine ⟨?_, ?_, ?_, ?_, ?_, ?_, ?_, ?_⟩
    · rw [output, state]; exact fits.output
    · rw [state]; exact fits.waiting
    · rw [state]; exact fits.unarmed
    · rw [cfg, state]; exact fits.absent
    · rw [cfg, state]; exact fits.managed
    · rw [state, takes]
      intro c x
      have := fits.carries c has
      rcases x with x | x
      · exact absurd x this.1
      · rw [this.2] at x; cases x
    · rw [state, claims]
      intro c x
      exact left.resolve_right fun y => y.1 x
    · rw [state, claims, stop]
      intro c x
      have none_ := left.resolve_right fun y => x.elim y.2.1 y.2.2
      have some_ : (w.st.fan i).claims.none_ = false := none_of_has has
      rw [none_]
      rcases fits.stopping c x with y | y
      · exact .inl ⟨y.1.trans some_, nofun⟩
      · rw [some_] at y; exact (nomatch y.2.1)
  unfold Work.removeClaim
  dsimp only
  split
  · exact h
  · rename_i has
    have has : (w.st.fan i).claims.has src = true := by simpa using has
    split
    · rename_i none_
      split
      · rename_i waits
        have m : (w.st.fan i).state ≠ .unmanaged := by rw [waits]; exact nofun
        have b : AtFan i w (((w.map fun s => s.setFan i ((s.fan i).withoutClaim src)).map fun s => s.leaveWaiting i)) :=
          a.trans (atFan_leaveWaiting _ i)
        have record : (((w.map fun s => s.setFan i ((s.fan i).withoutClaim src)).map fun s => s.leaveWaiting i)).st.fan i =
          (w.st.fan i).withoutClaim src := fan
        unfold Work.enterIdle
        refine h.idle (b.trans (atFan_moveFan _ i (by rfl))) m ?_ ?_ ?_ ?_
        · rw [moveFan_fan]; rfl
        · rw [moveFan_fan, record]
          change ((w.st.fan i).withoutClaim src).output = false
          rw [output]
          exact fits.off (.inr (.inr waits))
        · rw [moveFan_fan, record]
          intro _
          change ((w.st.fan i).withoutClaim src).claims = .empty
          rw [claims]
          exact empty_of_none none_
        · rw [moveFan_request]
          exact vget_vset_same ..
      · rename_i x; exact h.stopOrCoast a (.inl x) (by rw [fan, state]) (by rw [fan, claims, none_]) rfl
      · rename_i x; exact h.stopOrCoast a (.inr x) (by rw [fan, state]) (by rw [fan, claims, none_]) rfl
      all_goals
        rename_i x
        refine kept has (.inr ?_)
        rw [x]
        exact ⟨nofun, nofun, nofun⟩
    · rename_i some_
      have removed := kept has (.inl (by simpa using some_))
      split
      · exact .consider removed.1
      all_goals exact removed

/-! ## Requests -/

theorem Lawful.startManual (h : Lawful K w) (d : Nat) : Lawful K (w.startManual i d) := by
  have claimed : Lawful K ((w.map fun s => s.setFan i { s.fan i with manualDuration := if d = 0 then none else some d }).addClaim i .manual) :=
    (h.write (g := fun s => { s.fan i with manualDuration := if d = 0 then none else some d }) rfl rfl rfl rfl rfl rfl rfl).addClaim .manual
  unfold Work.startManual
  exact .ite (fun _ => claimed.write (g := fun s => { s.fan i with manualTimer := startTimer s.clock (seconds d) })
    rfl rfl rfl rfl rfl rfl rfl) fun _ => claimed

theorem Lawful.exerciseFallsDue (h : Lawful K w) : Lawful K (w.exerciseFallsDue i) := by
  unfold Work.exerciseFallsDue
  dsimp only
  split
  · exact h.write (g := fun s => { s.fan i with exerciseDue := (w.st.fan i).nextExercise s.clock }) rfl rfl rfl rfl rfl rfl rfl
  · have a : AtFan i w (w.map fun s => s.setFan i { s.fan i with exerciseDue := none, exerciseOwed := true }) := atFan_setFan w i rfl
    have fan : (w.map fun s => s.setFan i { s.fan i with exerciseDue := none, exerciseOwed := true }).st.fan i =
      { w.st.fan i with exerciseDue := none, exerciseOwed := true } := State.setFan_fan_same ..
    refine .testExercise (h.1.at a ?_ (fun _ _ e => e.elim) fun _ n => absurd rfl n) (h.2.at a fun x => by rw [fan] at x; exact x)
    rw [fan]
    exact (h.1.fits i).congr rfl rfl rfl rfl rfl rfl

theorem Lawful.lockFan (h : Lawful K w) (m : (w.st.fan i).state ≠ .unmanaged) : Lawful K (w.lockFan i) := by
  have fan : (w.lockFan i).st.fan i = ((w.st.fan i).lockedByHand w.st.clock).remeasure (w.st.fan i) w.st.clock := moveFan_fan ..
  refine h.atRest ((atFan_moveFan w i (f := (w.st.fan i).lockedByHand w.st.clock) rfl).trans (atFan_leaveWaiting _ i)) m ?_ ?_ (.inr ?_)
  · rw [fan]; rfl
  · exact vget_vset_same ..
  · rw [fan]; exact ⟨rfl, .inr ⟨_, rfl⟩⟩

/-- A fan that takes no claims and is managed: in FAULT or LOCKOUT, its output off. -/
theorem Fan.Fits.offline {setup : Setup} {f : Fan} {request : Option Nat} (h : f.Fits K setup i request) (m : f.state ≠ .unmanaged)
    (t : f.takesClaims = false) : f.output = false ∧ request = none ∧ (K.claims → f.claims = .empty) := by
  have off : f.state ≠ .waiting ∧ f.state ≠ .proving ∧ f.state ≠ .running := by
    refine ⟨fun x => ?_, fun x => ?_, fun x => ?_⟩ <;> (unfold Fan.takesClaims at t; rw [x] at t; cases t)
  refine ⟨?_, h.unasked off.1, fun c => h.unclaimed c (.inr t)⟩
  cases e : f.output with
  | false => rfl
  | true =>
    rcases h.output e with x | x | x
    · exact absurd x off.2.1
    · exact absurd x off.2.2
    · rw [h.armed m] at x; cases x.1

/-- A fan comes from FAULT or LOCKOUT to IDLE, and tests for an owed exercise (R82, R89, R91). -/
theorem Lawful.freed (h : Lawful K w) (m : (w.st.fan i).state ≠ .unmanaged) (t : (w.st.fan i).takesClaims = false) {f : Fan}
    (cfg : f.cfg = (w.st.fan i).cfg) (state : f.state = .idle) (output : f.output = (w.st.fan i).output)
    (claims : f.claims = (w.st.fan i).claims) : Lawful K ((w.moveFan i f).testExercise i) := by
  obtain ⟨off, request, empty⟩ := (h.1.fits i).offline m t
  refine h.idle (atFan_moveFan w i cfg) m ?_ ?_ ?_ ?_
  · rw [moveFan_fan]; exact state
  · rw [moveFan_fan]; exact output.trans off
  · rw [moveFan_fan]; exact fun c => claims.trans (empty c)
  · rw [moveFan_request, request]

theorem Lawful.releaseFan (h : Lawful K w) (locked : (w.st.fan i).state.lockedOut = true) : Lawful K (w.releaseFan i) := by
  have state : (w.st.fan i).state ≠ .unmanaged ∧ (w.st.fan i).takesClaims = false := by
    cases e : (w.st.fan i).state with
    | lockout cause => exact ⟨nofun, by unfold Fan.takesClaims; rw [e]⟩
    | _ => rw [e] at locked; cases locked
  obtain ⟨off, request, -⟩ := (h.1.fits i).offline state.1 state.2
  have idle : Lawful K ((w.moveFan i { { w.st.fan i with retriesLeft := (w.st.fan i).cfg.retries } with state := .idle }).testExercise i) :=
    h.freed state.1 state.2 rfl rfl rfl rfl
  unfold Work.releaseFan
  dsimp only
  split
  · exact idle
  · split
    · exact idle
    · refine h.atRest (atFan_moveFan w i rfl) state.1 ?_ ?_ (.inl ?_)
      · rw [moveFan_fan]; exact off
      · rw [moveFan_request, request]
      · rw [moveFan_fan]; rfl

/-! ## Events -/

theorem Lawful.retryFan (h : Lawful K w) (state : (w.st.fan i).state = .fault) : Lawful K (w.retryFan i) := by
  have m : (w.st.fan i).state ≠ .unmanaged := by rw [state]; exact nofun
  have t : (w.st.fan i).takesClaims = false := by unfold Fan.takesClaims; rw [state]
  unfold Work.retryFan
  dsimp only
  split
  · refine h.atRest (atFan_moveFan w i rfl) m ?_ ?_ (.inr ?_)
    · rw [moveFan_fan]; rfl
    · rw [moveFan_request, ((h.1.fits i).offline m t).2.1]
    · rw [moveFan_fan]; exact ⟨rfl, .inr ⟨_, rfl⟩⟩
  · exact h.freed m t rfl rfl rfl rfl

theorem Lawful.faulted (h : Lawful K w) (state : (w.st.fan i).state = .proving ∨ (w.st.fan i).state = .running) (detail : FanFault)
    (clock : Nat) : Lawful K (w.moveFan i ((w.st.fan i).faulted clock detail)) := by
  refine h.atRest (atFan_moveFan w i rfl) (by rcases state with x | x <;> rw [x] <;> exact nofun) ?_ ?_ (.inr ?_)
  · rw [moveFan_fan]; rfl
  · rw [moveFan_request]
    exact (h.1.fits i).unasked (by rcases state with x | x <;> rw [x] <;> exact nofun)
  · rw [moveFan_fan]; exact ⟨rfl, .inl rfl⟩

theorem Lawful.coastExpiry (h : Lawful K w) (state : (w.st.fan i).state = .coasting) :
    Lawful K (if (w.st.fan i).claims.none_ then w.enterIdle i else w.enterWaiting i) := by
  have m : (w.st.fan i).state ≠ .unmanaged := by rw [state]; exact nofun
  split
  · rename_i none_
    unfold Work.enterIdle
    refine h.idle (atFan_moveFan w i rfl) m ?_ ?_ ?_ ?_
    · rw [moveFan_fan]; rfl
    · rw [moveFan_fan]; exact (h.1.fits i).off (.inr (.inl state))
    · rw [moveFan_fan]; exact fun _ => empty_of_none none_
    · rw [moveFan_request]; exact (h.1.fits i).unasked (by rw [state]; exact nofun)
  · rename_i some_
    exact .enterWaiting h.1 (.inr state) (by simpa using some_) fun _ _ => id

theorem Lawful.minRunExpiry (h : Lawful K w) (unstarted : ¬K.started i)
    (state : (w.st.fan i).state = .proving ∨ (w.st.fan i).state = .running) (clock : Nat) :
    Lawful K (if (w.st.fan i).stopPending then
        w.moveFan i ({ w.st.fan i with minRunTimer := none, minRunElapsed := true }.coasting clock)
      else w.moveFan i { w.st.fan i with minRunTimer := none, minRunElapsed := true }) := by
  have m : (w.st.fan i).state ≠ .unmanaged := by rcases state with x | x <;> rw [x] <;> exact nofun
  split
  · refine h.atRest (atFan_moveFan w i rfl) m ?_ ?_ (.inl ?_)
    · rw [moveFan_fan]; rfl
    · rw [moveFan_request]
      exact (h.1.fits i).unasked (by rcases state with x | x <;> rw [x] <;> exact nofun)
    · rw [moveFan_fan]; rfl
  · rename_i going
    refine h.atSame (atFan_moveFan w i rfl) ?_ (by rw [moveFan_fan]; rfl) (by rw [moveFan_fan]; rfl)
    rw [moveFan_fan, moveFan_request]
    have fits := h.1.fits i
    refine Fan.Fits.remeasured (f := { w.st.fan i with minRunTimer := none, minRunElapsed := true }) ⟨fits.output, fits.waiting, fits.unarmed, fits.absent, fits.managed, fits.unclaimed, fits.claimed, ?_⟩ _ _
    intro c x
    rcases fits.stopping c x with y | y
    · refine .inl ⟨y.1, fun none_ => ?_⟩
      exact absurd (y.1.trans none_) going
    · exact absurd y.1 unstarted

theorem Lawful.takeFlow (h : Lawful K w) : Lawful K (w.takeFlow i) := by
  have toggled : Lawful K (w.moveFan i { w.st.fan i with flow := (w.st.fan i).flow.toggle }) := h.rewrite rfl rfl rfl rfl rfl rfl rfl
  unfold Work.takeFlow
  dsimp only
  split
  · rename_i state
    split
    · have a : AtFan i w ((w.moveFan i { w.st.fan i with flow := (w.st.fan i).flow.toggle }).enterRunning i) :=
        (atFan_moveFan w i (f := { w.st.fan i with flow := (w.st.fan i).flow.toggle }) rfl).trans (atFan_enterRunning _ i)
      have fits := h.1.fits i
      have fan : ((w.moveFan i { w.st.fan i with flow := (w.st.fan i).flow.toggle }).enterRunning i).st.fan i = _ := moveFan_fan ..
      have request : ((w.moveFan i { w.st.fan i with flow := (w.st.fan i).flow.toggle }).enterRunning i).st.requestTime i =
          w.st.requestTime i := by
        unfold Work.enterRunning
        rw [moveFan_request, moveFan_request]
      have m : (w.st.fan i).state ≠ .unmanaged := by rw [show (w.st.fan i).state = .proving from state]; exact nofun
      refine h.atMoving a ?_ (by rw [fan]; exact nofun) (by rw [fan]; exact nofun)
      rw [fan, request, moveFan_fan, fits.unasked (by rw [show (w.st.fan i).state = .proving from state]; exact nofun)]
      refine Fan.Fits.remeasured ?_ _ _
      refine fits.move m nofun rfl (fun _ => .inr rfl) ⟨nofun, nofun⟩ ?_ nofun fun c _ => fits.stopping c (.inl state)
      rintro _ (x | x)
      · exact FanState.noConfusion x
      · cases x
    · exact toggled
  · exact h.rewrite rfl rfl rfl rfl rfl rfl rfl
  all_goals exact toggled

end

end Sys2Proof.Machine
end

section
/-! Every hand-over keeps the order of the fans. -/

namespace Sys2Proof.Machine

/-! ## The alarm unit's pass -/

/-- What a change of the regime hands on (R141). -/
def Work.regimePosts (w : Work) (old new : Regime) : List Handover :=
  (inOpenOrder w.st.choices (if decide (old = .critical) != decide (new = .critical) then w.st.activeZones else [])).map .critical ++
    [.toArbiter, .toFans (old.alarming && !new.alarming)]

theorem handRegime_out (w : Work) (old new : Regime) : (w.handRegime old new).out = w.out ++ w.regimePosts old new := by
  have posts := forEachOpen_post_out w (if decide (old = .critical) != decide (new = .critical) then w.st.activeZones else []) Handover.critical
  change (Work.forEachOpen w _ fun w z => w.post (.critical z)).out ++ [.toArbiter] ++ [.toFans (old.alarming && !new.alarming)] = _
  rw [posts, List.append_assoc, List.append_assoc]
  rfl

/-- Work that reaches neither a fan, nor a zone, nor the arbiter. -/
structure BlocksKept (w v : Work) : Prop where
  fans : v.st.fans = w.st.fans
  zones : v.st.zones = w.st.zones
  arb : v.st.arb = w.st.arb
  setup : v.st.setup = w.st.setup
  chans : v.st.chans = w.st.chans
  probes : v.st.probes = w.st.probes

theorem foldl_notice_blocks (bs : List NoticeBody) (s : State) : (bs.foldl State.notice s).fans = s.fans ∧
    (bs.foldl State.notice s).zones = s.zones ∧ (bs.foldl State.notice s).arb = s.arb ∧ (bs.foldl State.notice s).setup = s.setup ∧
    (bs.foldl State.notice s).chans = s.chans ∧ (bs.foldl State.notice s).probes = s.probes ∧
    (bs.foldl State.notice s).choices = s.choices ∧ (bs.foldl State.notice s).alarm = s.alarm := by
  induction bs generalizing s with
  | nil => exact ⟨rfl, rfl, rfl, rfl, rfl, rfl, rfl, rfl⟩
  | cons b bs ih => exact ih (s.notice b)

/-- A pass over the alarm unit `a`: nothing but the alarm unit is reached, and a change of the regime is handed on. -/
theorem alarmPass_blocks (w : Work) (a : Alarm) (changed : Bool) (notes : List NoticeBody) :
    BlocksKept w ((w.map fun s => s.setAlarm a).alarmPass changed notes) ∧
    ((w.map fun s => s.setAlarm a).alarmPass changed notes).st.alarm.regime = regimeOf a ∧
    ((w.map fun s => s.setAlarm a).alarmPass changed notes).out =
      w.out ++ if regimeOf a = a.regime then [] else w.regimePosts a.regime (regimeOf a) := by
  obtain ⟨n, st⟩ := alarmPass_st (w.map fun s => s.setAlarm a) changed notes
  have judged := judge_st (w.map fun s => s.setAlarm a) changed notes
  obtain ⟨fans, zones, arb, setup, chans, probes, choices, alarm⟩ := foldl_notice_blocks
    (a.passNotes w.st.setup.armed notes) ((w.st.setAlarm a).setAlarm (a.judged changed w.st.setup.armed))
  refine ⟨?_, ?_, ?_⟩
  · refine ⟨?_, ?_, ?_, ?_, ?_, ?_⟩ <;> rw [st, judged]
    · exact fans
    · exact zones
    · exact arb
    · exact setup
    · exact chans
    · exact probes
  · rw [alarmPass_alarm]; rfl
  · rw [alarmPass_eq]
    change (if regimeOf a = a.regime then _ else _ : Work).out = _
    split
    · rw [judge_out, List.append_nil]; rfl
    · rw [handRegime_out, judge_out]
      have same : ((w.map fun s => s.setAlarm a).judge changed notes).st.choices = w.st.choices ∧
          ((w.map fun s => s.setAlarm a).judge changed notes).st.activeZones = w.st.activeZones := by
        rw [judged]
        refine ⟨choices, ?_⟩
        have zone (z) : ((a.passNotes w.st.setup.armed notes).foldl State.notice
            ((w.st.setAlarm a).setAlarm (a.judged changed w.st.setup.armed))).zone z = w.st.zone z := by
          unfold State.zone; rw [zones]; rfl
        unfold State.activeZones
        exact List.filter_congr fun z _ => congrArg Zone.active (zone z)
      unfold Work.regimePosts
      rw [same.1, same.2]
      rfl

section
variable {K : Aims} {w v : Work} {i : Fin 8}

/-- A pass keeps the order: where the regime changes, the arbiter and the fans are told. -/
theorem Lawful.passed (h : Lawful K w) {a : Alarm} (same : a.regime = w.st.alarm.regime) (changed : Bool) (notes : List NoticeBody) :
    Lawful K ((w.map fun s => s.setAlarm a).alarmPass changed notes) := by
  obtain ⟨kept, regime, out⟩ := alarmPass_blocks w a changed notes
  have grown : ∀ x ∈ w.out, x ∈ ((w.map fun s => s.setAlarm a).alarmPass changed notes).out := by
    rw [out]
    exact fun x m => List.mem_append_left _ m
  by_cases steady : regimeOf a = a.regime
  · exact h.same kept.fans kept.arb kept.setup (by rw [regime, steady, same]) grown
  · rw [if_neg steady] at out
    have fan (j) : ((w.map fun s => s.setAlarm a).alarmPass changed notes).st.fan j = w.st.fan j := by unfold State.fan; rw [kept.fans]
    have told : ∀ x ∈ w.regimePosts a.regime (regimeOf a), x ∈ ((w.map fun s => s.setAlarm a).alarmPass changed notes).out := by
      rw [out]
      exact fun x m => List.mem_append_right _ m
    refine ⟨⟨fun j => ?_, by rw [kept.setup]; exact h.1.failsafe,
      fun b => (h.1.budget b).congr (by rw [kept.arb]) (by rw [kept.arb]) (by rw [kept.setup]), fun p => ⟨(h.1.owes p).1, fun j n => ?_⟩⟩,
      fun _ j _ => .inr (.inr (.inr (told _ ?_)))⟩
    · rw [fan, kept.setup]
      unfold State.requestTime
      rw [kept.arb]
      exact h.1.fits j
    · rw [fan, regime]
      intro idle owed
      rcases (h.1.owes p).2 j n idle owed with alarming | told'
      · cases e : (regimeOf a).alarming with
        | true => exact .inl rfl
        | false =>
          refine .inr (told _ ?_)
          unfold Work.regimePosts
          rw [same, alarming, e]
          exact List.mem_append_right _ (List.mem_cons_of_mem _ (List.mem_singleton.2 rfl))
      · exact .inr (grown _ told')
    · unfold Work.regimePosts
      exact List.mem_append_right _ (List.mem_cons_self ..)

/-! ## Zones -/

theorem Lawful.setZone (h : Lawful K w) (z : Fin 6) (g : State → Zone) : Lawful K (w.map fun s => s.setZone z (g s)) :=
  h.same rfl rfl rfl rfl fun _ m => m

theorem Lawful.post (h : Lawful K w) (x : Handover) : Lawful K (w.post x) :=
  h.same rfl rfl rfl rfl fun _ m => List.mem_append_left _ m

theorem Lawful.postAll (h : Lawful K w) (xs : List Handover) : Lawful K (w.postAll xs) :=
  h.same rfl rfl rfl rfl fun _ m => List.mem_append_left _ m

theorem Lawful.notice (h : Lawful K w) (b : NoticeBody) : Lawful K (w.notice b) := h.same rfl rfl rfl rfl fun _ m => m

theorem lawful_foldl {α : Type} {f : Work → α → Work} (step : ∀ w x, Lawful K w → Lawful K (f w x)) (xs : List α) (w : Work)
    (h : Lawful K w) : Lawful K (xs.foldl f w) := by
  induction xs generalizing w with
  | nil => exact h
  | cons x xs ih => exact ih _ (step w x h)

theorem lawful_forEachOpen {α : Type} {f : Work → α → Work} (step : ∀ w x, Lawful K w → Lawful K (f w x)) (xs : List α) (w : Work)
    (h : Lawful K w) : Lawful K (w.forEachOpen xs f) :=
  lawful_foldl step _ _ (h.same rfl rfl rfl rfl fun _ m => m)

theorem Lawful.allocate (h : Lawful K w) (z : Fin 6) : Lawful K (w.allocate z) :=
  lawful_foldl (fun _ _ x => x.addClaim _) _ _ (lawful_foldl (fun _ _ x => x.removeClaim _) _ _ (h.setZone z fun _ => _))

theorem Lawful.endEvaluation (h : Lawful K w) (z : Fin 6) (before : Zone) : Lawful K (w.endEvaluation z before) := by
  unfold Work.endEvaluation
  exact .ite (fun _ => h.postAll _) fun _ => (h.postAll _).notice _

theorem Lawful.demandStep (h : Lawful K w) (z : Fin 6) (always : Bool) : Lawful K (w.demandStep z always) := by
  unfold Work.demandStep
  exact .ite (fun _ => (h.setZone z fun _ => _).allocate z) fun _ => h.setZone z fun _ => _

theorem Lawful.evaluateSight (h : Lawful K w) (z : Fin 6) : Lawful K (w.evaluateSight z) :=
  ((h.setZone z fun s => s.sense z).demandStep z false).endEvaluation z _

theorem Lawful.evaluateDemand (h : Lawful K w) (z : Fin 6) (r : Zone) (always : Bool) : Lawful K (w.evaluateDemand z r always) :=
  ((h.setZone z fun _ => r).demandStep z always).endEvaluation z _

theorem Lawful.evaluateAllocation (h : Lawful K w) (z : Fin 6) (r : Zone) : Lawful K (w.evaluateAllocation z r) :=
  ((h.setZone z fun _ => r).allocate z).endEvaluation z _

theorem Lawful.takeCoupling (h : Lawful K w) (z : Fin 6) (active : Bool) : Lawful K (w.takeCoupling z active) := by
  unfold Work.takeCoupling
  exact .ite (fun _ => h.setZone z fun _ => _) fun _ => h.evaluateDemand z _ false

theorem Lawful.takeSpill (h : Lawful K w) (z : Fin 6) : Lawful K (w.takeSpill z) := by
  unfold Work.takeSpill
  exact .ite (fun _ => h) fun _ => h.evaluateDemand z _ false

theorem Lawful.ifActive (h : Lawful K w) (z : Fin 6) {f : Work → Work} (step : Lawful K (f w)) : Lawful K (w.ifActive z f) :=
  .ite (fun _ => step) fun _ => h

theorem Lawful.perform (h : Lawful K w) (a : Action) : Lawful K (w.perform a) := by
  cases a with
  | rotate z => exact h.evaluateAllocation z _
  | start i d => exact h.startManual d
  | exercise i => exact (h.write (g := fun s => { s.fan i with exerciseDue := some s.clock }) rfl rfl rfl rfl rfl rfl rfl).exerciseFallsDue
  | mark tag => exact h

/-! ## Hand-overs -/

theorem Ordered.drop {E : Fin 8 → Prop} {x : Handover} {rest : List Handover} (h : Ordered K E { w with out := x :: rest })
    (ne : x ≠ .toFans true) : Ordered K E { w with out := rest } :=
  ⟨h.fits, h.failsafe, h.budget, fun p => ⟨(h.owes p).1, fun i n idle owed =>
    ((h.owes p).2 i n idle owed).imp_right fun m => (List.mem_cons.1 m).resolve_left fun e => ne e.symm⟩⟩

theorem Awaited.drop {x : Handover} {rest : List Handover} (h : Awaited K { w with out := x :: rest }) (ne : x ≠ .toArbiter) :
    Awaited K { w with out := rest } := fun p i waits =>
  (h p i waits).imp_right (Or.imp_right (Or.imp_right fun m => (List.mem_cons.1 m).resolve_left fun e => ne e.symm))

/-- A hand-over that excuses nothing is taken off. -/
theorem Lawful.drop {x : Handover} {rest : List Handover} (h : Lawful K { w with out := x :: rest }) (a : x ≠ .toArbiter)
    (b : x ≠ .toFans true) : Lawful K { w with out := rest } := ⟨h.1.drop b, h.2.drop a⟩

/-- Just the fans of a list may still owe an exercise that they might take; once each has been tested, none does. -/
theorem tests_ordered (xs : List (Fin 8)) (w : Work) (h : Ordered K (· ∈ xs) w) (a : Awaited K w) :
    Lawful K (xs.foldl Work.testExercise w) := by
  induction xs generalizing w with
  | nil => exact ⟨h.weaken fun i m => (nomatch m), a⟩
  | cons x xs ih =>
    exact ih _ (h.testExercise fun j ne m => (List.mem_cons.1 m).resolve_left ne) (.testExercise h a)

/-- The fans are told of a fall of the regime, or of a change that is none. -/
theorem Lawful.takeFans {rest : List Handover} {fell : Bool} (h : Lawful K { w with out := .toFans fell :: rest }) :
    Lawful K ({ w with out := rest }.take (.toFans fell)) := by
  cases fell with
  | false => exact h.drop nofun nofun
  | true =>
    have ordered : Ordered K (fun i => w.st.takesExercise i = true) { w with out := rest } :=
      ⟨h.1.fits, h.1.failsafe, h.1.budget, fun p => ⟨(h.1.owes p).1, fun i n idle owed =>
        .inl (untaken_alarming ((h.1.fits i).unclaimed (h.1.owes p).1 (.inl idle)) idle owed n)⟩⟩
    refine tests_ordered (inOpenOrder w.st.choices ((List.finRange 8).filter w.st.takesExercise)) _ ?_ ?_
    · refine (ordered.weaken fun i t => ?_).same rfl rfl rfl rfl fun _ m => m
      exact (inOpenOrder_perm ..).mem_iff.2 (List.mem_filter.2 ⟨List.mem_finRange i, t⟩)
    · exact (h.2.drop nofun).same rfl rfl rfl fun _ m => m

theorem buildTrace_blocks (s : State) (c : Fin 16) : (s.buildTrace c).fans = s.fans ∧ (s.buildTrace c).arb = s.arb ∧
    (s.buildTrace c).setup = s.setup ∧ (s.buildTrace c).alarm = s.alarm ∧ (s.buildTrace c).zones = s.zones ∧
    (s.buildTrace c).chans = s.chans ∧ (s.buildTrace c).probes = s.probes := by
  unfold State.buildTrace
  split <;> exact ⟨rfl, rfl, rfl, rfl, rfl, rfl, rfl⟩

/-- Whatever the hand-over, taking it keeps the order. -/
theorem Lawful.take {x : Handover} {rest : List Handover} (h : Lawful K { w with out := x :: rest }) :
    Lawful K ({ w with out := rest }.take x) := by
  have zone {x : Handover} {z : Fin 6} {f : Work → Work} (h : Lawful K { w with out := x :: rest }) (a : x ≠ .toArbiter) (b : x ≠ .toFans true)
      (step : ∀ {v : Work}, Lawful K v → Lawful K (f v)) : Lawful K ({ w with out := rest }.ifActive z f) :=
    (h.drop a b).ifActive z (step (h.drop a b))
  cases x with
  | condition k image =>
    exact Lawful.passed (h.drop nofun nofun) (a := { w.st.alarm with
      images := vset w.st.alarm.images k image, records := vset w.st.alarm.records k (recordAfter (classOf k) (w.st.alarm.masks (classOf k))
        w.st.room (w.st.alarm.image k) image (w.st.alarm.record k)) }) rfl _ _
  | paused z yes =>
    exact Lawful.passed (h.drop nofun nofun) (a := { w.st.alarm with paused := vset w.st.alarm.paused z yes }) rfl _ _
  | eqz active => exact Lawful.passed (h.drop nofun nofun) (a := { w.st.alarm with eqz := active }) rfl _ _
  | member z => exact zone (f := fun w => w.evaluateSight z) h nofun nofun fun v => v.evaluateSight z
  | coupling z active => exact zone (f := fun w => w.takeCoupling z active) h nofun nofun fun v => v.takeCoupling z active
  | spill z => exact zone (f := fun w => w.takeSpill z) h nofun nofun fun v => v.takeSpill z
  | critical z => exact zone (f := fun w => w.evaluateDemand z (w.st.zone z) true) h nofun nofun fun v => v.evaluateDemand z _ true
  | availability z => exact zone (f := fun w => w.evaluateAllocation z (w.st.zone z)) h nofun nofun fun v => v.evaluateAllocation z _
  | toArbiter => exact (Ordered.drop h.1 nofun).consider
  | toFans fell => exact h.takeFans
  | completion c =>
    obtain ⟨fans, arb, setup, alarm, -⟩ := buildTrace_blocks w.st c
    exact (h.drop nofun nofun).same fans arb setup (congrArg Alarm.regime alarm) fun _ m => m

theorem Lawful.settle (h : Lawful K w) (fuel : Nat) : Lawful K (w.settle fuel) := by
  induction fuel generalizing w with
  | zero => exact h
  | succ fuel ih =>
    unfold Work.settle
    split
    · exact h
    · rename_i x rest e
      refine ih (Lawful.take (w := w) ?_)
      rw [← e]
      exact h

theorem Lawful.fireSlot (h : Lawful K w) (k : Fin 8) (jump : Bool) : Lawful K (w.fireSlot k jump) := by
  cases e : w.st.slot k with
  | none => rw [fireSlot_none e]; exact h
  | some r =>
    rw [fireSlot_some e]
    refine Lawful.settle ?_ _
    have acted : Lawful K (w.act r.action) := .ite (fun _ => h.perform _) fun _ => h
    exact (acted.notice (.scheduleFired k r.action (w.st.outcomeOf r.action) jump)).same rfl rfl rfl rfl fun _ m => m

end

end Sys2Proof.Machine
end

section
/-! What the work on one channel hands over: its two conditions where they change (R12, R16), its zone where what the zone senses may
have changed (R11, R45), and a completion (R198); `ChannelTurn` and `Told`. -/

namespace Sys2Proof.Machine

/-! ## The image that the alarm unit will hold -/

/-- The image of a key once the hand-overs that wait have been taken: the last that waits, else the one that stands. -/
def Work.shown (w : Work) (k : Fin 82) : Image :=
  w.out.foldl (fun image h => match h with
    | .condition j now => if j = k then now else image
    | .paused .. => image | .eqz _ => image | .member _ => image | .coupling .. => image | .spill _ => image | .critical _ => image
    | .availability _ => image | .toArbiter => image | .toFans _ => image | .completion _ => image) (w.st.alarm.image k)

/-- A hand-over that brings no image of this key. -/
def Handover.spares (k : Fin 82) (h : Handover) : Prop := ∀ image, h ≠ .condition k image

theorem foldl_spares {k : Fin 82} (new : List Handover) (spared : ∀ h ∈ new, h.spares k) (image : Image) :
    new.foldl (fun image h => match h with
      | .condition j now => if j = k then now else image
      | .paused .. => image | .eqz _ => image | .member _ => image | .coupling .. => image | .spill _ => image | .critical _ => image
      | .availability _ => image | .toArbiter => image | .toFans _ => image | .completion _ => image) image = image := by
  induction new generalizing image with
  | nil => rfl
  | cons h hs ih =>
    rw [List.foldl_cons]
    refine (ih (fun x m => spared x (List.mem_cons_of_mem _ m)) _).trans ?_
    cases h with
    | condition j now => exact if_neg fun e => spared _ List.mem_cons_self now (by rw [e])
    | _ => rfl

section
variable {w v u : Work} {k : Fin 82}

theorem shown_append {new : List Handover} (out : v.out = w.out ++ new) (alarm : v.st.alarm = w.st.alarm) :
    v.shown k = new.foldl (fun image h => match h with
      | .condition j now => if j = k then now else image
      | .paused .. => image | .eqz _ => image | .member _ => image | .coupling .. => image | .spill _ => image | .critical _ => image
      | .availability _ => image | .toArbiter => image | .toFans _ => image | .completion _ => image) (w.shown k) := by
  unfold Work.shown
  rw [out, alarm, List.foldl_append]

/-- Hand-overs that bring no image of the key leave what it will show. -/
theorem shown_spared {new : List Handover} (out : v.out = w.out ++ new) (alarm : v.st.alarm = w.st.alarm)
    (spared : ∀ h ∈ new, h.spares k) : v.shown k = w.shown k := by
  rw [shown_append out alarm, foldl_spares new spared]

/-- The last image that waits is the one that will be shown. -/
theorem shown_posted {new rest : List Handover} {image : Image} (out : v.out = w.out ++ (new ++ .condition k image :: rest))
    (alarm : v.st.alarm = w.st.alarm) (spared : ∀ h ∈ rest, h.spares k) : v.shown k = image := by
  rw [shown_append out alarm, List.foldl_append, List.foldl_cons, foldl_spares rest spared]
  exact if_pos rfl

end

/-! ## One channel -/

/-- CHANNEL NOTE's image (R16). -/
def Channel.noteImage (c : Channel) : Image := if c.noted then .raised 1 none else .inactive

/-- What the work on channel `i` may hand over. -/
def Handover.ofChannel (i : Fin 16) : Handover → Prop
  | .condition k _ => k = keyChannelNote i ∨ k = keyChannelFault i
  | .member _ => True
  | .completion j => j = i
  | .paused .. => False | .eqz _ => False | .coupling .. => False | .spill _ => False | .critical _ => False
  | .availability _ => False | .toArbiter => False | .toFans _ => False

/-- Work on one channel that hands over its conditions where they change, and no more weight than `n` in all. -/
structure ChannelTurn (i : Fin 16) (n : Nat) (w v : Work) : Prop where
  alarm : v.st.alarm = w.st.alarm
  member : (v.st.chan i).memberOf = (w.st.chan i).memberOf
  out : ∃ new, v.out = w.out ++ new ∧ (new.map Handover.weight).sum ≤ n ∧ ∀ h ∈ new, h.ofChannel i
  note : w.shown (keyChannelNote i) = (w.st.chan i).noteImage → v.shown (keyChannelNote i) = (v.st.chan i).noteImage
  fault : w.shown (keyChannelFault i) = (w.st.chan i).state.faultImage → v.shown (keyChannelFault i) = (v.st.chan i).state.faultImage

/-- The zone of channel `i` is told, or will sense what it sensed before. -/
def Told (i : Fin 16) (w v : Work) : Prop :=
  SeenAlike (w.st.chan i) (v.st.chan i) ∨ ∀ z, (v.st.chan i).memberOf = some z → .member z ∈ v.out

section
variable {i : Fin 16} {m n : Nat} {u v w : Work}

theorem ChannelTurn.refl (i : Fin 16) (w : Work) : ChannelTurn i 0 w w := ⟨rfl, rfl, ⟨[], by simp⟩, id, id⟩

theorem ChannelTurn.trans (a : ChannelTurn i m u v) (b : ChannelTurn i n v w) : ChannelTurn i (m + n) u w := by
  obtain ⟨x, hx, lx, ox⟩ := a.out
  obtain ⟨y, hy, ly, oy⟩ := b.out
  refine ⟨b.alarm.trans a.alarm, b.member.trans a.member, ⟨x ++ y, by rw [hy, hx, List.append_assoc], ?_, ?_⟩, b.note ∘ a.note,
    b.fault ∘ a.fault⟩
  · rw [List.map_append, List.sum_append]
    omega
  · exact fun h mem => (List.mem_append.1 mem).elim (ox h) (oy h)

theorem ChannelTurn.le (a : ChannelTurn i m w v) (h : m ≤ n) : ChannelTurn i n w v := by
  obtain ⟨x, hx, lx, ox⟩ := a.out
  exact ⟨a.alarm, a.member, ⟨x, hx, lx.trans h, ox⟩, a.note, a.fault⟩

theorem ChannelTurn.grown (a : ChannelTurn i n w v) : ∀ x ∈ w.out, x ∈ v.out := by
  obtain ⟨new, h, -⟩ := a.out
  rw [h]
  exact fun x m => List.mem_append_left _ m

theorem ChannelTurn.ite {p : Prop} [Decidable p] {a b : Work} (ha : p → ChannelTurn i n w a) (hb : ¬p → ChannelTurn i n w b) :
    ChannelTurn i n w (if p then a else b) := by
  split
  · exact ha ‹_›
  · exact hb ‹_›

theorem key_note_ne_fault (i : Fin 16) : keyChannelNote i ≠ keyChannelFault i := by revert i; decide

theorem weight_condition_channel (i : Fin 16) (image : Image) : (Handover.condition (keyChannelNote i) image).weight = 1 ∧
    (Handover.condition (keyChannelFault i) image).weight = 1 := by
  have : classOf (keyChannelNote i) ∉ [AlarmClass.gas, .blind, .spill] ∧ classOf (keyChannelFault i) ∉ [AlarmClass.gas, .blind, .spill] := by
    revert i; decide
  exact ⟨if_neg this.1, if_neg this.2⟩

theorem turn_notice (i : Fin 16) (w : Work) (b : NoticeBody) : ChannelTurn i 0 w (w.notice b) :=
  ⟨rfl, rfl, ⟨[], by simp [Work.notice, Work.map]⟩, id, id⟩

theorem turn_noticeAll (i : Fin 16) (bs : List NoticeBody) (w : Work) : ChannelTurn i 0 w (w.noticeAll bs) := by
  induction bs generalizing w with
  | nil => exact .refl i w
  | cons b bs ih => exact (turn_notice i w b).trans (ih (w.notice b))

theorem putChannel_out (w : Work) (i : Fin 16) (c : Channel) : (w.putChannel i c).out =
    w.out ++ if (w.st.chan i).noted = c.noted then [] else [.condition (keyChannelNote i) c.noteImage] := by
  unfold Work.putChannel
  dsimp only
  by_cases e : (w.st.chan i).noted = c.noted
  · rw [if_pos e, if_pos e, List.append_nil]; rfl
  · rw [if_neg e, if_neg e]; rfl

theorem putChannel_chan (w : Work) (i : Fin 16) (c : Channel) : (w.putChannel i c).st.chan i = c := by
  rw [putChannel_st, State.setChan_chan_same]

theorem putChannel_alarm (w : Work) (i : Fin 16) (c : Channel) : (w.putChannel i c).st.alarm = w.st.alarm := by
  rw [putChannel_st]; rfl

/-- A new record has its CHANNEL NOTE shown, and leaves CHANNEL FAULT. -/
theorem putChannel_shown (w : Work) (i : Fin 16) (c : Channel) :
    (w.shown (keyChannelNote i) = (w.st.chan i).noteImage → (w.putChannel i c).shown (keyChannelNote i) = c.noteImage) ∧
    (w.putChannel i c).shown (keyChannelFault i) = w.shown (keyChannelFault i) := by
  have out := putChannel_out w i c
  have alarm := putChannel_alarm w i c
  refine ⟨fun shown => ?_, shown_spared out alarm fun h mem image e => ?_⟩
  · by_cases e : (w.st.chan i).noted = c.noted
    · rw [if_pos e] at out
      rw [shown_spared out alarm fun _ m => (nomatch m), shown]
      unfold Channel.noteImage
      rw [e]
    · rw [if_neg e] at out
      exact shown_posted (new := []) out alarm fun _ m => (nomatch m)
  · split at mem
    · cases mem
    · rw [List.mem_singleton.1 mem] at e
      injection e with e
      exact key_note_ne_fault i e

/-- What the new record hands over. -/
theorem putChannel_posts (w : Work) (i : Fin 16) (c : Channel) : ∃ new, (w.putChannel i c).out = w.out ++ new ∧
    (new.map Handover.weight).sum ≤ 1 ∧ ∀ h ∈ new, h.ofChannel i := by
  refine ⟨_, putChannel_out w i c, ?_, ?_⟩
  · split
    · exact Nat.zero_le _
    · rw [List.map_singleton, List.sum_singleton, (weight_condition_channel i _).1]
  · intro h mem
    split at mem
    · cases mem
    · rw [List.mem_singleton.1 mem]; exact .inl rfl

theorem turn_putChannel {c : Channel} (member : c.memberOf = (w.st.chan i).memberOf) (state : c.state = (w.st.chan i).state) :
    ChannelTurn i 1 w (w.putChannel i c) := by
  obtain ⟨note, fault⟩ := putChannel_shown w i c
  exact ⟨putChannel_alarm w i c, by rw [putChannel_chan, member], putChannel_posts w i c, by rw [putChannel_chan]; exact note,
    by rw [putChannel_chan, state, fault]; exact id⟩

/-- A change of the channel's state, as far as it goes beyond the new record. -/
def Work.stateMoved (w : Work) (i : Fin 16) (c : Channel) : Work :=
  if (w.st.chan i).state.faultImage = c.state.faultImage then (w.putChannel i c).notice (.channelChange i c.state)
  else ((w.putChannel i c).notice (.channelChange i c.state)).post (.condition (keyChannelFault i) c.state.faultImage)

theorem moveChannel_eq (w : Work) (i : Fin 16) (c : Channel) :
    w.moveChannel i c = if (w.st.chan i).state = c.state then w.putChannel i c else w.stateMoved i c := rfl

theorem stateMoved_out (w : Work) (i : Fin 16) (c : Channel) : (w.stateMoved i c).out = (w.putChannel i c).out ++
    if (w.st.chan i).state.faultImage = c.state.faultImage then [] else [.condition (keyChannelFault i) c.state.faultImage] := by
  unfold Work.stateMoved
  by_cases e : (w.st.chan i).state.faultImage = c.state.faultImage
  · rw [if_pos e, if_pos e, List.append_nil]; rfl
  · rw [if_neg e, if_neg e]; rfl

theorem stateMoved_st (w : Work) (i : Fin 16) (c : Channel) : (w.stateMoved i c).st = (w.putChannel i c).st.notice (.channelChange i c.state) := by
  unfold Work.stateMoved
  split <;> rfl

theorem turn_stateMoved {c : Channel} (member : c.memberOf = (w.st.chan i).memberOf) : ChannelTurn i 2 w (w.stateMoved i c) := by
  obtain ⟨note, fault⟩ := putChannel_shown w i c
  have out := stateMoved_out w i c
  have chan : (w.stateMoved i c).st.chan i = c := by rw [stateMoved_st]; exact putChannel_chan w i c
  have alarm : (w.stateMoved i c).st.alarm = (w.putChannel i c).st.alarm := by rw [stateMoved_st]; rfl
  obtain ⟨new, puts, light, own⟩ := putChannel_posts w i c
  refine ⟨alarm.trans (putChannel_alarm w i c), by rw [chan, member], ⟨_, by rw [out, puts, List.append_assoc], ?_, ?_⟩,
    fun shown => ?_, fun shown => ?_⟩
  · rw [List.map_append, List.sum_append]
    split
    · exact light.trans (by decide)
    · rw [List.map_singleton, List.sum_singleton, (weight_condition_channel i _).2]
      exact Nat.add_le_add_right light 1
  · intro h mem
    rcases List.mem_append.1 mem with mem | mem
    · exact own h mem
    · split at mem
      · cases mem
      · rw [List.mem_singleton.1 mem]; exact .inr rfl
  · rw [chan, ← note shown]
    refine shown_spared out alarm fun h mem image e => ?_
    split at mem
    · cases mem
    · rw [List.mem_singleton.1 mem] at e
      injection e with e
      exact key_note_ne_fault i e.symm
  · rw [chan]
    by_cases e : (w.st.chan i).state.faultImage = c.state.faultImage
    · rw [if_pos e] at out
      rw [shown_spared out alarm fun _ m => (nomatch m), fault, shown, e]
    · rw [if_neg e] at out
      exact shown_posted (new := []) out alarm fun _ m => (nomatch m)

theorem turn_moveChannel {c : Channel} (member : c.memberOf = (w.st.chan i).memberOf) : ChannelTurn i 2 w (w.moveChannel i c) := by
  rw [moveChannel_eq]
  exact .ite (fun same => (turn_putChannel member same.symm).le (by decide)) fun _ => turn_stateMoved member

theorem moveChannel_chan (w : Work) (i : Fin 16) (c : Channel) : (w.moveChannel i c).st.chan i = c := by
  rw [moveChannel_eq]
  split
  · exact putChannel_chan w i c
  · rw [stateMoved_st]; exact putChannel_chan w i c

theorem turn_tellZone (w : Work) (i : Fin 16) : ChannelTurn i 245 w (w.tellZone i) := by
  have out := tellZone_out w i
  have alarm : (w.tellZone i).st.alarm = w.st.alarm := by rw [tellZone_st]
  have spared (k : Fin 82) : ∀ h ∈ ((w.st.chan i).memberOf.map Handover.member).toList, h.spares k := by
    intro h mem image e
    rw [e] at mem
    cases m : (w.st.chan i).memberOf with
    | none => rw [m] at mem; cases mem
    | some z => rw [m] at mem; cases List.mem_singleton.1 mem
  refine ⟨alarm, by rw [tellZone_st], ⟨_, out, ?_, ?_⟩, ?_, ?_⟩
  · cases (w.st.chan i).memberOf with
    | none => exact Nat.zero_le _
    | some z => exact Nat.le_of_eq rfl
  · intro h mem
    cases m : (w.st.chan i).memberOf with
    | none => rw [m] at mem; cases mem
    | some z => rw [m] at mem; rw [List.mem_singleton.1 mem]; trivial
  · rw [tellZone_st, shown_spared out alarm (spared _)]; exact id
  · rw [tellZone_st, shown_spared out alarm (spared _)]; exact id

theorem told_tellZone (u w : Work) (i : Fin 16) : Told i u (w.tellZone i) := by
  refine .inr fun z member => ?_
  rw [tellZone_st] at member
  rw [tellZone_out, member]
  exact List.mem_append_right _ (List.mem_singleton.2 rfl)

theorem turn_moveAndTell {c : Channel} (member : c.memberOf = (w.st.chan i).memberOf) : ChannelTurn i 247 w (w.moveAndTell i c) :=
  (turn_moveChannel member).trans (turn_tellZone _ i)

theorem turn_completion (w : Work) (i : Fin 16) : ChannelTurn i 1 w (w.post (.completion i)) := by
  have spared (k : Fin 82) : ∀ h ∈ [Handover.completion i], h.spares k := by
    intro h mem image e
    rw [List.mem_singleton.1 mem] at e
    cases e
  refine ⟨rfl, rfl, ⟨[.completion i], rfl, Nat.le_of_eq rfl, fun h mem => by rw [List.mem_singleton.1 mem]; rfl⟩, ?_, ?_⟩
  · rw [shown_spared (v := w.post (.completion i)) rfl rfl (spared _)]; exact id
  · rw [shown_spared (v := w.post (.completion i)) rfl rfl (spared _)]; exact id

/-! ## Completions and samples -/

theorem occurIf_fields (c : Channel) (test : Bool) (flag : ChannelFlag) : (c.occurIf test flag).cfg = c.cfg ∧
    (c.occurIf test flag).state = c.state ∧ (c.occurIf test flag).reading = c.reading := by
  unfold Channel.occurIf
  split <;> exact ⟨rfl, rfl, rfl⟩

/-- Two channels with the same configuration, state and reading are seen alike. -/
theorem SeenAlike.of_same {c d : Channel} (cfg : d.cfg = c.cfg) (state : d.state = c.state) (reading : d.reading = c.reading) :
    SeenAlike c d := by
  have healthy : d.healthy = c.healthy := by unfold Channel.healthy; rw [state, reading]
  have failed : d.failed = c.failed := by unfold Channel.failed; rw [state]
  exact ⟨cfg, failed, by rw [healthy, reading]⟩

theorem memberOf_congr {c d : Channel} (cfg : d.cfg = c.cfg) : d.memberOf = c.memberOf := by unfold Channel.memberOf; rw [cfg]

theorem completed_fields (c : Channel) (raw : Int) : (c.completeWindow.completionFlags raw).cfg = c.cfg ∧
    (c.completeWindow.completionFlags raw).state = c.state := by
  unfold Channel.completionFlags
  have a := occurIf_fields (c.completeWindow.occurIf (decide (raw < -50)) .negative) (decide (1000 < raw)) .over
  have b := occurIf_fields c.completeWindow (decide (raw < -50)) .negative
  exact ⟨a.1.trans b.1, a.2.1.trans b.2.1⟩

theorem turn_completionTests (w : Work) (i : Fin 16) (m raw : Int) : ChannelTurn i 2 w (w.completionTests i m raw) := by
  have still : ChannelTurn i 2 w w := (ChannelTurn.refl i w).le (by decide)
  have noted (b : NoticeBody) {c : Channel} (member : c.memberOf = (w.st.chan i).memberOf) :
      ChannelTurn i 2 w ((w.notice b).moveChannel i c) := (turn_notice i w b).trans (n := 2) (m := 0) (turn_moveChannel member)
  unfold Work.completionTests
  dsimp only
  split
  · exact .ite (fun _ => turn_moveChannel rfl) fun _ => still
  · refine turn_moveChannel ?_
    split <;> rfl
  · split
    · split
      · exact noted _ rfl
      · exact noted _ rfl
    · exact still
  · exact .ite (fun _ => noted _ rfl) fun _ => turn_moveChannel rfl
  · exact .ite (fun _ => turn_moveChannel rfl) fun _ => still
  · exact still
  · exact still

theorem turn_complete (w : Work) (i : Fin 16) : ChannelTurn i 249 w (w.complete i) := by
  have fields := completed_fields (w.st.chan i) ((w.st.chan i).concentration ((w.st.chan i).excessOf (w.st.chan i).windowMean))
  exact (((turn_putChannel (memberOf_congr fields.1) fields.2).trans (turn_completionTests _ i _ _)).trans (turn_tellZone _ i)).trans
    (turn_completion _ i)

theorem told_complete (u w : Work) (i : Fin 16) : Told i u (w.complete i) :=
  (told_tellZone u _ i).imp_right fun told z member => List.mem_append_left _ (told z member)

theorem fed_fields (c : Channel) (p : Profile) (s : Int) : (c.fed p s).cfg = c.cfg ∧ (c.fed p s).state = c.state ∧
    (c.fed p s).reading = c.reading := by
  unfold Channel.fed
  dsimp only
  refine ⟨(occurIf_fields ..).1.trans ((occurIf_fields ..).1.trans ?_), (occurIf_fields ..).2.1.trans ((occurIf_fields ..).2.1.trans ?_),
    (occurIf_fields ..).2.2.trans ((occurIf_fields ..).2.2.trans ?_)⟩
  all_goals split <;> rfl

theorem turn_feed (w : Work) (i : Fin 16) (s : Int) : ChannelTurn i 250 w (w.feed i s) ∧ Told i w (w.feed i s) := by
  obtain ⟨cfg, state, reading⟩ := fed_fields (w.st.chan i) (w.st.profile (w.st.chan i).cfg.profile) s
  have put : ChannelTurn i 1 w (w.putChannel i ((w.st.chan i).fed (w.st.profile (w.st.chan i).cfg.profile) s)) :=
    turn_putChannel (memberOf_congr cfg) state
  unfold Work.feed
  dsimp only
  split
  · exact ⟨put.trans (turn_complete _ i), told_complete w _ i⟩
  · refine ⟨put.le (by decide), .inl ?_⟩
    rw [putChannel_chan]
    exact .of_same cfg state reading

theorem Told.after (a : SeenAlike (u.st.chan i) (v.st.chan i)) (b : Told i v w) : Told i u w := b.imp_left a.trans

theorem turn_recoverLoop {c : Channel} (cfg : c.cfg = (w.st.chan i).cfg) (state : c.state = (w.st.chan i).state)
    (reading : c.reading = (w.st.chan i).reading) : ChannelTurn i 250 w (w.recoverLoop i c) ∧ Told i w (w.recoverLoop i c) := by
  unfold Work.recoverLoop
  split
  · exact ⟨((turn_moveChannel (memberOf_congr (by exact cfg))).trans (turn_tellZone _ i)).le (by decide), told_tellZone ..⟩
  · refine ⟨(turn_putChannel (memberOf_congr (by exact cfg)) (by exact state)).le (by decide), .inl ?_⟩
    rw [putChannel_chan]
    exact .of_same cfg state reading

theorem turn_validSample {c : Channel} (cfg : c.cfg = (w.st.chan i).cfg) (state : c.state = (w.st.chan i).state)
    (reading : c.reading = (w.st.chan i).reading) (code : Nat) :
    ChannelTurn i 251 w (w.validSample i c code) ∧ Told i w (w.validSample i c code) := by
  unfold Work.validSample
  dsimp only
  split
  · obtain ⟨turn, told⟩ := turn_recoverLoop (w := w) (i := i) (c := { c with oorCount := 0, lastValid := some ((code : Int) - 800) })
      cfg state reading
    exact ⟨turn.le (by decide), told⟩
  · have put : ChannelTurn i 1 w (w.putChannel i { c with oorCount := 0, lastValid := some ((code : Int) - 800) }) :=
      turn_putChannel (memberOf_congr (by exact cfg)) (by exact state)
    obtain ⟨turn, told⟩ := turn_feed (w.putChannel i { c with oorCount := 0, lastValid := some ((code : Int) - 800) }) i ((code : Int) - 800)
    refine ⟨put.trans turn, .after ?_ told⟩
    rw [putChannel_chan]
    exact .of_same cfg state reading

/-- A fault of one cause and a fault of another are seen alike. -/
theorem SeenAlike.of_faults {c d : Channel} (cfg : d.cfg = c.cfg) (before : c.state.cause.isSome = true) (after : d.state.cause.isSome = true) :
    SeenAlike c d := by
  have faulted : ∀ e : Channel, e.state.cause.isSome = true → e.failed = true ∧ e.healthy = false := by
    intro e h
    unfold Channel.failed Channel.healthy
    cases s : e.state with
    | fault cause => exact ⟨rfl, rfl⟩
    | _ => rw [s] at h; cases h
  obtain ⟨f, g⟩ := faulted c before
  obtain ⟨f', g'⟩ := faulted d after
  exact ⟨cfg, by rw [f, f'], by rw [g, g']; rfl⟩

theorem turn_outOfRangeInLoopFault {c : Channel} (cfg : c.cfg = (w.st.chan i).cfg) (state : c.state = (w.st.chan i).state)
    (reading : c.reading = (w.st.chan i).reading) (faulted : c.state.loopFault = true) (dir : LoopDir) :
    ChannelTurn i 2 w (w.outOfRangeInLoopFault i c dir) ∧ Told i w (w.outOfRangeInLoopFault i c dir) := by
  unfold Work.outOfRangeInLoopFault
  dsimp only
  split
  · refine ⟨turn_moveChannel (memberOf_congr (by exact cfg)), .inl ?_⟩
    rw [moveChannel_chan]
    refine .of_faults cfg ?_ rfl
    rw [← state]
    cases s : c.state with
    | fault cause => rfl
    | _ => rw [s] at faulted; cases faulted
  · refine ⟨(turn_putChannel (memberOf_congr (by exact cfg)) (by exact state)).le (by decide), .inl ?_⟩
    rw [putChannel_chan]
    exact .of_same cfg state reading

theorem turn_outOfRangeSample {c : Channel} (cfg : c.cfg = (w.st.chan i).cfg) (state : c.state = (w.st.chan i).state)
    (reading : c.reading = (w.st.chan i).reading) (dir : LoopDir) :
    ChannelTurn i 251 w (w.outOfRangeSample i c dir) ∧ Told i w (w.outOfRangeSample i c dir) := by
  have put : ChannelTurn i 1 w (w.putChannel i ({ c with oorDir := dir, oorCount := c.oorCount + 1 }.occur .loopHold)) :=
    turn_putChannel (memberOf_congr (by exact cfg)) (by exact state)
  have same : SeenAlike (w.st.chan i)
      ((w.putChannel i ({ c with oorDir := dir, oorCount := c.oorCount + 1 }.occur .loopHold)).st.chan i) := by
    rw [putChannel_chan]
    exact .of_same cfg state reading
  unfold Work.outOfRangeSample
  dsimp only
  split
  · have moved : ChannelTurn i 2 w ((w.noticeAll (abortNotices i c .loop)).moveChannel i
        (({ c with oorDir := dir, oorCount := c.oorCount + 1 }.occur .loopHold).loopFaulted dir w.st.clock)) := by
      refine ((turn_noticeAll i _ w).trans (turn_moveChannel ?_)).le (m := 0 + 2) (by decide)
      rw [noticeAll_chan]
      exact memberOf_congr (by exact cfg)
    split
    · rename_i already
      refine ⟨moved.le (by decide), .inl ?_⟩
      rw [moveChannel_chan]
      exact .of_faults cfg (by rw [← state]; exact already) rfl
    · exact ⟨(moved.trans (turn_tellZone _ i)).le (by decide), told_tellZone ..⟩
  · split
    · obtain ⟨turn, told⟩ := turn_feed (w.putChannel i ({ c with oorDir := dir, oorCount := c.oorCount + 1 }.occur .loopHold)) i _
      exact ⟨put.trans turn, .after same told⟩
    all_goals exact ⟨put.le (by decide), .inl same⟩

theorem turn_sample (w : Work) (i : Fin 16) (code : Nat) : ChannelTurn i 251 w (w.sample i code) ∧ Told i w (w.sample i code) := by
  unfold Work.sample
  dsimp only
  split
  · exact turn_validSample (c := { w.st.chan i with lastCode := some code, sampledAt := some w.st.clock }) rfl rfl rfl code
  · split
    · rename_i dir _ faulted
      obtain ⟨turn, told⟩ := turn_outOfRangeInLoopFault (w := w) (i := i)
        (c := { w.st.chan i with lastCode := some code, sampledAt := some w.st.clock }) rfl rfl rfl faulted dir
      exact ⟨turn.le (by decide), told⟩
    · exact turn_outOfRangeSample (c := { w.st.chan i with lastCode := some code, sampledAt := some w.st.clock }) rfl rfl rfl _

end

end Sys2Proof.Machine
end

section
/-! No step's own work makes more hand-overs than a cascade takes: each operation makes hand-overs of a bounded weight (`Posts`), so
that the cascade ends with none left (`settle_done`). -/

namespace Sys2Proof.Machine

/-- Work that makes hand-overs of no more weight than `n`, behind those that wait. -/
def Posts (n : Nat) (w v : Work) : Prop := ∃ new, v.out = w.out ++ new ∧ (new.map Handover.weight).sum ≤ n

section
variable {m n : Nat} {u v w : Work}

theorem Posts.refl (w : Work) : Posts 0 w w := ⟨[], by simp⟩

theorem Posts.of_eq (e : v.out = w.out) : Posts 0 w v := ⟨[], by rw [e]; simp⟩

theorem Posts.trans (a : Posts m u v) (b : Posts n v w) : Posts (m + n) u w := by
  obtain ⟨x, hx, lx⟩ := a
  obtain ⟨y, hy, ly⟩ := b
  exact ⟨x ++ y, by rw [hy, hx, List.append_assoc], by rw [List.map_append, List.sum_append]; omega⟩

theorem Posts.le (a : Posts m w v) (h : m ≤ n) : Posts n w v := by
  obtain ⟨x, hx, lx⟩ := a
  exact ⟨x, hx, lx.trans h⟩

theorem Posts.ite {p : Prop} [Decidable p] {a b : Work} (ha : p → Posts n w a) (hb : ¬p → Posts n w b) : Posts n w (if p then a else b) := by
  split
  · exact ha ‹_›
  · exact hb ‹_›

/-- Work that starts from no hand-over and makes few leaves none when its cascade ends. -/
theorem Posts.done (a : Posts n w v) (idle : w.out = []) (few : n ≤ 3848) : (v.settle settleLimit).out = [] := by
  obtain ⟨new, out, light⟩ := a
  refine finish_done v ?_
  rw [out, idle, List.nil_append]
  exact light.trans few

theorem Posts.grown (a : Posts n w v) : ∀ x ∈ w.out, x ∈ v.out := by
  obtain ⟨new, h, -⟩ := a
  rw [h]
  exact fun x m => List.mem_append_left _ m

theorem posts_foldl {α : Type} {f : Work → α → Work} (h : ∀ w a, Posts n w (f w a)) (xs : List α) (w : Work) :
    Posts (n * xs.length) w (xs.foldl f w) := by
  induction xs generalizing w with
  | nil => exact .refl w
  | cons x xs ih => exact ((h w x).trans (ih (f w x))).le (by rw [List.length_cons, Nat.mul_succ]; omega)

/-! ## Fans -/

/-- A hand-over that is made at most once. -/
theorem once_weight (p : Prop) [Decidable p] (h : Handover) : ((if p then [] else [h]).map Handover.weight).sum ≤ h.weight := by
  split
  · exact Nat.zero_le _
  · exact Nat.le_of_eq (by simp)

theorem handed_weight (f g : Fan) (i : Fin 8) : ((f.handed g i).map Handover.weight).sum ≤ 2 := by
  have fail (image : Image) : (Handover.condition (keyFanFail i) image).weight = 1 := if_neg (by rw [classOf_keyFanFail]; decide)
  have note (image : Image) : (Handover.condition (keyFlowNote i) image).weight = 1 := if_neg (by rw [classOf_keyFlowNote]; decide)
  unfold Fan.handed
  rw [List.map_append, List.sum_append]
  exact Nat.add_le_add ((once_weight ..).trans (fail _).le) ((once_weight ..).trans (note _).le)

theorem availability_weight (zs : List (Fin 6)) : ((zs.map Handover.availability).map Handover.weight).sum = 2 * zs.length := by
  induction zs with
  | nil => rfl
  | cons z zs ih => rw [List.map_cons, List.map_cons, List.sum_cons, ih, List.length_cons]; change 2 + _ = _; omega

theorem posts_moveFan (w : Work) (i : Fin 8) (f : Fan) : Posts 14 w (w.moveFan i f) := by
  refine ⟨_, (moveFan_out w i f).trans (List.append_assoc ..), ?_⟩
  rw [List.map_append, List.sum_append]
  have conditions := handed_weight (w.st.fan i) f i
  have few := zonesUsing_length w.st i
  split
  · exact conditions.trans (by decide)
  · rw [availability_weight, (inOpenOrder_perm ..).length_eq]
    omega

theorem posts_enterProving (w : Work) (i : Fin 8) : Posts 28 w (w.enterProving i) :=
  .ite (fun _ => (posts_moveFan ..).trans (posts_moveFan ..)) fun _ => (posts_moveFan ..).le (by decide)

theorem posts_consider (w : Work) : Posts 28 w w.consider := by
  cases h : w.st.grantChoice with
  | none => rw [consider_none h]; exact (Posts.refl w).le (by decide)
  | some i => rw [consider_some h]; exact posts_enterProving (w.counted i) i

theorem posts_enterWaiting (w : Work) (i : Fin 8) : Posts 42 w (w.enterWaiting i) :=
  ((posts_moveFan w i _).trans (.of_eq (v := w.queued i) rfl)).trans (posts_consider (w.queued i))

theorem posts_testExercise (w : Work) (i : Fin 8) : Posts 42 w (w.testExercise i) :=
  .ite (fun _ => posts_enterWaiting _ i) fun _ => (Posts.refl w).le (by decide)

theorem posts_enterIdle (w : Work) (i : Fin 8) : Posts 56 w (w.enterIdle i) := (posts_moveFan w i _).trans (posts_testExercise _ i)

theorem posts_stopOrCoast (w : Work) (i : Fin 8) : Posts 14 w (w.stopOrCoast i) :=
  .ite (fun _ => posts_moveFan ..) fun _ => (Posts.of_eq rfl).le (by decide)

theorem posts_addClaim (w : Work) (i : Fin 8) (src : Source) : Posts 42 w (w.addClaim i src) := by
  have added : Posts 42 w (w.map fun s => s.setFan i { s.fan i with claims := (s.fan i).claims.add src }) := (Posts.of_eq rfl).le (by decide)
  unfold Work.addClaim
  refine .ite (fun _ => (Posts.refl w).le (by decide)) fun _ => ?_
  dsimp only
  split
  · exact posts_enterWaiting (w.map fun s => s.setFan i { s.fan i with claims := (s.fan i).claims.add src }) i
  · exact (posts_consider (w.map fun s => s.setFan i { s.fan i with claims := (s.fan i).claims.add src })).le (by decide)
  all_goals exact added

theorem posts_removeClaim (w : Work) (i : Fin 8) (src : Source) : Posts 56 w (w.removeClaim i src) := by
  have removed : Posts 56 w (w.map fun s => s.setFan i ((s.fan i).withoutClaim src)) := (Posts.of_eq rfl).le (by decide)
  unfold Work.removeClaim
  refine .ite (fun _ => (Posts.refl w).le (by decide)) fun _ => .ite (fun _ => ?_) fun _ => ?_
  · split
    · exact posts_enterIdle ((w.map fun s => s.setFan i ((s.fan i).withoutClaim src)).map fun s => s.leaveWaiting i) i
    · exact (posts_stopOrCoast (w.map fun s => s.setFan i ((s.fan i).withoutClaim src)) i).le (by decide)
    · exact (posts_stopOrCoast (w.map fun s => s.setFan i ((s.fan i).withoutClaim src)) i).le (by decide)
    all_goals exact removed
  · split
    · exact (posts_consider (w.map fun s => s.setFan i ((s.fan i).withoutClaim src))).le (by decide)
    all_goals exact removed

theorem posts_startManual (w : Work) (i : Fin 8) (d : Nat) : Posts 42 w (w.startManual i d) := by
  have claimed : Posts 42 w ((w.map fun s => s.setFan i { s.fan i with manualDuration := if d = 0 then none else some d }).addClaim i .manual) :=
    posts_addClaim (w.map fun s => s.setFan i { s.fan i with manualDuration := if d = 0 then none else some d }) i .manual
  exact .ite (fun _ => claimed) fun _ => claimed

theorem posts_exerciseFallsDue (w : Work) (i : Fin 8) : Posts 42 w (w.exerciseFallsDue i) :=
  .ite (fun _ => (Posts.of_eq rfl).le (by decide)) fun _ =>
    posts_testExercise (w.map fun s => s.setFan i { s.fan i with exerciseDue := none, exerciseOwed := true }) i

theorem posts_takeFlow (w : Work) (i : Fin 8) : Posts 28 w (w.takeFlow i) := by
  have moved (f : Fan) : Posts 28 w (w.moveFan i f) := (posts_moveFan ..).le (by decide)
  unfold Work.takeFlow
  dsimp only
  split
  · exact .ite (fun _ => (posts_moveFan ..).trans (posts_moveFan ..)) fun _ => moved _
  all_goals exact moved _

theorem posts_retryFan (w : Work) (i : Fin 8) : Posts 56 w (w.retryFan i) :=
  .ite (fun _ => (posts_moveFan ..).le (by decide)) fun _ => (posts_moveFan ..).trans (posts_testExercise _ i)

theorem posts_releaseFan (w : Work) (i : Fin 8) : Posts 56 w (w.releaseFan i) := by
  unfold Work.releaseFan
  dsimp only
  split
  · exact (posts_moveFan ..).trans (posts_testExercise _ i)
  · exact .ite (fun _ => (posts_moveFan ..).trans (posts_testExercise _ i)) fun _ => (posts_moveFan ..).le (by decide)

theorem posts_lockFan (w : Work) (i : Fin 8) : Posts 14 w (w.lockFan i) := posts_moveFan ..

/-! ## Probes and the alarm unit -/

theorem condition_weight (k : Fin 82) (image : Image) : (Handover.condition k image).weight ≤ 121 := by
  change (if classOf k ∈ [AlarmClass.gas, .blind, .spill] then 121 else 1) ≤ 121
  split
  · exact le_rfl
  · decide

theorem changedImage_light (k : Fin 82) (a b : Image) : ((changedImage k a b).map Handover.weight).sum ≤ 121 :=
  (once_weight (a = b) (.condition k b)).trans (condition_weight ..)

theorem classOf_keyProbeFault (p : Fin 8) : classOf (keyProbeFault p) = .probeFault := by revert p; decide

theorem probeFault_light (p : Fin 8) (a b : Image) : ((changedImage (keyProbeFault p) a b).map Handover.weight).sum ≤ 1 := by
  refine (once_weight (a = b) (.condition (keyProbeFault p) b)).trans ?_
  change (if classOf (keyProbeFault p) ∈ [AlarmClass.gas, .blind, .spill] then 121 else 1) ≤ 1
  rw [classOf_keyProbeFault, if_neg (by decide)]

theorem posts_moveProbe (w : Work) (p : Fin 8) (r : Probe) : Posts 124 w (w.moveProbe p r) := by
  refine ⟨_, moveProbe_out w p r, ?_⟩
  have spill : (((w.st.probe p).spillHandover r).map Handover.weight).sum ≤ 2 := by
    unfold Probe.spillHandover
    split
    · exact Nat.zero_le _
    · split
      · exact Nat.le_of_eq rfl
      · exact Nat.zero_le _
  unfold Probe.handovers
  rw [List.map_append, List.sum_append, List.map_append, List.sum_append]
  exact Nat.add_le_add (Nat.add_le_add spill (changedImage_light ..)) (probeFault_light ..)

theorem regimePosts_weight (w : Work) (old new : Regime) : ((w.regimePosts old new).map Handover.weight).sum ≤ 14 := by
  have critical (zs : List (Fin 6)) : ((zs.map Handover.critical).map Handover.weight).sum = 2 * zs.length := by
    induction zs with
    | nil => rfl
    | cons z zs ih => rw [List.map_cons, List.map_cons, List.sum_cons, ih, List.length_cons]; change 2 + _ = _; omega
  have few : (if decide (old = .critical) != decide (new = .critical) then w.st.activeZones else []).length ≤ 6 := by
    split
    · exact (List.length_filter_le _ _).trans (by simp)
    · exact Nat.zero_le _
  unfold Work.regimePosts
  rw [List.map_append, List.sum_append, critical, (inOpenOrder_perm ..).length_eq]
  change _ + (1 + (1 + 0)) ≤ 14
  omega

theorem posts_passAlarm (w : Work) (a : Alarm) (changed : Bool) (notes : List NoticeBody) :
    Posts 14 w ((w.map fun s => s.setAlarm a).alarmPass changed notes) := by
  refine ⟨_, (alarmPass_blocks w a changed notes).2.2, ?_⟩
  split
  · exact Nat.zero_le _
  · exact regimePosts_weight ..

/-! ## What is paid for -/

/-- Work that is paid for but for `n` makes few hand-overs. -/
theorem Pays.done (p : Pays w v n) (idle : w.out = []) (few : n ≤ 3848) : (v.settle settleLimit).out = [] := by
  refine settle_done _ _ ?_
  have paid := p.weight
  have credit := w.st.credit_le
  unfold Work.weight at paid ⊢
  rw [idle, List.map_nil, List.sum_nil] at paid
  unfold settleLimit
  omega

end

end Sys2Proof.Machine
end

section
/-! The order of the fans through the effects that do one block's work: what each work hands over is few enough to be taken before the
step ends, so that the order holds then without an excuse. -/

namespace Sys2Proof.Machine

/-! ## What the work hands over is all taken -/

section
variable {w v : Work}

/-- A record that differs in nothing that is sensed and runs allocation. -/
theorem pays_reallocated (w : Work) (z : Fin 6) (r : Zone) (g : r.gas = (w.st.zone z).gas) (v : r.voted = (w.st.zone z).voted)
    (s : r.sight = (w.st.zone z).sight) : Pays w (w.evaluateAllocation z r) 1 := by
  have calm := (calm_allocate (w.map fun s => s.setZone z r) z).sense z
  rw [show (w.map fun s => s.setZone z r).st.zone z = r from State.setZone_zone_same ..] at calm
  exact ((pays_setZone w z fun _ => r).trans (pays_allocate _ z)).trans
    (pays_endEvaluation _ z (calm.gas.trans g) (calm.voted.trans v) (calm.sight.trans s))

theorem pays_rotateZone (w : Work) (z : Fin 6) : Pays w (w.rotateZone z) 1 := pays_reallocated w z _ rfl rfl rfl

/-- A slot's action, with what is written after it. -/
theorem performed_done (idle : w.out = []) (a : Action) {g : State → State} (fans : ∀ s, (g s).fans = s.fans)
    (arb : ∀ s, (g s).arb = s.arb) (alarm : ∀ s, (g s).alarm = s.alarm) :
    (((w.perform a).map g).settle settleLimit).out = [] := by
  have posted {n : Nat} {v : Work} (p : Posts n w v) (few : n ≤ 3848) : ((v.map g).settle settleLimit).out = [] :=
    Posts.done (p.trans (Posts.of_eq (v := v.map g) rfl)) idle few
  cases a with
  | rotate z =>
    exact ((pays_rotateZone w z).trans (pays_map _ (f := g) (fans _) (arb _) (alarm _))).done idle (by decide)
  | start i d => exact posted (posts_startManual w i d) (by decide)
  | exercise i => exact posted ((Posts.of_eq rfl).trans (posts_exerciseFallsDue _ i)) (by decide)
  | mark tag => exact posted (Posts.refl w) (by decide)

theorem fireSlot_done (idle : w.out = []) (k : Fin 8) (jump : Bool) : (w.fireSlot k jump).out = [] := by
  cases e : w.st.slot k with
  | none => rw [fireSlot_none e]; exact idle
  | some r =>
    rw [fireSlot_some e]
    by_cases p : w.st.outcomeOf r.action = .performed
    · have fired : w.fired k r jump = (w.perform r.action).map fun s =>
          (s.notice (.scheduleFired k r.action (w.st.outcomeOf r.action) jump)).setSlot k (r.movedOn s.room) := by
        unfold Work.fired Work.act
        rw [if_pos p]
        rfl
      rw [fired]
      exact performed_done idle r.action (fun _ => rfl) (fun _ => rfl) fun _ => rfl
    · have out : (w.fired k r jump).out = [] := by
        unfold Work.fired Work.act
        rw [if_neg p]
        exact idle
      exact Posts.done (Posts.refl _) out (by decide)

theorem ChannelTurn.posts {i : Fin 16} {n : Nat} (a : ChannelTurn i n w v) : Posts n w v := by
  obtain ⟨new, out, few, -⟩ := a.out
  exact ⟨new, out, few⟩

/-- A channel's move with its notices. -/
theorem turn_movedWith (w : Work) (i : Fin 16) (notes : List NoticeBody) {c : Channel} (cfg : c.cfg = (w.st.chan i).cfg) :
    ChannelTurn i 247 w ((w.noticeAll notes).moveAndTell i c) :=
  (turn_noticeAll i notes w).trans (m := 0) (turn_moveAndTell (memberOf_congr (by rw [noticeAll_chan]; exact cfg)))

theorem serviceFalls_done (idle : w.out = []) (i : Fin 16) : (w.serviceFalls i).out = [] :=
  (turn_movedWith w i (c := (w.st.chan i).endTest.enter .recover w.st.clock)
    [.testResult i (.testAborted .service (w.st.chan i).armedSpan.isSome)] rfl).posts.done idle (by decide)

/-- Where each taker leaves nothing to be taken, all together do. -/
theorem forEachOpen_idle {α : Type} {f : Work → α → Work} (step : ∀ w x, w.out = [] → (f w x).out = []) (xs : List α) (w : Work)
    (idle : w.out = []) : (w.forEachOpen xs f).out = [] := by
  have all : ∀ (ys : List α) (v : Work), v.out = [] → (ys.foldl f v).out = [] := by
    intro ys
    induction ys with
    | nil => exact fun v e => e
    | cons y ys ih => exact fun v e => ih _ (step v y e)
  exact all _ _ idle

/-- A change of EQZ is handed to the alarm unit and to each active zone. -/
theorem posts_eqz (w : Work) (g : State → State) (active : Bool) (zones : List (Fin 6)) (few : zones.length ≤ 6) :
    Posts 133 w (((w.map g).post (.eqz active)).forEachOpen zones fun w z => w.post (.coupling z active)) := by
  have coupled : ∀ (zs : List (Fin 6)) (v : Work), Posts (2 * zs.length) v (zs.foldl (fun w z => w.post (.coupling z active)) v) := by
    intro zs v
    exact posts_foldl (fun w z => ⟨[.coupling z active], rfl, Nat.le_of_eq rfl⟩) zs v
  have posted : Posts 121 w ((w.map g).post (.eqz active)) := ⟨[.eqz active], rfl, Nat.le_of_eq rfl⟩
  let chosen := ((w.map g).post (.eqz active)).map fun s => { s with choices := s.choices + drawsFor zones }
  have same : Posts 0 ((w.map g).post (.eqz active)) chosen := Posts.of_eq rfl
  refine ((posted.trans same).trans (coupled (inOpenOrder ((w.map g).post (.eqz active)).st.choices zones) chosen)).le ?_
  rw [(inOpenOrder_perm ..).length_eq]
  omega

theorem done_nil (idle : w.out = []) : (w.settle settleLimit).out = [] := Posts.done (Posts.refl w) idle (by decide)

end

/-! ## The order of the fans -/

section
variable {K : Aims} {s : State} {w v : Work} {i : Fin 8}

/-- A step that leaves nothing to be taken. -/
theorem Lawful.does {f : Work → Work} (h : Lawful K (f s.begin)) (idle : ((f s.begin).settle settleLimit).out = []) :
    Lawful K (s.does f).begin := (h.settle settleLimit).same rfl rfl rfl rfl fun _ m => by rw [idle] at m; exact m

/-- A write that reaches neither a fan, nor the arbiter, nor the part state, nor the regime. -/
theorem Lawful.beside {t : State} (h : Lawful K s.begin) (fans : t.fans = s.fans) (arb : t.arb = s.arb) (setup : t.setup = s.setup)
    (regime : t.alarm.regime = s.alarm.regime) : Lawful K t.begin := h.same fans arb setup regime fun _ m => m

/-- Work on one channel. -/
theorem Lawful.onChannel {i : Fin 16} (h : Lawful K w) (a : OnChannel i w.st v.st) (grown : ∀ x ∈ w.out, x ∈ v.out) : Lawful K v :=
  h.same (by rw [a.rest]) (by rw [a.rest]) (by rw [a.rest]) (by rw [a.rest]) grown

theorem onChannel_movedWith (w : Work) (i : Fin 16) (notes : List NoticeBody) {c : Channel} (cfg : c.cfg = (w.st.chan i).cfg)
    (range : KeepsRange (w.st.chan i) c) : OnChannel i w.st ((w.noticeAll notes).moveAndTell i c).st := by
  refine (onChannel_noticeAll i notes _).trans (onChannel_moveAndTell ?_)
  rw [noticeAll_chan]
  exact ⟨by rw [cfg], range⟩

theorem Lawful.serviceFalls (h : Lawful K w) (i : Fin 16) : Lawful K (w.serviceFalls i) :=
  Lawful.settle (h.onChannel (onChannel_serviceWork w i)
    (turn_movedWith w i (c := (w.st.chan i).endTest.enter .recover w.st.clock)
      [.testResult i (.testAborted .service (w.st.chan i).armedSpan.isSome)] rfl).grown) _

theorem Lawful.moveProbe (h : Lawful K w) (p : Fin 8) (r : Probe) : Lawful K (w.moveProbe p r) :=
  h.same rfl rfl rfl rfl (posts_moveProbe w p r).grown

end

end Sys2Proof.Machine
end

section
/-! The order of the fans in an UNARMED part, whose fans rest: its configuration requests, the failsafe starts, the power-on reset and
DISARM. -/

namespace Sys2Proof.Machine

/-- The fans of an UNARMED part rest: UNMANAGED, without a request or a claim, an output on at a made failsafe start alone, and nothing
granted. -/
structure Resting (K : Aims) (s : State) : Prop where
  unarmed : s.setup.armed = false
  state : ∀ i, (s.fan i).state = .unmanaged
  output : ∀ i, (s.fan i).output = true → vget s.setup.straps i = true ∧ vget s.setup.failsafeMade i = true
  claims : K.claims → ∀ i, (s.fan i).claims = .empty
  asked : ∀ i, s.requestTime i = none
  failsafe : ∀ i ∈ s.setup.failsafeList, vget s.setup.straps i = true
  history : K.budget → s.arb.history = []
  follows : K.prompt → K.claims

section
variable {K : Aims} {s : State}

theorem Lawful.resting (h : Lawful K s.begin) (unarmed : s.setup.armed = false) : Resting K s where
  unarmed := unarmed
  state i := (h.1.fits i).unarmed unarmed
  output i on := by
    have idle := (h.1.fits i).unarmed unarmed
    rcases (h.1.fits i).output on with state | state | made
    · rw [idle] at state; cases state
    · rw [idle] at state; cases state
    · exact made.2
  claims c i := (h.1.fits i).unclaimed c (.inr (by unfold Fan.takesClaims; rw [(h.1.fits i).unarmed unarmed]))
  asked i := (h.1.fits i).unasked (by rw [(h.1.fits i).unarmed unarmed]; exact nofun)
  failsafe i mem := (h.1.failsafe i mem).2
  history b := (h.1.budget b).unarmed unarmed
  follows p := (h.1.owes p).1

theorem Resting.lawful (h : Resting K s) : Lawful K s.begin := by
  refine ⟨⟨fun i => ?_, fun i mem => ⟨h.unarmed, h.failsafe i mem⟩, fun b => ?_, fun p => ⟨h.follows p, fun i _ idle => ?_⟩⟩,
    fun _ i waits => ?_⟩
  · change (s.fan i).Fits K s.setup i (s.requestTime i)
    have state := h.state i
    refine ⟨fun on => .inr (.inr ⟨h.unarmed, h.output i on⟩), ?_, fun _ => state, fun _ => state, fun armed => ?_,
      fun c _ => h.claims c i, fun _ waits => ?_, fun _ runs => ?_⟩
    · rw [h.asked i, state]; decide
    · rw [h.unarmed] at armed; cases armed
    · rw [state] at waits; cases waits
    · rw [state] at runs; rcases runs with e | e <;> cases e
  · exact ⟨by change s.arb.history.length ≤ _; rw [h.history b]; exact Nat.zero_le _, fun _ => h.history b⟩
  · have e := h.state i
    change (s.fan i).state = .idle at idle
    rw [e] at idle; cases idle
  · have e := h.state i
    change (s.fan i).state = .waiting at waits
    rw [e] at waits; cases waits

/-- A write in which every fan rests as before. -/
theorem Resting.congr {t : State} (h : Resting K s) (setup : t.setup = s.setup) (asked : ∀ i, t.requestTime i = s.requestTime i)
    (history : t.arb.history = s.arb.history) (fan : ∀ i, (t.fan i).state = (s.fan i).state ∧ (t.fan i).output = (s.fan i).output ∧
      (t.fan i).claims = (s.fan i).claims) : Resting K t where
  unarmed := by rw [setup]; exact h.unarmed
  state i := (fan i).1.trans (h.state i)
  output i := by rw [setup, (fan i).2.1]; exact h.output i
  claims c i := (fan i).2.2.trans (h.claims c i)
  asked i := (asked i).trans (h.asked i)
  failsafe := by rw [setup]; exact h.failsafe
  history b := history.trans (h.history b)
  follows := h.follows

theorem Resting.setFan (h : Resting K s) (i : Fin 8) (c : FanCfg) : Resting K (s.setFan i { s.fan i with cfg := c }) := by
  refine h.congr rfl (fun _ => rfl) rfl fun j => ?_
  rw [State.setFan_fan]
  by_cases e : i = j
  · subst e; rw [if_pos rfl]; exact ⟨rfl, rfl, rfl⟩
  · rw [if_neg e]; exact ⟨rfl, rfl, rfl⟩

/-- A failsafe start keeps the fans at rest: the started fan is strapped, and its start made (R180). -/
theorem Resting.failsafeStart (h : Resting K s) : Resting K s.failsafeStart := by
  cases list : s.setup.failsafeList with
  | nil =>
    rw [failsafeStart_nil list]
    exact ⟨h.unarmed, h.state, h.output, h.claims, h.asked, h.failsafe, h.history, h.follows⟩
  | cons i rest =>
    have strapped := h.failsafe i (by rw [list]; exact List.mem_cons_self)
    rw [failsafeStart_cons list]
    generalize min 65535 ((s.fan i).startCount + 1) = n
    have fan (j : Fin 8) : ((s.setFan i { s.fan i with output := true, startCount := n }).fan j) =
        if i = j then { s.fan i with output := true, startCount := n } else s.fan j := State.setFan_fan ..
    refine ⟨h.unarmed, fun j => ?_, fun j on => ?_, fun c j => ?_, h.asked, fun j mem => ?_, h.history, h.follows⟩
    · refine (congrArg Fan.state (fan j)).trans ?_
      split
      · exact h.state i
      · exact h.state j
    · by_cases e : i = j
      · subst e; exact ⟨strapped, vget_vset_same ..⟩
      · have on' : (s.fan j).output = true := by
          have := (congrArg Fan.output (fan j)).symm.trans on
          rwa [if_neg e] at this
        exact ⟨(h.output j on').1, (vget_vset ..).trans ((if_neg e).trans (h.output j on').2)⟩
    · refine (congrArg Fan.claims (fan j)).trans ?_
      split
      · exact h.claims c i
      · exact h.claims c j
    · exact h.failsafe j (by rw [list]; exact List.mem_cons_of_mem i mem)

theorem resting_poweredOn (follows : K.prompt → K.claims) (s : State) (lines : ResetLines) : Resting K (s.poweredOn lines) where
  unarmed := rfl
  state i := by rw [poweredOn_fan]; rfl
  output i on := by rw [poweredOn_fan] at on; cases on
  claims _ i := by rw [poweredOn_fan]; rfl
  asked i := vget_replicate ..
  failsafe i mem := by
    rw [poweredOn_failsafeList] at mem
    rw [poweredOn_straps]
    exact (List.mem_filter.1 mem).2
  history _ := rfl
  follows := follows

/-- DISARM brings the fans to rest (R100, R114, R187). -/
theorem resting_disarm (follows : K.prompt → K.claims) (s : State) : Resting K (s.does Work.disarm) := by
  have cleared := disarmBlocks_cleared s.begin
  rw [does_disarm, disarmedOver_eq, handToStraps_setup]
  generalize s.begin.disarmBlocks.st = d at cleared ⊢
  have straps : d.setup = s.setup := by
    obtain ⟨cs, zs, fs, e⟩ := cleared.swept
    rw [e, foldl_notice]
    rfl
  have fan (i : Fin 8) : d.fan i = (s.fan i).disarmedAt (vget s.setup.straps i) s.clock := cleared.fan i
  refine ⟨rfl, fun i => ?_, fun i on => ?_, fun _ i => ?_, fun i => vget_replicate .., fun i mem => ?_, fun _ => rfl, follows⟩
  · exact congrArg Fan.state ((fan i).trans (disarmedAt_eq ..))
  · change (d.fan i).output = true at on
    have strapped : vget d.setup.straps i = true := by
      have e := (congrArg Fan.output ((fan i).trans (disarmedAt_eq ..))).symm.trans on
      rw [straps]
      exact (Bool.and_eq_true_iff.1 e).2
    refine ⟨strapped, (vget_ofFn ..).trans ?_⟩
    rw [strapped, on]
    rfl
  · exact congrArg Fan.claims ((fan i).trans (disarmedAt_eq ..))
  · exact (Bool.and_eq_true_iff.1 (List.mem_filter.1 mem).2).1

end

end Sys2Proof.Machine
end

section
/-! The first steps of ARM: the enabled channels enter WARMUP and each fan is placed by its presence and its output (10.5). -/

namespace Sys2Proof.Machine

section
variable {u v w : Work}

/-! ## The channels (R18) -/

theorem moveChannel_st (w : Work) (i : Fin 16) (c : Channel) : ∃ l, (w.moveChannel i c).st = (w.st.setChan i c).setLink l := by
  have put : (w.putChannel i c).st = w.st.setChan i c := by
    unfold Work.putChannel
    dsimp only
    split <;> rfl
  rw [moveChannel_eq]
  split
  · exact ⟨w.st.link, put⟩
  · rw [stateMoved_st, put]; exact ⟨_, rfl⟩

/-- Work that reaches the channels alone. -/
structure ChannelsPlaced (xs : List (Fin 16)) (s t : State) : Prop where
  rest : ∃ cs l, t = { s with chans := cs, link := l }
  chan : ∀ i, t.chan i = if i ∈ xs then (s.chan i).arm s.clock else s.chan i

theorem armChannels_placed (xs : List (Fin 16)) (nodup : xs.Nodup) (w : Work) :
    ChannelsPlaced xs w.st (xs.foldl (fun w i => w.moveChannel i ((w.st.chan i).arm w.st.clock)) w).st := by
  induction xs generalizing w with
  | nil => exact ⟨⟨_, _, rfl⟩, fun i => by simp⟩
  | cons x xs ih =>
    obtain ⟨fresh, nodup⟩ := List.nodup_cons.1 nodup
    obtain ⟨l, first⟩ := moveChannel_st w x ((w.st.chan x).arm w.st.clock)
    obtain ⟨⟨cs, m, rest⟩, chan⟩ := ih nodup (w.moveChannel x ((w.st.chan x).arm w.st.clock))
    refine ⟨⟨cs, m, ?_⟩, fun i => ?_⟩
    · rw [List.foldl_cons, rest, first]; rfl
    · rw [List.foldl_cons, chan i, first]
      change (if i ∈ xs then ((w.st.setChan x _).chan i).arm w.st.clock else (w.st.setChan x _).chan i) = _
      rw [State.setChan_chan]
      by_cases e : x = i
      · subst e
        rw [if_neg fresh, if_pos rfl, if_pos List.mem_cons_self]
      · simp only [if_neg e, List.mem_cons, Ne.symm e, false_or]

/-! ## The fans (R99) -/

/-- A fan's record as ARM places it. -/
def Fan.placed (f : Fan) (clock : Nat) : Fan :=
  if !f.cfg.present then f.turnOff clock
  else if f.output then { (f.armed clock).startedAt clock with startCount := f.startCount }
  else ({ f.armed clock with state := .idle, coastTimer := none, retryTimer := none } : Fan).remeasure (f.armed clock) clock

theorem untested {i : Fin 8} (unowed : (w.st.fan i).exerciseOwed = false) : w.testExercise i = w := by
  have none_ : w.st.takesExercise i = false := by unfold State.takesExercise; dsimp only; rw [unowed]; simp
  unfold Work.testExercise
  rw [none_]
  rfl

theorem armFan_placed (w : Work) (i : Fin 8) : AtFan i w (w.armFan i) ∧ (w.armFan i).st.fan i = (w.st.fan i).placed w.st.clock ∧
    (w.armFan i).st.arb = w.st.arb ∧ Posts 56 w (w.armFan i) := by
  have ready : (w.map fun s => s.setFan i ((w.st.fan i).armed s.clock)).st.fan i = (w.st.fan i).armed w.st.clock :=
    State.setFan_fan_same ..
  have at_ : AtFan i w (w.map fun s => s.setFan i ((w.st.fan i).armed s.clock)) :=
    atFan_setFan w i (g := fun s => (w.st.fan i).armed s.clock) rfl
  have same : Posts 0 w (w.map fun s => s.setFan i ((w.st.fan i).armed s.clock)) := .of_eq rfl
  have clock : (w.map fun s => s.setFan i ((w.st.fan i).armed s.clock)).st.clock = w.st.clock := rfl
  have arb : (w.map fun s => s.setFan i ((w.st.fan i).armed s.clock)).st.arb = w.st.arb := rfl
  unfold Work.armFan Fan.placed
  dsimp only
  split
  · exact ⟨atFan_setFan w i (g := fun s => (w.st.fan i).turnOff s.clock) rfl, State.setFan_fan_same .., rfl, (Posts.of_eq rfl).le (by decide)⟩
  · generalize (w.map fun s => s.setFan i ((w.st.fan i).armed s.clock)) = r at *
    split
    · refine ⟨at_.trans (atFan_enterProving r i), ?_, (enterProving_arb r i).1.trans arb, (same.trans (posts_enterProving r i)).le (by decide)⟩
      rw [enterProving_fan, ready, show r.st.time.clock = w.st.clock from clock]
      rfl
    · unfold Work.enterIdle
      have moved := moveFan_fan r i { r.st.fan i with state := .idle, coastTimer := none, retryTimer := none }
      rw [untested (by rw [moved, ready]; rfl)]
      refine ⟨at_.trans (atFan_moveFan r i rfl), ?_, (moveFan_arb ..).1.trans arb, (same.trans (posts_moveFan r i _)).le (by decide)⟩
      rw [moved, ready, clock]

/-- Work that places the fans `xs`, each from its own record, and leaves the arbiter and the zones. -/
structure FansPlaced (xs : List (Fin 8)) (w v : Work) : Prop where
  within : Within w.st v.st
  arb : v.st.arb = w.st.arb
  zones : v.st.zones = w.st.zones
  posts : Posts (56 * xs.length) w v
  fan : ∀ i, v.st.fan i = if i ∈ xs then (w.st.fan i).placed w.st.clock else w.st.fan i

theorem armFans_fold (xs : List (Fin 8)) (nodup : xs.Nodup) (w : Work) : FansPlaced xs w (xs.foldl Work.armFan w) := by
  induction xs generalizing w with
  | nil => exact ⟨.refl _, rfl, rfl, .refl w, fun i => by simp⟩
  | cons x xs ih =>
    obtain ⟨fresh, nodup⟩ := List.nodup_cons.1 nodup
    obtain ⟨at_, fan, arb, posts⟩ := armFan_placed w x
    obtain ⟨within, arbs, zones, more, fans⟩ := ih nodup (w.armFan x)
    refine ⟨at_.within.trans within, arbs.trans arb, zones.trans at_.zones, (posts.trans more).le ?_, fun i => ?_⟩
    · rw [List.length_cons]; omega
    · rw [List.foldl_cons, fans i, at_.clock]
      by_cases e : x = i
      · subst e
        rw [if_neg fresh, fan, if_pos List.mem_cons_self]
      · rw [(at_.others i (Ne.symm e)).1]
        simp only [List.mem_cons, Ne.symm e, false_or]

/-! ## Steps 1 to 5 -/

theorem foldl_moveProbe_rest (xs : List (Fin 8)) (w : Work) : ∃ ps,
    (xs.foldl (fun w p => w.moveProbe p ((w.st.probe p).arm w.st.clock w.st.room)) w).st = { w.st with probes := ps } := by
  induction xs generalizing w with
  | nil => exact ⟨_, rfl⟩
  | cons x xs ih =>
    obtain ⟨ps, e⟩ := ih (w.moveProbe x ((w.st.probe x).arm w.st.clock w.st.room))
    exact ⟨ps, by rw [List.foldl_cons, e, moveProbe_st]; rfl⟩

/-- How many of a block's records are listed. -/
theorem filter_finRange_le {n : Nat} (p : Fin n → Bool) : ((List.finRange n).filter p).length ≤ n :=
  (List.length_filter_le _ _).trans (List.length_finRange).le

theorem posts_armChannels (w : Work) : Posts 32 w w.armChannels :=
  (posts_foldl (fun w i => (turn_moveChannel (c := (w.st.chan i).arm w.st.clock) (memberOf_congr rfl)).posts) _ w).le
    (Nat.mul_le_mul_left 2 (filter_finRange_le _))

theorem armFans_placed (w : Work) : FansPlaced (List.finRange 8) w w.armFans := by
  unfold Work.armFans
  exact armFans_fold _ (List.nodup_finRange 8) w

theorem posts_armFans (w : Work) : Posts 448 w w.armFans := (armFans_placed w).posts.le (by rw [List.length_finRange])

theorem posts_armProbes (w : Work) : Posts 992 w w.armProbes :=
  (posts_foldl (fun w p => posts_moveProbe w p _) _ w).le (Nat.mul_le_mul_left 124 (filter_finRange_le _))

theorem armProbes_rest (w : Work) : ∃ ps, w.armProbes.st = { w.st with probes := ps } := foldl_moveProbe_rest _ w

theorem armChannels_rest (w : Work) : ∃ cs l, w.armChannels.st = { w.st with chans := cs, link := l } :=
  (armChannels_placed _ ((List.nodup_finRange 16).filter _) w).rest

theorem armChannels_chan (w : Work) (i : Fin 16) : w.armChannels.st.chan i =
    if (w.st.chan i).cfg.enabled then (w.st.chan i).arm w.st.clock else w.st.chan i := by
  refine ((armChannels_placed _ ((List.nodup_finRange 16).filter _) w).chan i).trans ?_
  simp only [List.mem_filter, List.mem_finRange, true_and]

theorem armFans_fan (w : Work) (i : Fin 8) : w.armFans.st.fan i = (w.st.fan i).placed w.st.clock :=
  ((armFans_placed w).fan i).trans (if_pos (List.mem_finRange i))

/-- The part is ARMED and the arbiter empty: nothing else has changed (ARM's steps 1 and 2). -/
def State.armedEmpty (s : State) : State := (s.setSetup s.setup.arm).setArb s.arb.cleared

theorem armReady_steps (s : State) : s.begin.armReady = (s.begin.map State.armedEmpty).armChannels.armFans.armProbes := rfl

/-- What ARM's steps 3 to 5 leave of the blocks of `s`. -/
structure Placed (s t : State) : Prop where
  setup : t.setup = s.setup
  arb : t.arb = s.arb
  alarm : t.alarm = s.alarm
  zones : t.zones = s.zones
  time : t.time = s.time
  eqz : t.eqz = s.eqz
  chan : ∀ i, t.chan i = if (s.chan i).cfg.enabled then (s.chan i).arm s.clock else s.chan i
  fan : ∀ i, t.fan i = (s.fan i).placed s.clock

theorem placed_steps (b : Work) : Placed b.st b.armChannels.armFans.armProbes.st := by
  obtain ⟨cs, l, chans⟩ := armChannels_rest b
  have chan := armChannels_chan b
  generalize b.armChannels = c at chans chan ⊢
  have fans := armFans_placed c
  have fan := armFans_fan c
  generalize c.armFans = d at fans fan ⊢
  obtain ⟨ps, probes⟩ := armProbes_rest d
  generalize d.armProbes = e at probes ⊢
  rw [probes]
  refine ⟨fans.within.setup.trans ?_, fans.arb.trans ?_, fans.within.alarm.trans ?_, fans.zones.trans ?_, fans.within.time.trans ?_,
    fans.within.eqz.trans ?_, fun i => ?_, fun i => (fan i).trans ?_⟩
  · rw [chans]
  · rw [chans]
  · rw [chans]
  · rw [chans]
  · rw [chans]
  · rw [chans]
  · have kept : d.st.chan i = c.st.chan i := by unfold State.chan; rw [fans.within.chans]
    exact kept.trans (chan i)
  · have f : c.st.fan i = b.st.fan i := by rw [chans]; rfl
    have k : c.st.clock = b.st.clock := by rw [chans]; rfl
    rw [f, k]

theorem armReady_placed (s : State) : Placed s.armedEmpty s.begin.armReady.st := by
  rw [armReady_steps]
  exact placed_steps (s.begin.map State.armedEmpty)

theorem armReady_light (s : State) : Posts 1472 s.begin s.begin.armReady := by
  rw [armReady_steps]
  exact (Posts.of_eq (w := s.begin) (v := s.begin.map State.armedEmpty) rfl).trans (((posts_armChannels _).trans (posts_armFans _)).trans (posts_armProbes _))

end

end Sys2Proof.Machine
end

section
/-! The order of the fans through ARM, and through every effect; the statement about the start budget. -/

namespace Sys2Proof.Machine

section
variable {K : Aims} {s : State} {w v : Work} {i : Fin 8}

/-! ## ARM -/

/-- The same laws, with the fans `xs` started by an ARM that has not yet taken their empty claim sets. -/
def Aims.starting (K : Aims) (xs : List (Fin 8)) : Aims := { K with started := (· ∈ xs) }

/-- The fans that count as started may be others, where those that do no more are stop-pending just while they carry no claim. -/
theorem Lawful.restarted {p q : Fin 8 → Prop} (h : Lawful { K with started := p } w) (keep : ∀ i, p i → ¬q i → K.claims →
    (w.st.fan i).state = .proving ∨ (w.st.fan i).state = .running → (w.st.fan i).claims.none_ = true → 
      (w.st.fan i).stopPending = true ∧ (w.st.fan i).minRunElapsed = false) : Lawful { K with started := q } w := by
  refine ⟨⟨fun i => ?_, h.1.failsafe, h.1.budget, h.1.owes⟩, h.2⟩
  have fits := h.1.fits i
  refine ⟨fits.output, fits.waiting, fits.unarmed, fits.absent, fits.managed, fits.unclaimed, fits.claimed, fun c runs => ?_⟩
  rcases fits.stopping c runs with settled | ⟨started, none_, going⟩
  · exact .inl settled
  · by_cases e : q i
    · exact .inr ⟨e, none_, going⟩
    · have := (keep i started e c runs none_).1
      rw [going] at this
      cases this

/-- A stopped fan coasts or is stop-pending, with no min-run elapsed. -/
theorem stopOrCoast_stopped (w : Work) (i : Fin 8)
    (runs : ((w.stopOrCoast i).st.fan i).state = .proving ∨ ((w.stopOrCoast i).st.fan i).state = .running) :
    ((w.stopOrCoast i).st.fan i).stopPending = true ∧ ((w.stopOrCoast i).st.fan i).minRunElapsed = false := by
  unfold Work.stopOrCoast at runs ⊢
  split at runs
  · unfold Work.enterCoasting at runs
    rw [moveFan_fan] at runs
    rcases runs with e | e <;> cases e
  · rename_i early
    rw [if_neg early]
    have fan : (w.map fun s => s.setFan i { s.fan i with stopPending := true }).st.fan i = { w.st.fan i with stopPending := true } :=
      State.setFan_fan_same ..
    rw [fan]
    exact ⟨rfl, Bool.eq_false_iff.2 early⟩

/-- ARM's last step for one fan: its empty claim set is taken (R77). -/
theorem Lawful.armStop {xs : List (Fin 8)} (h : Lawful (K.starting (i :: xs)) w) : Lawful (K.starting xs) (w.armStop i) := by
  have settle {v : Work} (k : Lawful (K.starting (i :: xs)) v) (stopped : (v.st.fan i).state = .proving ∨ (v.st.fan i).state = .running →
      (v.st.fan i).claims.none_ = true → (v.st.fan i).stopPending = true ∧ (v.st.fan i).minRunElapsed = false) :
      Lawful (K.starting xs) v := by
    refine Lawful.restarted (K := K) (p := (· ∈ i :: xs)) (q := (· ∈ xs)) k fun j mem out _ runs none_ => ?_
    rcases List.mem_cons.1 mem with rfl | mem
    · exact stopped runs none_
    · exact absurd mem out
  unfold Work.armStop
  dsimp only
  split
  · rename_i none_
    have stops (state : (w.st.fan i).state = .proving ∨ (w.st.fan i).state = .running) : Lawful (K.starting xs) (w.stopOrCoast i) :=
      settle (h.stopOrCoast (.refl i w) state rfl none_ rfl) fun runs _ => stopOrCoast_stopped w i runs
    have rests (a : (w.st.fan i).state ≠ .proving) (b : (w.st.fan i).state ≠ .running) : Lawful (K.starting xs) w :=
      settle h fun runs => absurd runs (not_or.2 ⟨a, b⟩)
    split
    · exact stops (.inl ‹_›)
    · exact stops (.inr ‹_›)
    all_goals exact rests (by rw [‹(w.st.fan i).state = _›]; exact nofun) (by rw [‹(w.st.fan i).state = _›]; exact nofun)
  · rename_i some_
    exact settle h fun _ none_ => absurd none_ some_

theorem Lawful.armStops (xs : List (Fin 8)) {w : Work} (h : Lawful (K.starting xs) w) : Lawful (K.starting []) (xs.foldl Work.armStop w) := by
  induction xs generalizing w with
  | nil => exact h
  | cons x xs ih => exact ih h.armStop

/-- The fans as ARM places them: proving or running where the output was on, idle where it was off (R99). -/
theorem placed_absent {f : Fan} (absent : f.cfg.present = false) (clock : Nat) : f.placed clock = f.turnOff clock := by
  unfold Fan.placed
  rw [absent]
  rfl

theorem placed_started {f : Fan} (present : f.cfg.present = true) (on : f.output = true) (clock : Nat) :
    f.placed clock = { (f.armed clock).startedAt clock with startCount := f.startCount } := by
  unfold Fan.placed
  rw [present, on]
  rfl

theorem placed_idle {f : Fan} (present : f.cfg.present = true) (off : f.output = false) (clock : Nat) :
    f.placed clock = ({ f.armed clock with state := .idle, coastTimer := none, retryTimer := none } : Fan).remeasure (f.armed clock) clock := by
  unfold Fan.placed
  rw [present, off]
  rfl

theorem mem_startedFans {s : State} {i : Fin 8} : i ∈ s.startedFans ↔ (s.fan i).cfg.present = true ∧ (s.fan i).output = true := by
  unfold State.startedFans
  rw [List.mem_filter, Bool.and_eq_true]
  exact and_iff_right (List.mem_finRange i)

/-- A placed fan fits an ARMED part. -/
theorem Fan.placed_fits {setup : Setup} {f : Fan} (armed : setup.armed = true) (idle : f.state = .unmanaged) (claims : K.claims → f.claims = .empty)
    (started : f.cfg.present = true → f.output = true → K.started i) (clock : Nat) : (f.placed clock).Fits K setup i none := by
  cases present : f.cfg.present with
  | false =>
    have state : (f.turnOff clock).state = .unmanaged := idle
    rw [placed_absent present]
    refine ⟨nofun, ?_, fun e => ?_, fun _ => state, fun _ e => ?_, fun c _ => claims c, fun _ e => ?_, fun _ e => ?_⟩
    · rw [state]; decide
    · rw [armed] at e; cases e
    · exact absurd (present.symm.trans e) nofun
    · rw [state] at e; cases e
    · rw [state] at e; rcases e with e | e <;> cases e
  | true =>
    cases on : f.output with
    | false =>
      rw [placed_idle present on]
      refine Fan.Fits.remeasured ?_ _ _
      refine ⟨fun e => absurd (on.symm.trans e) nofun, ⟨nofun, nofun⟩, fun e => ?_, fun e => ?_, fun _ _ => nofun,
        fun _ _ => rfl, fun _ => nofun, fun _ e => ?_⟩
      · rw [armed] at e; cases e
      · exact absurd (present.symm.trans e) nofun
      · rcases e with e | e <;> cases e
    | true =>
      rw [placed_started present on]
      have state : ((f.armed clock).startedAt clock).state = .proving ∨ ((f.armed clock).startedAt clock).state = .running := by
        unfold Fan.startedAt
        split
        · exact .inr rfl
        · exact .inl rfl
      have fields : ((f.armed clock).startedAt clock).claims = .empty ∧ ((f.armed clock).startedAt clock).stopPending = false ∧
          ((f.armed clock).startedAt clock).cfg = f.cfg := by
        unfold Fan.startedAt
        split <;> exact ⟨rfl, rfl, rfl⟩
      generalize (f.armed clock).startedAt clock = g at state fields
      refine ⟨fun _ => state.imp_right .inl, ?_, fun e => ?_, fun e => ?_, fun _ _ e => ?_, fun _ _ => fields.1, fun _ e => ?_, fun _ _ => ?_⟩
      · change _ ↔ g.state = .waiting
        rcases state with e | e <;> rw [e] <;> decide
      · rw [armed] at e; cases e
      · change g.cfg.present = false at e
        rw [fields.2.2, present] at e; cases e
      · change g.state = _ at e
        rcases state with x | x <;> rw [x] at e <;> cases e
      · change g.state = _ at e
        rcases state with x | x <;> rw [x] at e <;> cases e
      · refine .inr ⟨started present on, ?_, fields.2.1⟩
        change g.claims.none_ = true
        rw [fields.1]
        exact empty_none

theorem placed_unowed {f : Fan} (idle : f.state = .unmanaged) (clock : Nat) (state : (f.placed clock).state = .idle) :
    (f.placed clock).exerciseOwed = false := by
  cases present : f.cfg.present with
  | false => rw [placed_absent present] at state; rw [show (f.turnOff clock).state = f.state from rfl, idle] at state; cases state
  | true =>
    cases on : f.output with
    | false => rw [placed_idle present on]; rfl
    | true => rw [placed_started present on]; unfold Fan.startedAt; split <;> rfl

theorem placed_unasked {f : Fan} (idle : f.state = .unmanaged) (clock : Nat) : (f.placed clock).state ≠ .waiting := by
  cases present : f.cfg.present with
  | false => rw [placed_absent present, show (f.turnOff clock).state = f.state from rfl, idle]; exact nofun
  | true =>
    cases on : f.output with
    | false => rw [placed_idle present on]; exact nofun
    | true => rw [placed_started present on]; unfold Fan.startedAt; split <;> exact nofun

/-- After ARM's steps 1 to 5 the fans are in order but for those started, whose empty claim sets it takes last. -/
theorem Resting.armReady (h : Resting K s) : Lawful (K.starting s.startedFans) s.begin.armReady := by
  have placed := armReady_placed s
  generalize s.begin.armReady = w at placed
  have armed : w.st.setup.armed = true := by rw [placed.setup]; rfl
  have asked (i : Fin 8) : w.st.requestTime i = none := by
    unfold State.requestTime
    rw [placed.arb]
    exact vget_replicate ..
  have fan (i : Fin 8) : w.st.fan i = (s.fan i).placed s.clock := placed.fan i
  refine ⟨⟨fun i => ?_, fun i mem => ?_, fun _ => ?_, fun p => ⟨h.follows p, fun i _ idle owed => ?_⟩⟩, fun _ i waits => ?_⟩
  · rw [asked, fan]
    exact Fan.placed_fits (K := K.starting s.startedFans) armed (h.state i) (fun c => h.claims c i) (fun p o => mem_startedFans.2 ⟨p, o⟩) s.clock
  · rw [placed.setup] at mem; cases mem
  · have empty : w.st.arb.history = [] := by rw [placed.arb]; rfl
    exact ⟨by rw [empty]; exact Nat.zero_le _, fun _ => empty⟩
  · rw [fan] at idle owed
    rw [placed_unowed (h.state i) s.clock idle] at owed
    cases owed
  · rw [fan] at waits
    exact absurd waits (placed_unasked (h.state i) s.clock)

theorem Lawful.armZone (h : Lawful K w) (z : Fin 6) : Lawful K (w.armZone z) :=
  (h.setZone z fun s => (s.zone z).activated s.eqz.debounced (s.spillIn z)).evaluateSight z

theorem pays_armZone (w : Work) (z : Fin 6) : Pays w (w.armZone z) 244 :=
  (pays_setZone w z fun s => (s.zone z).activated s.eqz.debounced (s.spillIn z)).trans (pays_evaluateSight _ z)

theorem map_alarm_self (w : Work) : (w.map fun s => s.setAlarm w.st.alarm) = w := rfl

theorem posts_alarmPass (w : Work) (changed : Bool) (notes : List NoticeBody) : Posts 14 w (w.alarmPass changed notes) := by
  have posts := posts_passAlarm w w.st.alarm changed notes
  rwa [map_alarm_self] at posts

theorem Lawful.alarmPass (h : Lawful K w) (changed : Bool) (notes : List NoticeBody) : Lawful K (w.alarmPass changed notes) := by
  have passed := h.passed (a := w.st.alarm) rfl changed notes
  rwa [map_alarm_self] at passed

/-- What ARM's steps 3 to 6 hand on is all taken. -/
theorem armZoned_done (s : State) : s.begin.armZoned.out = [] := by
  have light := armReady_light s
  unfold Work.armZoned
  generalize s.begin.armReady = w at light
  obtain ⟨new, out, sum⟩ := light
  have paid := (pays_forEachOpen w w.st.usedZones pays_armZone).weight
  have few : w.st.usedZones.length ≤ 6 := filter_finRange_le _
  have credit := w.st.credit_le
  refine settle_done _ _ ?_
  have weight : w.weight ≤ 1472 + 248 := by
    unfold Work.weight
    rw [out]
    change ((([] : List Handover) ++ new).map Handover.weight).sum + _ ≤ _
    rw [List.nil_append]
    omega
  unfold settleLimit
  omega

theorem armPassed_done (s : State) : s.begin.armPassed.out = [] := by
  have idle := armZoned_done s
  unfold Work.armPassed
  generalize s.begin.armZoned = w at idle
  exact (posts_alarmPass w false []).done idle (by decide)

theorem posts_armStop (w : Work) (i : Fin 8) : Posts 14 w (w.armStop i) := by
  have still : Posts 14 w w := (Posts.refl w).le (by decide)
  unfold Work.armStop
  dsimp only
  split
  · split
    · exact posts_stopOrCoast w i
    · exact posts_stopOrCoast w i
    all_goals exact still
  · exact still

theorem arm_done (s : State) : (s.begin.arm.settle settleLimit).out = [] := by
  rw [Work.arm_eq]
  refine ((posts_foldl posts_armStop _ _).le ?_).done (armPassed_done s) (n := 112) (by decide)
  exact Nat.mul_le_mul_left 14 (filter_finRange_le _)

theorem Resting.arm (h : Resting K s) : Lawful K (s.does Work.arm).begin := by
  have zoned : Lawful (K.starting s.startedFans) s.begin.armZoned :=
    (lawful_forEachOpen (fun _ z k => k.armZone z) _ _ h.armReady).settle _
  have passed : Lawful (K.starting s.startedFans) s.begin.armPassed :=
    (zoned.alarmPass false []).settle _
  have stopped : Lawful (K.starting []) s.begin.arm := by
    rw [Work.arm_eq]
    exact passed.armStops
  refine Lawful.does ?_ (arm_done s)
  exact Lawful.restarted (K := K) (p := (· ∈ [])) (q := K.started) stopped fun i mem => absurd mem List.not_mem_nil

/-! ## Every effect -/

theorem Lawful.readLines (h : Lawful K s.begin) (lines : Lines) : Lawful K ((s.setTime s.time.tick).readLines lines).begin := by
  have fan (i : Fin 8) : ((s.setTime s.time.tick).readLines lines).fan i =
      { s.fan i with flow := (s.fan i).flow.read (lines.flow.getLsbD i.val) (s.setTime s.time.tick).clock flowDebounceTime } := vget_ofFn ..
  generalize hu : (s.setTime s.time.tick).readLines lines = u at fan
  have setup : u.setup = s.setup := by rw [← hu]; rfl
  have arb : u.arb = s.arb := by rw [← hu]; rfl
  have alarm : u.alarm = s.alarm := by rw [← hu]; rfl
  have asked (i : Fin 8) : u.requestTime i = s.requestTime i := by unfold State.requestTime; rw [arb]
  refine ⟨⟨fun i => ?_, ?_, fun b => (h.1.budget b).congr (congrArg Arbiter.k arb) (congrArg Arbiter.history arb) (congrArg Setup.armed setup),
    fun p => ⟨(h.1.owes p).1, fun i n => ?_⟩⟩, fun p i => ?_⟩
  · change (u.fan i).Fits K u.setup i (u.requestTime i)
    rw [setup, asked, fan]
    exact (h.1.fits i).congr rfl rfl rfl rfl rfl rfl
  · change ∀ i ∈ u.setup.failsafeList, u.setup.armed = false ∧ vget u.setup.straps i = true
    rw [setup]
    exact h.1.failsafe
  · change (u.fan i).state = .idle → (u.fan i).exerciseOwed = true → u.alarm.regime.alarming = true ∨ _
    rw [fan, alarm]
    exact (h.1.owes p).2 i n
  · change (u.fan i).state = .waiting → u.arb.k ≤ u.arb.history.length ∨ u.arb.spacing.isSome = true ∨
      (u.alarm.regime = .critical ∧ (u.fan i).cfg.rating = .ordinary) ∨ _
    rw [fan, alarm, arb]
    exact h.2 p i

/-- A failsafe start: an ARMED part's list is empty. -/
theorem Lawful.failsafeStart (h : Lawful K s.begin) : Lawful K s.failsafeStart.begin := by
  cases armed : s.setup.armed with
  | false => exact (h.resting armed).failsafeStart.lawful
  | true =>
    have list : s.setup.failsafeList = [] := List.eq_nil_iff_forall_not_mem.2 fun i mem => by
      have := (h.1.failsafe i mem).1
      rw [show s.begin.st.setup.armed = s.setup.armed from rfl, armed] at this
      cases this
    rw [failsafeStart_nil list]
    refine ⟨⟨fun i => ?_, h.1.failsafe, fun b => (h.1.budget b).congr rfl rfl rfl, h.1.owes⟩, h.2⟩
    obtain ⟨output, waiting, unarmed, absent, managed, unclaimed, claimed, stopping⟩ := h.1.fits i
    exact ⟨output, waiting, unarmed, absent, managed, unclaimed, claimed, stopping⟩

theorem Resting.setArbiter (h : Resting K s) (k w g : Nat) : Resting K (s.setArb { s.arb with k := k, w := w, g := g }) :=
  h.congr rfl (fun _ => rfl) rfl fun _ => ⟨rfl, rfl, rfl⟩

/-- The arbiter considers a grant where its history or its spacing has changed. -/
theorem Lawful.reconsidered (h : Lawful K w) (g : Arbiter → Arbiter) (waiting : (g w.st.arb).waiting = w.st.arb.waiting)
    (history : (g w.st.arb).history.length ≤ w.st.arb.history.length) (k : (g w.st.arb).k = w.st.arb.k) :
    Lawful K (w.map fun s => s.setArb (g s.arb)).consider := by
  refine .consider ⟨fun i => ?_, h.1.failsafe, fun b => ⟨?_, fun unarmed => ?_⟩, h.1.owes⟩
  · have asked : (w.map fun s => s.setArb (g s.arb)).st.requestTime i = w.st.requestTime i := congrArg (vget · i) waiting
    rw [asked]
    exact h.1.fits i
  · change (g w.st.arb).history.length ≤ (g w.st.arb).k
    rw [k]
    exact history.trans (h.1.budget b).budget
  · change (g w.st.arb).history = []
    rw [(h.1.budget b).unarmed unarmed] at history
    exact List.eq_nil_of_length_eq_zero (Nat.le_zero.1 history)

/-- A pass of the alarm unit over a record that it computes from the state. -/
theorem Lawful.judged (h : Lawful K s.begin) (g : State → Alarm) (same : (g s).regime = s.alarm.regime) (changed : Bool)
    (notes : List NoticeBody) : Lawful K (s.does fun w => (w.map fun s => s.setAlarm (g s)).alarmPass changed notes).begin := by
  have rewritten : (s.begin.map fun s => s.setAlarm (g s)) = s.begin.map fun r => r.setAlarm (g s) := rfl
  refine Lawful.does (f := fun w => (w.map fun s => s.setAlarm (g s)).alarmPass changed notes) ?_ ?_
  · rw [rewritten]
    exact h.passed same changed notes
  · rw [rewritten]
    exact (posts_passAlarm s.begin (g s) changed notes).done rfl (by decide)

theorem acknowledge_regime (a : Alarm) (keys : List (Fin 82)) : (a.acknowledge keys).regime = a.regime := by
  simp only [Alarm.acknowledge]

theorem setMask_regime (a : Alarm) (x y : Bool) (room : Nat) : (a.setMask x y room).regime = a.regime := by
  simp only [Alarm.setMask]

theorem pays_evaluateDemand_any (w : Work) (z : Fin 6) (r : Zone) (always : Bool) : Pays w (w.evaluateDemand z r always) 244 :=
  ((pays_setZone w z fun _ => r).trans (pays_demandStep _ z always)).trans (pays_endEvaluation_any _ z _)

theorem Lawful.effect {a : State} (e : Effect s a) (h : Lawful K s.begin) (unstarted : ∀ i, ¬K.started i) : Lawful K a.begin := by
  have few {f : Work → Work} {n : Nat} (p : Posts n s.begin (f s.begin)) (k : Lawful K (f s.begin)) (small : n ≤ 3848) :
      Lawful K (s.does f).begin := k.does (p.done rfl small)
  cases e with
  | none => exact h
  | link l _ _ => exact h.beside rfl rfl rfl rfl
  | time t _ => exact h.beside rfl rfl rfl rfl
  | lamp t => exact h.beside rfl rfl rfl rfl
  | millisecond lines => exact h.readLines lines
  | powerOn lines _ => exact (resting_poweredOn (fun p => (h.1.owes p).1) s lines).failsafeStart.lawful
  | failsafe => exact h.failsafeStart
  | putChannel i c cfg state _ range =>
    have turn : ChannelTurn i 1 s.begin (s.begin.putChannel i c) := turn_putChannel (memberOf_congr cfg) state
    exact few turn.posts (h.onChannel (onChannel_putChannel ⟨by rw [cfg]; rfl, range⟩) turn.grown) (by decide)
  | seen i => exact h.beside rfl rfl rfl rfl
  | span i k => exact h.beside rfl rfl rfl rfl
  | moveChannel i c notes cfg range =>
    have turn := turn_movedWith s.begin i notes cfg
    exact few turn.posts (h.onChannel (onChannel_movedWith s.begin i notes cfg range) turn.grown) (by decide)
  | sample i code _ =>
    have turn := (turn_sample s.begin i code).1
    exact few turn.posts (h.onChannel (onChannel_sample _ i code) turn.grown) (by decide)
  | serviceFall =>
    refine Lawful.does (lawful_forEachOpen (fun _ i k => k.serviceFalls i) _ _ (h.same rfl rfl rfl rfl fun _ m => m)) (done_nil ?_)
    exact forEachOpen_idle (fun _ i idle => serviceFalls_done idle i) _ _ rfl
  | acknowledge keys => exact h.judged (fun s => s.alarm.acknowledge keys) (acknowledge_regime _ keys) _ []
  | mask x y => exact h.judged (fun _ => s.alarm.setMask x y s.room) (setMask_regime ..) _ _
  | setChannel i c _ => exact h.beside rfl rfl rfl rfl
  | setProfile i r => exact h.beside rfl rfl rfl rfl
  | setZone z c _ _ => exact h.beside rfl rfl rfl rfl
  | setFan i c unarmed => exact ((h.resting unarmed).setFan i c).lawful
  | setProbe i c _ => exact h.beside rfl rfl rfl rfl
  | setArbiter k w g unarmed => exact ((h.resting unarmed).setArbiter k w g).lawful
  | fanStart i d _ _ => exact few (posts_startManual _ i d) (h.startManual d) (by decide)
  | fanStop i => exact few (posts_removeClaim _ i _) (h.removeClaim _) (by decide)
  | fanLock i managed _ => exact few (posts_lockFan _ i) (h.lockFan (of_decide_eq_true managed)) (by decide)
  | fanRelease i locked => exact few (posts_releaseFan _ i) (h.releaseFan locked) (by decide)
  | rotate z _ _ => exact (h.perform (.rotate z)).does ((pays_rotateZone s.begin z).done rfl (by decide))
  | setTime time =>
    refine Lawful.does (lawful_forEachOpen (fun _ k l => l.fireSlot k true) _ _ (h.same rfl rfl rfl rfl fun _ m => m)) (done_nil ?_)
    exact forEachOpen_idle (fun _ k idle => fireSlot_done idle k true) _ _ rfl
  | slotFire k => exact (h.fireSlot k false).does (done_nil (fireSlot_done rfl k false))
  | arm unarmed _ => exact (h.resting unarmed).arm
  | disarm _ => exact (resting_disarm (fun p => (h.1.owes p).1) s).lawful
  | zoneLevel z r _ _ => exact (h.evaluateDemand z r false).does ((pays_evaluateDemand_any s.begin z r false).done rfl (by decide))
  | eqz =>
    refine Lawful.does (lawful_forEachOpen (fun _ _ k => k.post _) _ _ ?_) ?_
    · exact h.same rfl rfl rfl rfl fun _ m => nomatch m
    · exact (posts_eqz s.begin (fun s => { s with eqz := s.eqz.toggle }) _ _ (filter_finRange_le _)).done rfl (by decide)
  | flow i => exact few (posts_takeFlow _ i) h.takeFlow (by decide)
  | fanFault i detail state => exact few (posts_moveFan _ i _) (h.faulted state detail _) (by decide)
  | minRun i state =>
    exact few (.ite (fun _ => posts_moveFan ..) fun _ => posts_moveFan ..) (h.minRunExpiry (unstarted i) state _) (by decide)
  | coast i state =>
    exact few (.ite (fun _ => posts_enterIdle ..) fun _ => (posts_enterWaiting ..).le (by decide)) (h.coastExpiry state) (by decide)
  | retry i state => exact few (posts_retryFan _ i) (h.retryFan state) (by decide)
  | manualEnds i =>
    exact few (n := 0 + 56) ((Posts.of_eq rfl).trans (posts_removeClaim _ i _)) ((h.write rfl rfl rfl rfl rfl rfl rfl).removeClaim _) (by decide)
  | exerciseEnds i =>
    exact few (n := 0 + 56) ((Posts.of_eq rfl).trans (posts_removeClaim _ i _)) ((h.write rfl rfl rfl rfl rfl rfl rfl).removeClaim _) (by decide)
  | exerciseDue i => exact few (posts_exerciseFallsDue _ i) h.exerciseFallsDue (by decide)
  | flowNoted i => exact few (posts_moveFan _ i _) (h.rewrite rfl rfl rfl rfl rfl rfl rfl) (by decide)
  | flowCleared i => exact few (posts_moveFan _ i _) (h.rewrite rfl rfl rfl rfl rfl rfl rfl) (by decide)
  | ageOut =>
    exact few (n := 0 + 28) ((Posts.of_eq rfl).trans (posts_consider _))
      (h.reconsidered (fun a => { a with history := a.history.drop 1 }) rfl (by simp) rfl) (by decide)
  | spacing =>
    exact few (n := 0 + 28) ((Posts.of_eq rfl).trans (posts_consider _))
      (h.reconsidered (fun a => { a with spacing := none }) rfl le_rfl rfl) (by decide)
  | probe i r cfg contribution state => exact few (posts_moveProbe _ i r) (h.moveProbe i r) (by decide)

end

/-! ## The laws that the order gives -/

section
variable {K : Aims} {s : State}

theorem FanLaw.lawful (h : FanLaw s) (claims : K.claims → ClaimLaw s) (budget : K.budget → ArbiterLaw s)
    (prompt : K.prompt → K.claims ∧ PromptLaw s) : Lawful K s.begin := by
  refine ⟨⟨fun i => ?_, h.failsafe, budget, fun p => ⟨(prompt p).1, fun i _ idle owed => .inl ?_⟩⟩, fun p i waits => ?_⟩
  · exact ⟨h.output i, h.waiting i, fun e => h.unarmed e i, h.absent i, fun e => h.managed e i, fun c => (claims c).unclaimed i,
      fun c => (claims c).waiting i, fun c runs => .inl ((claims c).stopping i runs)⟩
  · rcases (prompt p).2.owes i idle owed with e | e
    · change s.alarm.regime.alarming = true; rw [e]; rfl
    · change s.alarm.regime.alarming = true; rw [e]; rfl
  · exact ((prompt p).2.waits i waits).imp_right (Or.imp_right .inl)

theorem Lawful.fanLaw (h : Lawful K s.begin) : FanLaw s where
  output i := (h.1.fits i).output
  waiting i := (h.1.fits i).waiting
  unarmed e i := (h.1.fits i).unarmed e
  absent i := (h.1.fits i).absent
  managed e i := (h.1.fits i).managed e
  failsafe := h.1.failsafe

theorem Lawful.promptLaw (h : Lawful K s.begin) (p : K.prompt) : PromptLaw s where
  waits i waits := by
    rcases h.2 p i waits with e | e | e | e
    · exact .inl e
    · exact .inr (.inl e)
    · exact .inr (.inr e)
    · cases e
  owes i idle owed := by
    rcases (h.1.owes p).2 i id idle owed with e | e
    · change s.alarm.regime.alarming = true at e
      cases r : s.alarm.regime with
      | gasAlarm => exact .inl rfl
      | critical => exact .inr rfl
      | _ => rw [r] at e; cases e
    · cases e

theorem Lawful.step {t : State} (h : Lawful K s.begin) (unstarted : ∀ i, ¬K.started i) (e : step s = .next t) : Lawful K t.begin :=
  step_keeps (P := fun s => Lawful K s.begin) (fun _ _ _ k => k.beside rfl rfl rfl rfl) (fun _ _ k => k.beside rfl rfl rfl rfl)
    (fun _ _ e k => k.effect e unstarted) e h

end

/-- Settles O56: the order of the fans is kept by every step, and gives both laws. -/
theorem everyStepKeepsTheStartBudget : Obligations.EveryStepKeepsTheStartBudget := by
  intro s t fans e
  refine ⟨fun budget => ?_, fun claims prompt => ?_⟩
  · let K : Aims := ⟨False, True, False, fun _ => False⟩
    have lawful : Lawful K s.begin := fans.lawful nofun (fun _ => budget) nofun
    exact (lawful.step (fun _ => id) e).1.budget trivial
  · let K : Aims := ⟨True, False, True, fun _ => False⟩
    have lawful : Lawful K s.begin := fans.lawful (fun _ => claims) nofun fun _ => ⟨trivial, prompt⟩
    exact (lawful.step (fun _ => id) e).promptLaw trivial

end Sys2Proof.Machine
end

section
/-! What the operations of the fans leave of what the zones and the alarm unit see of them: whether each fan takes claims, which zones
have been told of its availability, and the images it shows (`FansTurn`). -/

namespace Sys2Proof.Machine

/-! ## What a fan shows -/

/-- FAN FAIL's image by the fan's record (R94). -/
def Fan.failShown (f : Fan) : Image := if f.failed then f.failImage else .inactive

/-- FLOW NOTE's image by the fan's record (R95). -/
def Fan.noteShown (f : Fan) : Image := if f.flowNote then .raised 1 none else .inactive

/-- What the fans' operations hand over beside FAN FAIL. -/
def Handover.ofFans : Handover → Prop
  | .condition k _ => ∃ i, k = keyFlowNote i
  | .availability _ => True
  | .member _ => False | .completion _ => False | .paused .. => False | .eqz _ => False | .coupling .. => False | .spill _ => False
  | .critical _ => False | .toArbiter => False | .toFans _ => False

/-- Only fans that take claims ask for a start. -/
def Asked (w : Work) : Prop := ∀ i, (w.st.requestTime i).isSome = true → (w.st.fan i).takesClaims = true

/-- Work of the fans and the arbiter that changes no claim of a zone but those in `P`. Whether a fan takes claims stays, the zones that
use a fan are told where its availability changes, and FLOW NOTE is handed over where it changes. -/
structure FansTurn (P : Fin 8 → Fin 6 → Prop) (w v : Work) : Prop where
  within : Within w.st v.st
  zones : v.st.zones = w.st.zones
  cfg : ∀ i, (v.st.fan i).cfg = (w.st.fan i).cfg
  takes : ∀ i, (v.st.fan i).takesClaims = (w.st.fan i).takesClaims
  fail : ∀ i, (v.st.fan i).failShown = (w.st.fan i).failShown
  carries : ∀ i z, ¬P i z → vget (v.st.fan i).claims.zones z = vget (w.st.fan i).claims.zones z
  told : ∀ i, (v.st.fan i).available w.st.alarm.regime = (w.st.fan i).available w.st.alarm.regime ∨
    ∀ z ∈ w.st.zonesUsing i, .availability z ∈ v.out
  asked : ∀ i, (v.st.requestTime i).isSome = true → (w.st.requestTime i).isSome = true ∨ (w.st.fan i).takesClaims = true
  out : ∃ new, v.out = w.out ++ new ∧ ∀ h ∈ new, h.ofFans
  noted : ∀ i, w.shown (keyFlowNote i) = (w.st.fan i).noteShown → v.shown (keyFlowNote i) = (v.st.fan i).noteShown

section
variable {P Q : Fin 8 → Fin 6 → Prop} {u v w : Work} {i : Fin 8}

theorem FansTurn.refl (P : Fin 8 → Fin 6 → Prop) (w : Work) : FansTurn P w w :=
  ⟨.refl _, rfl, fun _ => rfl, fun _ => rfl, fun _ => rfl, fun _ _ _ => rfl, fun _ => .inl rfl, fun _ h => .inl h, ⟨[], by simp⟩,
    fun _ => id⟩

theorem FansTurn.grown (a : FansTurn P w v) : ∀ x ∈ w.out, x ∈ v.out := by
  obtain ⟨new, h, -⟩ := a.out
  rw [h]
  exact fun x m => List.mem_append_left _ m

theorem zonesUsing_congr {s t : State} (zones : t.zones = s.zones) (i : Fin 8) : t.zonesUsing i = s.zonesUsing i := by
  have zone (z) : t.zone z = s.zone z := by unfold State.zone; rw [zones]
  unfold State.zonesUsing State.activeZones
  simp only [zone]

theorem FansTurn.trans (a : FansTurn P u v) (b : FansTurn P v w) : FansTurn P u w := by
  obtain ⟨x, hx, ox⟩ := a.out
  obtain ⟨y, hy, oy⟩ := b.out
  refine ⟨a.within.trans b.within, b.zones.trans a.zones, fun i => (b.cfg i).trans (a.cfg i), fun i => (b.takes i).trans (a.takes i),
    fun i => (b.fail i).trans (a.fail i), fun i z n => (b.carries i z n).trans (a.carries i z n), fun i => ?_, fun i h => ?_,
    ⟨x ++ y, by rw [hy, hx, List.append_assoc], fun h mem => (List.mem_append.1 mem).elim (ox h) (oy h)⟩, fun i => b.noted i ∘ a.noted i⟩
  · have second := b.told i
    rw [a.within.alarm, zonesUsing_congr a.zones] at second
    rcases second with same | told
    · exact (a.told i).imp same.trans fun told z mem => b.grown _ (told z mem)
    · exact .inr told
  · rcases b.asked i h with h | h
    · exact a.asked i h
    · exact .inr ((a.takes i).symm.trans h)

theorem FansTurn.mono (a : FansTurn P w v) (sub : ∀ i z, P i z → Q i z) : FansTurn Q w v :=
  ⟨a.within, a.zones, a.cfg, a.takes, a.fail, fun i z n => a.carries i z fun p => n (sub i z p), a.told, a.asked, a.out, a.noted⟩

theorem FansTurn.asks (a : FansTurn P w v) (h : Asked w) : Asked v := fun i some_ => by
  rw [a.takes]
  exact (a.asked i some_).elim (h i) id

theorem FansTurn.ite {p : Prop} [Decidable p] {a b : Work} (ha : p → FansTurn P w a) (hb : ¬p → FansTurn P w b) :
    FansTurn P w (if p then a else b) := by
  split
  · exact ha ‹_›
  · exact hb ‹_›

theorem FansTurn.foldl {α : Type} {f : Work → α → Work} {xs : List α} (step : ∀ w, ∀ x ∈ xs, Asked w → FansTurn P w (f w x)) {w : Work}
    (h : Asked w) : FansTurn P w (xs.foldl f w) := by
  induction xs generalizing w with
  | nil => exact .refl P w
  | cons x xs ih =>
    have first := step w x List.mem_cons_self h
    exact first.trans (ih (fun w y m => step w y (List.mem_cons_of_mem x m)) (first.asks h))

/-! ## Writes -/

/-- A write outside the fans. -/
theorem FansTurn.of_same (within : Within w.st v.st) (zones : v.st.zones = w.st.zones) (fans : v.st.fans = w.st.fans)
    (out : v.out = w.out) (asked : ∀ i, (v.st.requestTime i).isSome = true → (w.st.requestTime i).isSome = true ∨ (w.st.fan i).takesClaims = true) :
    FansTurn P w v := by
  have fan (i) : v.st.fan i = w.st.fan i := by unfold State.fan; rw [fans]
  refine ⟨within, zones, fun i => by rw [fan], fun i => by rw [fan], fun i => by rw [fan], fun i z _ => by rw [fan],
    fun i => .inl (by rw [fan]), asked, ⟨[], by rw [out, List.append_nil], fun _ m => nomatch m⟩, fun i => ?_⟩
  rw [fan, shown_spared (new := []) (by rw [out, List.append_nil]) within.alarm fun _ m => nomatch m]
  exact id

/-- One fan's record takes the place of another that the zones and the alarm unit see alike. -/
structure Fan.LooksLike (f g : Fan) : Prop where
  cfg : f.cfg = g.cfg
  takes : f.takesClaims = g.takesClaims
  fail : f.failShown = g.failShown

theorem fturn_setFan (w : Work) (i : Fin 8) {g : State → Fan} (like : (g w.st).LooksLike (w.st.fan i))
    (claims : ∀ z, ¬P i z → vget (g w.st).claims.zones z = vget (w.st.fan i).claims.zones z)
    (state : (g w.st).state = (w.st.fan i).state) (note : (g w.st).flowNote = (w.st.fan i).flowNote) :
    FansTurn P w (w.map fun s => s.setFan i (g s)) := by
  have fan (j) : (w.map fun s => s.setFan i (g s)).st.fan j = if i = j then g w.st else w.st.fan j := State.setFan_fan ..
  have each {γ : Type} (p : Fan → γ) (same : p (g w.st) = p (w.st.fan i)) (j : Fin 8) :
      p ((w.map fun s => s.setFan i (g s)).st.fan j) = p (w.st.fan j) := by
    rw [fan]
    split
    · rename_i e; subst e; exact same
    · rfl
  refine ⟨within_mapFan .., rfl, each Fan.cfg like.cfg, each Fan.takesClaims like.takes, each Fan.failShown like.fail, fun j z n => ?_,
    fun j => .inl (each (fun f => f.available w.st.alarm.regime) ?_ j), fun j h => .inl h, ⟨[], by simp [Work.map]⟩, fun j => ?_⟩
  · rw [fan]
    split
    · rename_i e; subst e; exact claims z n
    · rfl
  · unfold Fan.available
    dsimp only
    rw [like.cfg, state]
  · rw [each Fan.noteShown (by unfold Fan.noteShown; rw [note]) j]
    exact id

theorem fturn_setWaiting (w : Work) (i : Fin 8) (t : State → Option Nat) (h : t w.st = none ∨ (w.st.fan i).takesClaims = true) :
    FansTurn P w (w.map fun s => s.setArb { s.arb with waiting := vset s.arb.waiting i (t s) }) := by
  refine .of_same (within_mapArb w ⟨rfl, rfl, rfl⟩) rfl rfl rfl fun j some_ => ?_
  have e : (w.map fun s => s.setArb { s.arb with waiting := vset s.arb.waiting i (t s) }).st.requestTime j =
      if i = j then t w.st else w.st.requestTime j := vget_vset ..
  rw [e] at some_
  split at some_
  · rename_i same
    subst same
    rcases h with none_ | takes
    · rw [none_] at some_; cases some_
    · exact .inr takes
  · exact .inl some_

theorem fturn_leaveWaiting (w : Work) (i : Fin 8) : FansTurn P w (w.map fun s => s.leaveWaiting i) :=
  fturn_setWaiting w i (fun _ => none) (.inl rfl)

/-! ## A fan takes a new record -/

theorem availability_mem {n : Nat} {zs : List (Fin 6)} {z : Fin 6} (mem : z ∈ zs) : Handover.availability z ∈ (inOpenOrder n zs).map Handover.availability :=
  List.mem_map.2 ⟨z, (inOpenOrder_perm n zs).mem_iff.2 mem, rfl⟩

theorem key_flowNote_inj {i j : Fin 8} (h : keyFlowNote i = keyFlowNote j) : i = j := by revert i j; decide

/-- What a fan's new record hands over, FAN FAIL shown alike. -/
theorem handed_like {before after : Fan} {i : Fin 8} (fail : before.failed = after.failed) : before.handed after i =
    if before.flowNote = after.flowNote then [] else [.condition (keyFlowNote i) after.noteShown] := by
  unfold Fan.handed
  rw [if_pos fail, List.nil_append]
  rfl

theorem fturn_moveFan (w : Work) (i : Fin 8) {f : Fan} (like : f.LooksLike (w.st.fan i)) (failed : (w.st.fan i).failed = f.failed)
    (claims : ∀ z, ¬P i z → vget f.claims.zones z = vget (w.st.fan i).claims.zones z) : FansTurn P w (w.moveFan i f) := by
  have a : AtFan i w (w.moveFan i f) := atFan_moveFan w i like.cfg
  have fan := moveFan_fan w i f
  have each {γ : Type} (p : Fan → γ) (same : p (f.remeasure (w.st.fan i) w.st.clock) = p (w.st.fan i)) (j : Fin 8) :
      p ((w.moveFan i f).st.fan j) = p (w.st.fan j) := by
    by_cases e : j = i
    · subst e; rw [fan, same]
    · rw [(a.others j e).1]
  have out := moveFan_out w i f
  rw [handed_like failed, List.append_assoc] at out
  refine ⟨a.within, a.zones, each Fan.cfg like.cfg, each Fan.takesClaims like.takes, each Fan.failShown like.fail, fun j z n => ?_,
    fun j => ?_, fun j some_ => .inl (by rwa [moveFan_request] at some_), ⟨_, out, fun h mem => ?_⟩, fun j shown => ?_⟩
  · by_cases e : j = i
    · subst e; rw [fan]; exact claims z n
    · rw [(a.others j e).1]
  · by_cases e : j = i
    · subst e
      rw [fan, out]
      by_cases same : (w.st.fan j).available w.st.alarm.regime = f.available w.st.alarm.regime
      · exact .inl same.symm
      · refine .inr fun z mem => List.mem_append_right _ (List.mem_append_right _ ?_)
        rw [if_neg same]
        exact availability_mem mem
    · rw [(a.others j e).1]; exact .inl rfl
  · rcases List.mem_append.1 mem with mem | mem
    · split at mem
      · cases mem
      · rw [List.mem_singleton.1 mem]; exact ⟨i, rfl⟩
    · split at mem
      · cases mem
      · obtain ⟨z, -, rfl⟩ := List.mem_map.1 mem
        trivial
  · have rests : ∀ h ∈ (if (w.st.fan i).available w.st.alarm.regime = f.available w.st.alarm.regime then []
        else (inOpenOrder w.st.choices (w.st.zonesUsing i)).map Handover.availability), h.spares (keyFlowNote j) := by
      intro h mem image e
      split at mem
      · cases mem
      · obtain ⟨z, -, rfl⟩ := List.mem_map.1 mem
        cases e
    by_cases e : j = i
    · subst e
      rw [fan]
      by_cases same : (w.st.fan j).flowNote = f.flowNote
      · rw [if_pos same, List.nil_append] at out
        rw [shown_spared out a.within.alarm rests, shown]
        unfold Fan.noteShown
        rw [same]
        rfl
      · rw [if_neg same] at out
        exact shown_posted (new := []) out a.within.alarm rests
    · rw [(a.others j e).1, ← shown]
      refine shown_spared out a.within.alarm fun h mem => ?_
      rcases List.mem_append.1 mem with mem | mem
      · split at mem
        · cases mem
        · intro image same
          rw [List.mem_singleton.1 mem] at same
          injection same with key
          exact e (key_flowNote_inj key).symm
      · exact rests h mem

end

end Sys2Proof.Machine
end

section
/-! The operations of the fans and of the arbiter as turns (`FansTurn`), and what each does to the claims. -/

namespace Sys2Proof.Machine

section
variable {P Q : Fin 8 → Fin 6 → Prop} {u v w : Work} {i : Fin 8}

theorem unfailed_of_takes {f : Fan} (h : f.takesClaims = true) : f.failed = false := by
  unfold Fan.takesClaims at h
  unfold Fan.failed
  cases e : f.state <;> rw [e] at h <;> first | rfl | cases h

theorem Fan.LooksLike.of_takes {f g : Fan} (cfg : f.cfg = g.cfg) (a : f.takesClaims = true) (b : g.takesClaims = true) : f.LooksLike g :=
  ⟨cfg, a.trans b.symm, by unfold Fan.failShown; rw [unfailed_of_takes a, unfailed_of_takes b]; rfl⟩

/-- A fan that takes claims moves to a state that does. -/
theorem fturn_claimable (w : Work) (i : Fin 8) {f : Fan} (cfg : f.cfg = (w.st.fan i).cfg) (before : (w.st.fan i).takesClaims = true)
    (after : f.takesClaims = true) (claims : ∀ z, ¬P i z → vget f.claims.zones z = vget (w.st.fan i).claims.zones z) :
    FansTurn P w (w.moveFan i f) :=
  fturn_moveFan w i (.of_takes cfg after before) ((unfailed_of_takes before).trans (unfailed_of_takes after).symm) claims

theorem fturn_enterProving (w : Work) (i : Fin 8) (takes : (w.st.fan i).takesClaims = true) : FansTurn P w (w.enterProving i) := by
  have proving : FansTurn P w (w.moveFan i ((w.st.fan i).proving w.st.clock)) := fturn_claimable w i rfl takes rfl fun _ _ => rfl
  unfold Work.enterProving
  dsimp only
  refine .ite (fun _ => ?_) fun _ => proving
  refine proving.trans (fturn_claimable _ i rfl ?_ rfl fun _ _ => rfl)
  rw [proving.takes, takes]

/-- A write of a fan's record that no law of the zones speaks of. -/
theorem fturn_write (w : Work) (i : Fin 8) {g : State → Fan} (cfg : (g w.st).cfg = (w.st.fan i).cfg) (state : (g w.st).state = (w.st.fan i).state)
    (last : (g w.st).lastFault = (w.st.fan i).lastFault) (note : (g w.st).flowNote = (w.st.fan i).flowNote)
    (claims : ∀ z, ¬P i z → vget (g w.st).claims.zones z = vget (w.st.fan i).claims.zones z) :
    FansTurn P w (w.map fun s => s.setFan i (g s)) := by
  refine fturn_setFan w i ⟨cfg, ?_, ?_⟩ claims state note
  · unfold Fan.takesClaims; rw [state]
  · unfold Fan.failShown Fan.failed Fan.failImage; rw [state, last]

theorem fturn_counted (w : Work) (i : Fin 8) : FansTurn P w (w.counted i) := by
  have granted : FansTurn P w (w.map fun s => s.setArb (s.arb.granted i s.clock)) := by
    refine .of_same (within_mapArb w ⟨rfl, rfl, rfl⟩) rfl rfl rfl fun j some_ => .inl ?_
    have e : (w.map fun s => s.setArb (s.arb.granted i s.clock)).st.requestTime j = if i = j then none else w.st.requestTime j := vget_vset ..
    rw [e] at some_
    split at some_
    · cases some_
    · exact some_
  exact granted.trans (fturn_write _ i rfl rfl rfl rfl fun _ _ => rfl)

theorem fturn_grant (w : Work) (i : Fin 8) (takes : (w.st.fan i).takesClaims = true) : FansTurn P w (w.grant i) := by
  rw [Work.grant_eq]
  have counted : FansTurn P w (w.counted i) := fturn_counted w i
  exact counted.trans (fturn_enterProving _ i (by rw [counted.takes, takes]))

theorem fturn_consider (w : Work) (h : Asked w) : FansTurn P w w.consider := by
  cases e : w.st.grantChoice with
  | none => rw [consider_none e]; exact .refl P w
  | some i => rw [consider_some e]; exact fturn_grant w i (h i (grantChoice_waits e))

theorem fturn_queued (w : Work) (i : Fin 8) (takes : (w.st.fan i).takesClaims = true) : FansTurn P w (w.queued i) := by
  have moved : FansTurn P w (w.moveFan i { w.st.fan i with state := .waiting, coastTimer := none }) :=
    fturn_claimable w i rfl takes rfl fun _ _ => rfl
  exact moved.trans (fturn_setWaiting _ i (fun s => some s.clock) (.inr (by rw [moved.takes, takes])))

theorem fturn_enterWaiting (w : Work) (i : Fin 8) (h : Asked w) (takes : (w.st.fan i).takesClaims = true) : FansTurn P w (w.enterWaiting i) := by
  rw [enterWaiting_eq]
  have queued : FansTurn P w (w.queued i) := fturn_queued w i takes
  exact queued.trans (fturn_consider _ (queued.asks h))

theorem takes_of_idle {f : Fan} (h : f.state = .idle) : f.takesClaims = true := by unfold Fan.takesClaims; rw [h]

theorem fturn_testExercise (w : Work) (i : Fin 8) (h : Asked w) : FansTurn P w (w.testExercise i) := by
  unfold Work.testExercise
  refine .ite (fun takes => ?_) fun _ => .refl P w
  have claimed : FansTurn P w (w.map fun s => s.setFan i { s.fan i with
      exerciseOwed := false, claims := (s.fan i).claims.add .exercise }) := fturn_write w i rfl rfl rfl rfl fun _ _ => rfl
  refine claimed.trans (fturn_enterWaiting _ i (claimed.asks h) ?_)
  rw [claimed.takes]
  exact takes_of_idle (takesExercise_idle takes)

theorem fturn_stopOrCoast (w : Work) (i : Fin 8) (takes : (w.st.fan i).takesClaims = true) : FansTurn P w (w.stopOrCoast i) := by
  unfold Work.stopOrCoast
  exact .ite (fun _ => fturn_claimable w i rfl takes rfl fun _ _ => rfl) fun _ => fturn_write w i rfl rfl rfl rfl fun _ _ => rfl

/-! ## Claims that come and go -/

theorem add_zones (c : Claims) (src : Source) (z : Fin 6) (other : src ≠ .zone z) : vget (c.add src).zones z = vget c.zones z := by
  cases src with
  | zone y => exact (vget_vset ..).trans (if_neg fun e => other (by rw [e]))
  | manual => rfl
  | exercise => rfl

theorem remove_zones (c : Claims) (src : Source) (z : Fin 6) (other : src ≠ .zone z) : vget (c.remove src).zones z = vget c.zones z := by
  cases src with
  | zone y => exact (vget_vset ..).trans (if_neg fun e => other (by rw [e]))
  | manual => rfl
  | exercise => rfl

/-- The claim that an operation changes: of the fan `i`, by the source `src`. -/
def ClaimOf (i : Fin 8) (src : Source) (j : Fin 8) (z : Fin 6) : Prop := j = i ∧ src = .zone z

theorem claimOf_other {src : Source} {z : Fin 6} (h : ¬ClaimOf i src i z) : src ≠ .zone z := fun e => h ⟨rfl, e⟩

/-- A fan's record with a claim more. -/
def Work.claimed (w : Work) (i : Fin 8) (src : Source) : Work :=
  w.map fun s => s.setFan i { s.fan i with claims := (s.fan i).claims.add src }

theorem fturn_claimed (w : Work) (i : Fin 8) (src : Source) : FansTurn (ClaimOf i src) w (w.claimed i src) :=
  fturn_write w i rfl rfl rfl rfl fun z n => add_zones _ src z (claimOf_other n)

/-- What follows a claim that a fan takes. -/
theorem fturn_addClaim_after {w : Work} {i : Fin 8} {src : Source} (h : Asked w) (fresh : (w.st.fan i).claims.has src = false)
    (takes : (w.st.fan i).takesClaims = true) : FansTurn P (w.claimed i src) (w.addClaim i src) := by
  have claimed := fturn_claimed w i src
  have still : ((w.claimed i src).st.fan i).takesClaims = true := by rw [claimed.takes, takes]
  unfold Work.addClaim
  dsimp only
  rw [fresh, takes, if_neg (by decide)]
  split
  · exact fturn_enterWaiting _ i (claimed.asks h) still
  · exact fturn_consider _ (claimed.asks h)
  · exact fturn_write (w.claimed i src) i rfl rfl rfl rfl fun _ _ => rfl
  · exact fturn_write (w.claimed i src) i rfl rfl rfl rfl fun _ _ => rfl
  all_goals exact .refl P _

theorem addClaim_stays {w : Work} {i : Fin 8} {src : Source} (h : (w.st.fan i).claims.has src = true ∨ (w.st.fan i).takesClaims = false) :
    w.addClaim i src = w := by
  unfold Work.addClaim
  dsimp only
  exact if_pos (by rcases h with e | e <;> rw [e] <;> simp)

theorem addClaim_cases (w : Work) (i : Fin 8) (src : Source) : ((w.st.fan i).claims.has src = true ∨ (w.st.fan i).takesClaims = false) ∨
    ((w.st.fan i).claims.has src = false ∧ (w.st.fan i).takesClaims = true) := by
  cases (w.st.fan i).claims.has src <;> cases (w.st.fan i).takesClaims <;> simp

theorem fturn_addClaim (w : Work) (i : Fin 8) (src : Source) (h : Asked w) : FansTurn (ClaimOf i src) w (w.addClaim i src) := by
  rcases addClaim_cases w i src with stays | ⟨fresh, takes⟩
  · rw [addClaim_stays stays]; exact .refl _ w
  · exact (fturn_claimed w i src).trans (fturn_addClaim_after h fresh takes)

/-- A fan that takes claims carries the one that is added. -/
theorem addClaim_carries {w : Work} {i : Fin 8} (z : Fin 6) (h : Asked w) (takes : (w.st.fan i).takesClaims = true) :
    vget ((w.addClaim i (.zone z)).st.fan i).claims.zones z = true := by
  cases has : (w.st.fan i).claims.has (.zone z) with
  | true => rw [addClaim_stays (.inl has)]; exact has
  | false =>
    rw [(fturn_addClaim_after (P := fun _ _ => False) h has takes).carries i z id]
    refine (congrArg (fun f : Fan => vget f.claims.zones z) (State.setFan_fan_same ..)).trans ?_
    exact vget_vset_same ..

theorem withoutClaim_last (f : Fan) (src : Source) : (f.withoutClaim src).lastFault = f.lastFault ∧ (f.withoutClaim src).flowNote = f.flowNote := by
  cases src <;> exact ⟨rfl, rfl⟩

theorem fturn_enterIdle (w : Work) (i : Fin 8) (h : Asked w) (takes : (w.st.fan i).takesClaims = true) : FansTurn P w (w.enterIdle i) := by
  have moved : FansTurn P w (w.moveFan i { w.st.fan i with state := .idle, coastTimer := none, retryTimer := none }) :=
    fturn_claimable w i rfl takes rfl fun _ _ => rfl
  exact moved.trans (fturn_testExercise _ i (moved.asks h))

/-- A fan's record with a claim less. -/
def Work.unclaimed (w : Work) (i : Fin 8) (src : Source) : Work := w.map fun s => s.setFan i ((s.fan i).withoutClaim src)

theorem fturn_unclaimed (w : Work) (i : Fin 8) (src : Source) : FansTurn (ClaimOf i src) w (w.unclaimed i src) := by
  obtain ⟨cfg, state, -, claims, -⟩ := withoutClaim_fields (w.st.fan i) src
  obtain ⟨last, note⟩ := withoutClaim_last (w.st.fan i) src
  refine fturn_write w i cfg state last note fun z n => ?_
  rw [claims, remove_zones _ src z (claimOf_other n)]

/-- What follows a claim that a fan loses. -/
theorem fturn_removeClaim_after {w : Work} {i : Fin 8} {src : Source} (h : Asked w) (has : (w.st.fan i).claims.has src = true) :
    FansTurn P (w.unclaimed i src) (w.removeClaim i src) := by
  have unclaimed := fturn_unclaimed w i src
  have takes (x : FanState) (state : (w.st.fan i).state = x) (t : ({ w.st.fan i with state := x } : Fan).takesClaims = true) :
      ((w.unclaimed i src).st.fan i).takesClaims = true := by
    rw [unclaimed.takes]
    unfold Fan.takesClaims at t ⊢
    rw [state]
    exact t
  unfold Work.removeClaim
  dsimp only
  rw [has, if_neg (by decide)]
  refine .ite (fun _ => ?_) fun _ => ?_
  · split
    · rename_i state
      have left : FansTurn P (w.unclaimed i src) ((w.unclaimed i src).map fun s => s.leaveWaiting i) := fturn_leaveWaiting _ i
      exact left.trans (fturn_enterIdle _ i (left.asks (unclaimed.asks h)) (by rw [left.takes, takes .waiting state rfl]))
    · exact fturn_stopOrCoast _ i (takes .proving ‹_› rfl)
    · exact fturn_stopOrCoast _ i (takes .running ‹_› rfl)
    all_goals exact .refl P _
  · split
    · exact fturn_consider _ (unclaimed.asks h)
    all_goals exact .refl P _

theorem removeClaim_stays {w : Work} {i : Fin 8} {src : Source} (h : (w.st.fan i).claims.has src = false) : w.removeClaim i src = w := by
  unfold Work.removeClaim
  dsimp only
  rw [h]
  rfl

theorem fturn_removeClaim (w : Work) (i : Fin 8) (src : Source) (h : Asked w) : FansTurn (ClaimOf i src) w (w.removeClaim i src) := by
  cases has : (w.st.fan i).claims.has src with
  | false => rw [removeClaim_stays has]; exact .refl _ w
  | true => exact (fturn_unclaimed w i src).trans (fturn_removeClaim_after h has)

/-- A fan does not carry the claim that is removed. -/
theorem removeClaim_drops {w : Work} {i : Fin 8} (z : Fin 6) (h : Asked w) :
    vget ((w.removeClaim i (.zone z)).st.fan i).claims.zones z = false := by
  cases has : (w.st.fan i).claims.has (.zone z) with
  | false => rw [removeClaim_stays has]; exact has
  | true =>
    rw [(fturn_removeClaim_after (P := fun _ _ => False) h has).carries i z id]
    refine (congrArg (fun f : Fan => vget f.claims.zones z) (State.setFan_fan_same ..)).trans ?_
    exact vget_vset_same ..

theorem fturn_startManual (w : Work) (i : Fin 8) (d : Nat) (h : Asked w) : FansTurn (ClaimOf i .manual) w (w.startManual i d) := by
  have set : FansTurn (ClaimOf i .manual) w (w.map fun s => s.setFan i { s.fan i with manualDuration := if d = 0 then none else some d }) :=
    fturn_write w i rfl rfl rfl rfl fun _ _ => rfl
  have claimed := set.trans (fturn_addClaim _ i .manual (set.asks h))
  unfold Work.startManual
  exact .ite (fun _ => claimed.trans (fturn_write _ i rfl rfl rfl rfl fun _ _ => rfl)) fun _ => claimed

theorem fturn_exerciseFallsDue (w : Work) (i : Fin 8) (h : Asked w) : FansTurn P w (w.exerciseFallsDue i) := by
  unfold Work.exerciseFallsDue
  dsimp only
  refine .ite (fun _ => fturn_write w i rfl rfl rfl rfl fun _ _ => rfl) fun _ => ?_
  have owed : FansTurn P w (w.map fun s => s.setFan i { w.st.fan i with exerciseDue := none, exerciseOwed := true }) :=
    fturn_write w i rfl rfl rfl rfl fun _ _ => rfl
  exact owed.trans (fturn_testExercise _ i (owed.asks h))

theorem fturn_takeFans (w : Work) (fell : Bool) (h : Asked w) : FansTurn P w (w.takeRegimeAtFans fell) := by
  unfold Work.takeRegimeAtFans
  refine .ite (fun _ => ?_) fun _ => .refl P w
  have counted : FansTurn P w (w.map fun s => { s with choices := s.choices + drawsFor ((List.finRange 8).filter w.st.takesExercise) }) :=
    .of_same (within_choices _ _) rfl rfl rfl fun _ => .inl
  exact counted.trans (FansTurn.foldl (fun v i _ a => fturn_testExercise v i a) (counted.asks h))

/-- Nothing but a fan's own fields. -/
theorem fturn_rewrite (w : Work) (i : Fin 8) {f : Fan} (cfg : f.cfg = (w.st.fan i).cfg) (state : f.state = (w.st.fan i).state)
    (last : f.lastFault = (w.st.fan i).lastFault) (claims : f.claims = (w.st.fan i).claims) : FansTurn P w (w.moveFan i f) := by
  have failed : (w.st.fan i).failed = f.failed := by unfold Fan.failed; rw [state]
  refine fturn_moveFan w i ⟨cfg, ?_, ?_⟩ failed fun _ _ => by rw [claims]
  · unfold Fan.takesClaims; rw [state]
  · unfold Fan.failShown Fan.failImage; rw [failed, last]

theorem fturn_takeFlow (w : Work) (i : Fin 8) : FansTurn P w (w.takeFlow i) := by
  have toggled : FansTurn P w (w.moveFan i { w.st.fan i with flow := (w.st.fan i).flow.toggle }) := fturn_rewrite w i rfl rfl rfl rfl
  unfold Work.takeFlow
  dsimp only
  split
  · rename_i state
    refine .ite (fun _ => toggled.trans (fturn_claimable _ i rfl ?_ rfl fun _ _ => rfl)) fun _ => toggled
    rw [toggled.takes]
    unfold Fan.takesClaims
    rw [show (w.st.fan i).state = .proving from state]
  · exact fturn_rewrite w i rfl rfl rfl rfl
  all_goals exact toggled

end

end Sys2Proof.Machine
end

section
/-! The list arithmetic of an allocation (R57): which fans stay, are added and are released, and how many there are. -/

namespace Sys2Proof.Machine

section
variable {order claims : List (Fin 8)} {n : Nat} {p : Fin 8 → Bool} {f : Fin 8}

theorem mem_keptClaims (h : f ∈ keptClaims claims n p) : f ∈ claims ∧ p f = true :=
  List.mem_filter.1 (List.mem_of_mem_take h)

theorem mem_addedClaims (h : f ∈ addedClaims order claims n p) : f ∈ order ∧ p f = true ∧ f ∉ keptClaims claims n p := by
  obtain ⟨listed, free⟩ := List.mem_filter.1 (List.mem_of_mem_take h)
  simpa using And.intro listed free

theorem mem_releasedClaims (nodup : claims.Nodup) : f ∈ releasedClaims claims n p ↔ f ∈ claims ∧ f ∉ keptClaims claims n p := by
  have parts : (claims.filter p).take n ++ (claims.filter p).drop n = claims.filter p := List.take_append_drop n _
  have apart : f ∈ (claims.filter p).take n → f ∉ (claims.filter p).drop n := by
    have := nodup.filter p
    rw [← parts] at this
    exact fun a b => (List.disjoint_of_nodup_append this) a b
  have either : f ∈ claims.filter p ↔ f ∈ (claims.filter p).take n ∨ f ∈ (claims.filter p).drop n := by
    rw [← List.mem_append, parts]
  unfold releasedClaims keptClaims
  rw [List.mem_append, List.mem_reverse, List.mem_filter]
  rw [List.mem_filter] at either
  cases e : p f
  · simp only [e] at either
    constructor
    · rintro (⟨m, -⟩ | m)
      · exact ⟨m, fun k => by simpa using either.2 (.inl k)⟩
      · exact absurd (either.2 (.inr m)).2 (by simp)
    · exact fun h => .inl ⟨h.1, rfl⟩
  · simp only [e, and_true] at either
    constructor
    · rintro (⟨-, m⟩ | m)
      · cases m
      · exact ⟨either.2 (.inr m), fun k => apart k m⟩
    · rintro ⟨m, k⟩
      exact .inr ((either.1 m).resolve_left k)

theorem mem_allocated (listed : claims.Sublist order) : f ∈ allocated order claims n p ↔
    f ∈ keptClaims claims n p ∨ f ∈ addedClaims order claims n p := by
  unfold allocated
  simp only [List.mem_filter, Bool.or_eq_true, List.contains_iff_mem, and_iff_right_iff_imp]
  rintro (k | a)
  · exact listed.subset (mem_keptClaims k).1
  · exact (mem_addedClaims a).1

theorem allocated_sublist : (allocated order claims n p).Sublist order := List.filter_sublist

theorem allocated_available (listed : claims.Sublist order) (h : f ∈ allocated order claims n p) : p f = true :=
  ((mem_allocated listed).1 h).elim (fun k => (mem_keptClaims k).2) fun a => (mem_addedClaims a).2.1

/-- How many fans an allocation leaves: as many as it needs, or all that are available (R57). -/
theorem allocated_length (nodup : order.Nodup) (listed : claims.Sublist order) :
    (allocated order claims n p).length = min n (order.filter p).length := by
  have keptNodup : (keptClaims claims n p).Nodup := ((listed.nodup nodup).filter p).sublist (List.take_sublist ..)
  have addedNodup : (addedClaims order claims n p).Nodup := (nodup.filter _).sublist (List.take_sublist ..)
  have apart : (keptClaims claims n p ++ addedClaims order claims n p).Nodup :=
    keptNodup.append addedNodup fun f k a => (mem_addedClaims a).2.2 k
  have perm : (allocated order claims n p).Perm (keptClaims claims n p ++ addedClaims order claims n p) := by
    refine (List.perm_ext_iff_of_nodup (nodup.filter _) apart).2 fun f => ?_
    rw [List.mem_append]
    exact mem_allocated listed
  have rest : (order.filter fun f => p f && !(keptClaims claims n p).contains f).length + (keptClaims claims n p).length =
      (order.filter p).length := by
    have split : ((order.filter p).filter fun f => !(keptClaims claims n p).contains f).length +
        ((order.filter p).filter fun f => (keptClaims claims n p).contains f).length = (order.filter p).length := by
      have := List.length_eq_length_filter_add (l := order.filter p) (fun f => (keptClaims claims n p).contains f)
      omega
    have same : ((order.filter p).filter fun f => (keptClaims claims n p).contains f).Perm (keptClaims claims n p) := by
      refine (List.perm_ext_iff_of_nodup ((nodup.filter p).filter _) keptNodup).2 fun f => ?_
      simp only [List.mem_filter, List.contains_iff_mem]
      exact ⟨fun h => h.2, fun k => ⟨⟨listed.subset (mem_keptClaims k).1, (mem_keptClaims k).2⟩, k⟩⟩
    rw [same.length_eq, List.filter_filter] at split
    rw [← split]
    congr 3
    funext f
    exact Bool.and_comm ..
  have keptLength : (keptClaims claims n p).length ≤ n := List.length_take_le ..
  have keptAll : (keptClaims claims n p).length = min n (claims.filter p).length := List.length_take ..
  have addedLength : (addedClaims order claims n p).length = min (n - (keptClaims claims n p).length)
      (order.filter fun f => p f && !(keptClaims claims n p).contains f).length := List.length_take ..
  rw [perm.length_eq, List.length_append, addedLength]
  omega

end

end Sys2Proof.Machine
end

section
/-! The agreement of the zones with the fans in the middle of a step (`Work.Agrees`): a hand-over of an availability or of a change at
CRITICAL that waits excuses what the zone's allocation will put in order (R57, R58). -/

namespace Sys2Proof.Machine

/-- The zone is still to allocate: a change of a fan's availability, or of the regime at CRITICAL, waits for it. -/
def Work.stale (w : Work) (z : Fin 6) : Prop := .availability z ∈ w.out ∨ .critical z ∈ w.out

/-- A fan carries the claim of a zone. -/
def Work.carries (w : Work) (i : Fin 8) (z : Fin 6) : Bool := vget (w.st.fan i).claims.zones z

/-- Whether a fan is available to the zones in the regime in force. -/
def Work.avails (w : Work) (i : Fin 8) : Bool := (w.st.fan i).available w.st.alarm.regime

/-- A zone agrees with the fans, but for what it is still to allocate. -/
structure Work.Agrees (w : Work) (z : Fin 6) : Prop where
  order : (w.st.zone z).cfg.order.Nodup
  listed : (w.st.zone z).claims.Sublist (w.st.zone z).cfg.order
  shortfall : (w.st.zone z).shortfall = decide ((w.st.zone z).claims.length < (w.st.zone z).needed)
  inactive : (w.st.zone z).active = false → w.st.zone z = .inactive (w.st.zone z).cfg
  carried : ∀ i, w.carries i z = true → i ∈ (w.st.zone z).claims
  held : ∀ i ∈ (w.st.zone z).claims, w.carries i z = true ∨ ((w.st.fan i).takesClaims = false ∧ w.stale z)
  available : ∀ i ∈ (w.st.zone z).claims, w.avails i = true ∨ w.stale z
  enough : (w.st.zone z).active = true → (w.st.zone z).claims.length =
    min (w.st.zone z).needed ((w.st.zone z).cfg.order.filter w.avails).length ∨ w.stale z

/-- Every zone agrees with the fans, and just the zones of `A` are active. -/
def Work.Agreed (A : Fin 6 → Bool) (w : Work) : Prop := ∀ z, (w.st.zone z).active = A z ∧ w.Agrees z

section
variable {A : Fin 6 → Bool} {P : Fin 8 → Fin 6 → Prop} {u v w : Work} {z : Fin 6}

/-- An active zone that uses a fan is told of a change of its availability. -/
theorem mem_zonesUsing {s : State} {i : Fin 8} {z : Fin 6} : z ∈ s.zonesUsing i ↔ (s.zone z).active = true ∧ i ∈ (s.zone z).cfg.order := by
  unfold State.zonesUsing State.activeZones
  simp [List.mem_filter, and_comm]

theorem stale_grown (grown : ∀ x ∈ w.out, x ∈ v.out) (h : w.stale z) : v.stale z := h.imp (grown _) (grown _)

/-- The claims of a zone are of fans of its order, and an inactive one has none. -/
theorem Work.Agrees.active_of_claim (h : w.Agrees z) {i : Fin 8} (mem : i ∈ (w.st.zone z).claims) : (w.st.zone z).active = true := by
  cases e : (w.st.zone z).active with
  | true => rfl
  | false => rw [h.inactive e] at mem; cases mem

/-- The fans of a zone's order are as available as before, or the zone is told. -/
theorem FansTurn.avails (a : FansTurn P w v) (active : (w.st.zone z).active = true) : (∀ i ∈ (w.st.zone z).cfg.order, v.avails i = w.avails i) ∨
    v.stale z := by
  by_cases told : v.stale z
  · exact .inr told
  · refine .inl fun i mem => ?_
    unfold Work.avails
    rw [a.within.alarm]
    exact (a.told i).resolve_right fun t => told (.inl (t z (mem_zonesUsing.2 ⟨active, mem⟩)))

/-- Work of the fans that leaves the zone's claims keeps its agreement. -/
theorem Work.Agrees.turn (h : w.Agrees z) (a : FansTurn P w v) (off : ∀ i, ¬P i z) : v.Agrees z := by
  have zone : v.st.zone z = w.st.zone z := by unfold State.zone; rw [a.zones]
  have carries (i) : v.carries i z = w.carries i z := a.carries i z (off i)
  have grown : w.stale z → v.stale z := stale_grown a.grown
  refine ⟨?_, ?_, ?_, ?_, ?_, ?_, ?_, ?_⟩ <;> rw [zone]
  · exact h.order
  · exact h.listed
  · exact h.shortfall
  · exact h.inactive
  · exact fun i => by rw [carries]; exact h.carried i
  · exact fun i mem => by rw [carries, a.takes]; exact (h.held i mem).imp_right (And.imp_right grown)
  · intro i mem
    rcases a.avails (h.active_of_claim mem) with same | stale
    · rw [same i (h.listed.subset mem)]; exact (h.available i mem).imp_right grown
    · exact .inr stale
  · intro active
    rcases a.avails active with same | stale
    · rw [List.filter_congr same]; exact (h.enough active).imp_right grown
    · exact .inr stale

theorem Work.Agreed.turn (h : w.Agreed A) (a : FansTurn (fun _ _ => False) w v) : v.Agreed A := fun z =>
  ⟨by unfold State.zone; rw [a.zones]; exact (h z).1, (h z).2.turn a fun _ => id⟩

/-! ## Allocation -/

theorem removeClaims_turn (xs : List (Fin 8)) (z : Fin 6) {w : Work} (h : Asked w) :
    FansTurn (fun j y => j ∈ xs ∧ y = z) w (xs.foldl (fun w f => w.removeClaim f (.zone z)) w) ∧
    ∀ j ∈ xs, (xs.foldl (fun w f => w.removeClaim f (.zone z)) w).carries j z = false := by
  induction xs generalizing w with
  | nil => exact ⟨.refl _ w, fun _ m => nomatch m⟩
  | cons x xs ih =>
    have first := fturn_removeClaim w x (.zone z) h
    obtain ⟨rest, dropped⟩ := ih (first.asks h)
    refine ⟨(first.mono ?_).trans (rest.mono fun j y c => ⟨List.mem_cons_of_mem x c.1, c.2⟩), fun j mem => ?_⟩
    · rintro j y ⟨rfl, e⟩
      injection e with e
      exact ⟨List.mem_cons_self, e.symm⟩
    · by_cases listed : j ∈ xs
      · exact dropped j listed
      · have e : j = x := (List.mem_cons.1 mem).resolve_right listed
        subst e
        exact (rest.carries j z fun c => listed c.1).trans (removeClaim_drops z h)

theorem addClaims_turn (xs : List (Fin 8)) (z : Fin 6) {w : Work} (h : Asked w) (takes : ∀ j ∈ xs, (w.st.fan j).takesClaims = true) :
    FansTurn (fun j y => j ∈ xs ∧ y = z) w (xs.foldl (fun w f => w.addClaim f (.zone z)) w) ∧
    ∀ j ∈ xs, (xs.foldl (fun w f => w.addClaim f (.zone z)) w).carries j z = true := by
  induction xs generalizing w with
  | nil => exact ⟨.refl _ w, fun _ m => nomatch m⟩
  | cons x xs ih =>
    have first := fturn_addClaim w x (.zone z) h
    obtain ⟨rest, carried⟩ := ih (first.asks h) fun j m => by rw [first.takes]; exact takes j (List.mem_cons_of_mem x m)
    refine ⟨(first.mono ?_).trans (rest.mono fun j y c => ⟨List.mem_cons_of_mem x c.1, c.2⟩), fun j mem => ?_⟩
    · rintro j y ⟨rfl, e⟩
      injection e with e
      exact ⟨List.mem_cons_self, e.symm⟩
    · by_cases listed : j ∈ xs
      · exact carried j listed
      · have e : j = x := (List.mem_cons.1 mem).resolve_right listed
        subst e
        exact (rest.carries j z fun c => listed c.1).trans (addClaim_carries z h (takes j mem))

/-- An available fan takes claims. -/
theorem takes_of_available {f : Fan} {regime : Regime} (h : f.available regime = true) : f.takesClaims = true := by
  have := (Bool.and_eq_true_iff.1 h).2
  unfold Fan.takesClaims
  cases e : f.state <;> rw [e] at this <;> first | rfl | cases this

/-- A zone's claim list, after an allocation of it. -/
def Work.allotted (w : Work) (z : Fin 6) : List (Fin 8) :=
  allocated (w.st.zone z).cfg.order (w.st.zone z).claims (w.st.zone z).needed w.avails

/-- The zone's record with the claim list and SHORTFALL that allocation gives it, before the fans are told. -/
def Work.listedFor (w : Work) (z : Fin 6) : Work :=
  w.map fun s => s.setZone z { w.st.zone z with
    claims := w.allotted z, shortfall := decide ((w.allotted z).length < (w.st.zone z).needed) }

theorem allocate_eq (w : Work) (z : Fin 6) : w.allocate z =
    (addedClaims (w.st.zone z).cfg.order (w.st.zone z).claims (w.st.zone z).needed w.avails).foldl (fun w f => w.addClaim f (.zone z))
      ((releasedClaims (w.st.zone z).claims (w.st.zone z).needed w.avails).foldl (fun w f => w.removeClaim f (.zone z)) (w.listedFor z)) := rfl

/-- What a zone must show for an allocation of it to put it in order. -/
structure Work.Allocable (w : Work) (z : Fin 6) : Prop where
  active : (w.st.zone z).active = true
  order : (w.st.zone z).cfg.order.Nodup
  listed : (w.st.zone z).claims.Sublist (w.st.zone z).cfg.order
  carried : ∀ i, w.carries i z = true → i ∈ (w.st.zone z).claims
  held : ∀ i ∈ (w.st.zone z).claims, w.carries i z = true ∨ (w.st.fan i).takesClaims = false

theorem Work.Agrees.allocable (h : w.Agrees z) (active : (w.st.zone z).active = true) : w.Allocable z :=
  ⟨active, h.order, h.listed, h.carried, fun i mem => (h.held i mem).imp_right And.left⟩

/-- An allocation is work of the fans that sets the zone's claims to its new list. -/
theorem allocate_turn (h : w.Allocable z) (asked : Asked w) : FansTurn (fun _ y => y = z) (w.listedFor z) (w.allocate z) ∧
    ∀ i, (w.allocate z).carries i z = decide (i ∈ w.allotted z) := by
  have asked' : Asked (w.listedFor z) := asked
  have avail (i) : w.avails i = true → (w.st.fan i).takesClaims = true := takes_of_available
  obtain ⟨released, dropped⟩ := removeClaims_turn (releasedClaims (w.st.zone z).claims (w.st.zone z).needed w.avails) z asked'
  rw [allocate_eq]
  generalize (releasedClaims (w.st.zone z).claims (w.st.zone z).needed w.avails).foldl _ (w.listedFor z) = v at released dropped ⊢
  obtain ⟨added, carried⟩ := addClaims_turn (addedClaims (w.st.zone z).cfg.order (w.st.zone z).claims (w.st.zone z).needed w.avails) z
    (released.asks asked') fun j mem => by rw [released.takes]; exact avail j (mem_addedClaims mem).2.1
  refine ⟨(released.mono fun _ _ c => c.2).trans (added.mono fun _ _ c => c.2), fun i => ?_⟩
  have list : i ∈ w.allotted z ↔ i ∈ keptClaims (w.st.zone z).claims (w.st.zone z).needed w.avails ∨
      i ∈ addedClaims (w.st.zone z).cfg.order (w.st.zone z).claims (w.st.zone z).needed w.avails := mem_allocated h.listed
  have gone := mem_releasedClaims (f := i) (n := (w.st.zone z).needed) (p := w.avails) (h.listed.nodup h.order)
  by_cases new : i ∈ addedClaims (w.st.zone z).cfg.order (w.st.zone z).claims (w.st.zone z).needed w.avails
  · rw [carried i new]
    exact (decide_eq_true (list.2 (.inr new))).symm
  · have same := added.carries i z fun c => new c.1
    change Work.carries _ i z = v.carries i z at same
    rw [same]
    by_cases old : i ∈ releasedClaims (w.st.zone z).claims (w.st.zone z).needed w.avails
    · rw [dropped i old]
      exact (decide_eq_false fun m => (gone.1 old).2 ((list.1 m).resolve_right new)).symm
    · have before := released.carries i z fun c => old c.1
      change v.carries i z = w.carries i z at before
      rw [before]
      by_cases kept : i ∈ keptClaims (w.st.zone z).claims (w.st.zone z).needed w.avails
      · have takes := avail i (mem_keptClaims kept).2
        rw [decide_eq_true (list.2 (.inl kept))]
        exact (h.held i (mem_keptClaims kept).1).resolve_right (by rw [takes]; decide)
      · rw [decide_eq_false fun m => (list.1 m).elim kept new]
        exact Bool.eq_false_iff.2 fun c => old (gone.2 ⟨h.carried i c, kept⟩)

theorem needed_congr {a b : Zone} (demand : a.demand = b.demand) (cfg : a.cfg = b.cfg) : a.needed = b.needed := by
  unfold Zone.needed
  rw [demand, cfg]

theorem listedFor_zone (w : Work) (z : Fin 6) : (w.listedFor z).st.zone z = { w.st.zone z with
    claims := w.allotted z, shortfall := decide ((w.allotted z).length < (w.st.zone z).needed) } := State.setZone_zone_same ..

/-- What an allocation leaves of the zone's record (R57, R58). -/
theorem allocate_zone (h : w.Allocable z) (asked : Asked w) : (w.allocate z).st.zone z = { w.st.zone z with
    claims := w.allotted z, shortfall := decide ((w.allotted z).length < (w.st.zone z).needed) } := by
  have zone : (w.allocate z).st.zone z = (w.listedFor z).st.zone z := by unfold State.zone; rw [(allocate_turn h asked).1.zones]
  rw [zone, listedFor_zone]

/-- An allocation puts its zone in order, and leaves every other as it agreed. -/
theorem allocate_agreed (h : w.Allocable z) (asked : Asked w) (others : ∀ y, y ≠ z → w.Agrees y) (y : Fin 6) : (w.allocate z).Agrees y := by
  obtain ⟨turn, carries⟩ := allocate_turn h asked
  by_cases e : y = z
  · subst e
    have zone := allocate_zone h asked
    have needed : ((w.allocate y).st.zone y).needed = (w.st.zone y).needed := by rw [zone]; exact needed_congr rfl rfl
    have avail := turn.avails (z := y) (by rw [listedFor_zone]; exact h.active)
    rw [listedFor_zone] at avail
    change (∀ i ∈ (w.st.zone y).cfg.order, (w.allocate y).avails i = w.avails i) ∨ _ at avail
    refine ⟨?_, ?_, ?_, ?_, fun i => ?_, fun i mem => .inl ?_, fun i mem => ?_, fun _ => ?_⟩
    · rw [zone]; exact h.order
    · rw [zone]; exact allocated_sublist
    · rw [needed, zone]
    · rw [zone]; exact fun off => absurd (h.active.symm.trans off) nofun
    · rw [carries, zone]; exact of_decide_eq_true
    · rw [carries]; rw [zone] at mem; exact decide_eq_true mem
    · rw [zone] at mem
      refine avail.imp_left fun same => ?_
      rw [same i (allocated_sublist.subset mem)]
      exact allocated_available h.listed mem
    · refine avail.imp_left fun same => ?_
      rw [needed, zone, List.filter_congr (l := (w.st.zone y).cfg.order) same]
      exact allocated_length h.order h.listed
  · have listed : (w.listedFor z).Agrees y := by
      have zone : (w.listedFor z).st.zone y = w.st.zone y := (State.setZone_zone ..).trans (if_neg (Ne.symm e))
      obtain ⟨order, listed, shortfall, inactive, carried, held, available, enough⟩ := others y e
      refine ⟨?_, ?_, ?_, ?_, ?_, ?_, ?_, ?_⟩ <;> rw [zone]
      · exact order
      · exact listed
      · exact shortfall
      · exact inactive
      · exact carried
      · exact held
      · exact available
      · exact enough
    exact listed.turn turn fun _ => e

end

end Sys2Proof.Machine
end

section
/-! What the alarm unit will hold once the hand-overs that wait have been taken (`ShownAlike`, `Shown`): the images of every block. -/

namespace Sys2Proof.Machine

/-! ## Paused zones and EQZ -/

/-- The paused image that a hand-over brings for a zone. -/
def Handover.pausedFor (z : Fin 6) : Handover → Option Bool
  | .paused y yes => if y = z then some yes else none
  | .condition .. => none | .eqz _ => none | .member _ => none | .coupling .. => none | .spill _ => none | .critical _ => none
  | .availability _ => none | .toArbiter => none | .toFans _ => none | .completion _ => none

/-- The debounced EQZ that a hand-over brings. -/
def Handover.eqzNow : Handover → Option Bool
  | .eqz active => some active
  | .condition .. => none | .paused .. => none | .member _ => none | .coupling .. => none | .spill _ => none | .critical _ => none
  | .availability _ => none | .toArbiter => none | .toFans _ => none | .completion _ => none

/-- The last value that a list of hand-overs brings, else the one that stands. -/
def latest (get : Handover → Option Bool) (hs : List Handover) (b : Bool) : Bool := hs.foldl (fun b h => (get h).getD b) b

theorem latest_append (get : Handover → Option Bool) (xs ys : List Handover) (b : Bool) :
    latest get (xs ++ ys) b = latest get ys (latest get xs b) := List.foldl_append ..

theorem latest_none {get : Handover → Option Bool} {hs : List Handover} (none_ : ∀ h ∈ hs, get h = none) (b : Bool) : latest get hs b = b := by
  induction hs generalizing b with
  | nil => rfl
  | cons h hs ih =>
    unfold latest at ih ⊢
    rw [List.foldl_cons, none_ h List.mem_cons_self]
    exact ih (fun x m => none_ x (List.mem_cons_of_mem h m)) b

/-- The paused image of a zone once the hand-overs that wait have been taken. -/
def Work.pausedShown (w : Work) (z : Fin 6) : Bool := latest (Handover.pausedFor z) w.out (vget w.st.alarm.paused z)

/-- The alarm unit's EQZ once the hand-overs that wait have been taken. -/
def Work.eqzShown (w : Work) : Bool := latest Handover.eqzNow w.out w.st.alarm.eqz

/-! ## Work that leaves what will be shown -/

/-- A hand-over that brings at most images of these classes. -/
def Handover.onlyOf (cs : List AlarmClass) : Handover → Prop
  | .condition k _ => classOf k ∈ cs
  | .paused .. => False | .eqz _ => False
  | .member _ => True | .coupling .. => True | .spill _ => True | .critical _ => True | .availability _ => True | .toArbiter => True
  | .toFans _ => True | .completion _ => True

/-- What will be shown stays, but for images of these classes. -/
structure ShownAlike (cs : List AlarmClass) (w v : Work) : Prop where
  image : ∀ k, classOf k ∉ cs → v.shown k = w.shown k
  paused : ∀ z, v.pausedShown z = w.pausedShown z
  eqz : v.eqzShown = w.eqzShown

section
variable {cs ds : List AlarmClass} {u v w : Work}

theorem ShownAlike.refl (cs : List AlarmClass) (w : Work) : ShownAlike cs w w := ⟨fun _ _ => rfl, fun _ => rfl, rfl⟩

theorem ShownAlike.trans (a : ShownAlike cs u v) (b : ShownAlike cs v w) : ShownAlike cs u w :=
  ⟨fun k n => (b.image k n).trans (a.image k n), fun z => (b.paused z).trans (a.paused z), b.eqz.trans a.eqz⟩

theorem ShownAlike.mono (a : ShownAlike cs w v) (sub : ∀ c ∈ cs, c ∈ ds) : ShownAlike ds w v :=
  ⟨fun k n => a.image k fun m => n (sub _ m), a.paused, a.eqz⟩

/-- Hand-overs behind those that wait. -/
theorem ShownAlike.of_new {new : List Handover} (out : v.out = w.out ++ new) (alarm : v.st.alarm = w.st.alarm)
    (only : ∀ h ∈ new, h.onlyOf cs) : ShownAlike cs w v := by
  refine ⟨fun k n => shown_spared out alarm fun h mem image e => ?_, fun z => ?_, ?_⟩
  · have := only h mem
    rw [e] at this
    exact n this
  · unfold Work.pausedShown
    rw [out, alarm, latest_append, latest_none fun h mem => ?_]
    cases h <;> first | rfl | exact (only _ mem).elim
  · unfold Work.eqzShown
    rw [out, alarm, latest_append, latest_none fun h mem => ?_]
    cases h <;> first | rfl | exact (only _ mem).elim

theorem ShownAlike.of_same (out : v.out = w.out) (alarm : v.st.alarm = w.st.alarm) : ShownAlike cs w v :=
  .of_new (new := []) (by rw [out, List.append_nil]) alarm fun _ m => nomatch m

/-- The first hand-over that waits is taken off the list, and brings no image. -/
theorem ShownAlike.of_drop {x : Handover} {rest : List Handover} (out : w.out = x :: rest) (only : x.onlyOf []) :
    ShownAlike cs w { w with out := rest } := by
  refine ⟨fun k _ => ?_, fun z => ?_, ?_⟩
  · unfold Work.shown
    rw [out, List.foldl_cons]
    cases x <;> first | rfl | exact only.elim | exact (List.not_mem_nil only).elim
  · unfold Work.pausedShown
    rw [out]
    cases x <;> first | rfl | exact only.elim
  · unfold Work.eqzShown
    rw [out]
    cases x <;> first | rfl | exact only.elim

theorem ofFans_only {h : Handover} (own : h.ofFans) : h.onlyOf [.flowNote] := by
  cases h with
  | condition k image =>
    obtain ⟨i, rfl⟩ := own
    change classOf (keyFlowNote i) ∈ _
    rw [classOf_keyFlowNote]
    exact List.mem_singleton.2 rfl
  | availability z => trivial
  | _ => exact own.elim

theorem FansTurn.shownAlike {P : Fin 8 → Fin 6 → Prop} (a : FansTurn P w v) : ShownAlike [.flowNote] w v := by
  obtain ⟨new, out, own⟩ := a.out
  exact .of_new out a.within.alarm fun h mem => ofFans_only (own h mem)

theorem classOf_keyChannelNote (i : Fin 16) : classOf (keyChannelNote i) = .channelNote := by revert i; decide
theorem classOf_keyChannelFault (i : Fin 16) : classOf (keyChannelFault i) = .channelFault := by revert i; decide

theorem ofChannel_only {i : Fin 16} {h : Handover} (own : h.ofChannel i) : h.onlyOf [.channelNote, .channelFault] := by
  cases h with
  | condition k image =>
    change classOf k ∈ _
    rcases own with rfl | rfl
    · rw [classOf_keyChannelNote]; decide
    · rw [classOf_keyChannelFault]; decide
  | member z => trivial
  | completion j => trivial
  | _ => exact own.elim

theorem ChannelTurn.shownAlike {i : Fin 16} {n : Nat} (a : ChannelTurn i n w v) : ShownAlike [.channelNote, .channelFault] w v := by
  obtain ⟨new, out, -, own⟩ := a.out
  exact .of_new out a.alarm fun h mem => ofChannel_only (own h mem)

/-- A condition that is handed over where it changes. -/
theorem shown_changed {k : Fin 82} {x y : Image} {before after : List Handover} (out : v.out = w.out ++ (before ++ changedImage k x y ++ after))
    (alarm : v.st.alarm = w.st.alarm) (a : ∀ h ∈ before, h.spares k) (b : ∀ h ∈ after, h.spares k) (shown : w.shown k = x) :
    v.shown k = y := by
  by_cases e : x = y
  · rw [← e, ← shown]
    refine shown_spared out alarm fun h mem => ?_
    rw [e, changedImage_self, List.append_nil, List.mem_append] at mem
    exact mem.elim (a h) (b h)
  · refine shown_posted (new := before) (rest := after) ?_ alarm b
    rw [out]
    unfold changedImage
    rw [if_neg e, List.append_assoc]
    rfl

theorem spares_of_key {k j : Fin 82} {image : Image} (ne : j ≠ k) : (Handover.condition j image).spares k := fun image' e => by
  injection e with e
  exact ne e

theorem spares_changed {k j : Fin 82} {x y : Image} (ne : j ≠ k) : ∀ h ∈ changedImage j x y, h.spares k := fun h mem => by
  rw [(mem_changedImage.1 mem).2]
  exact spares_of_key ne

theorem key_ne_of_class {k j : Fin 82} (h : classOf k ≠ classOf j) : k ≠ j := fun e => h (by rw [e])

end

/-! ## The blocks -/

/-- The alarm unit will hold a zone's conditions and its paused image as by the record `r` (R61). -/
structure ZoneShown (w : Work) (z : Fin 6) (r : Zone) : Prop where
  gas : w.shown (keyGas z) = r.gasImage
  blind : w.shown (keyBlind z) = r.blindImage
  shortfall : w.shown (keyShortfall z) = r.shortfallImage
  paused : w.pausedShown z = decide (r.sight = some .paused)

/-- The alarm unit will hold what every block shows (R12, R16, R51, R61, R94, R95, R123). -/
structure Shown (w : Work) : Prop where
  zone : ∀ z, ZoneShown w z (w.st.zone z)
  channelFault : ∀ i, w.shown (keyChannelFault i) = (w.st.chan i).state.faultImage
  channelNote : ∀ i, w.shown (keyChannelNote i) = (w.st.chan i).noteImage
  spill : ∀ p, w.shown (keySpill p) = (w.st.probe p).spillImage
  probeFault : ∀ p, w.shown (keyProbeFault p) = (w.st.probe p).faultImage
  fanFail : ∀ i, w.shown (keyFanFail i) = (w.st.fan i).failShown
  flowNote : ∀ i, w.shown (keyFlowNote i) = (w.st.fan i).noteShown
  eqz : w.eqzShown = w.st.eqz.debounced

section
variable {cs : List AlarmClass} {u v w : Work} {z : Fin 6} {r : Zone}

theorem ZoneShown.alike (h : ZoneShown w z r) (a : ShownAlike cs w v) (gas : .gas ∉ cs) (blind : .blind ∉ cs) (shortfall : .shortfall ∉ cs) :
    ZoneShown v z r where
  gas := (a.image _ (by rw [classOf_keyGas]; exact gas)).trans h.gas
  blind := (a.image _ (by rw [classOf_keyBlind]; exact blind)).trans h.blind
  shortfall := (a.image _ (by rw [classOf_keyShortfall]; exact shortfall)).trans h.shortfall
  paused := (a.paused z).trans h.paused

/-- A record that shows the same. -/
theorem ZoneShown.congr (h : ZoneShown w z r) {q : Zone} (gas : q.gasImage = r.gasImage) (blind : q.blindImage = r.blindImage)
    (shortfall : q.shortfallImage = r.shortfallImage) (paused : q.sight = some .paused ↔ r.sight = some .paused) : ZoneShown w z q :=
  ⟨h.gas.trans gas.symm, h.blind.trans blind.symm, h.shortfall.trans shortfall.symm, h.paused.trans (by rw [decide_eq_decide]; exact paused.symm)⟩

/-- Work of the fans. -/
theorem Shown.turn {P : Fin 8 → Fin 6 → Prop} (h : Shown w) (a : FansTurn P w v) : Shown v := by
  have alike := a.shownAlike
  have zone (z) : v.st.zone z = w.st.zone z := by unfold State.zone; rw [a.zones]
  have chan (i) : v.st.chan i = w.st.chan i := by unfold State.chan; rw [a.within.chans]
  have probe (p) : v.st.probe p = w.st.probe p := by unfold State.probe; rw [a.within.probes]
  refine ⟨fun z => ?_, fun i => ?_, fun i => ?_, fun p => ?_, fun p => ?_, fun i => ?_, fun i => a.noted i (h.flowNote i), ?_⟩
  · rw [zone]; exact (h.zone z).alike alike (by decide) (by decide) (by decide)
  · rw [chan, alike.image _ (by rw [classOf_keyChannelFault]; decide), h.channelFault]
  · rw [chan, alike.image _ (by rw [classOf_keyChannelNote]; decide), h.channelNote]
  · rw [probe, alike.image _ (by rw [classOf_keySpill]; decide), h.spill]
  · rw [probe, alike.image _ (by rw [classOf_keyProbeFault]; decide), h.probeFault]
  · rw [a.fail, alike.image _ (by rw [classOf_keyFanFail]; decide), h.fanFail]
  · rw [alike.eqz, h.eqz, a.within.eqz]

/-- Nothing that is shown, and no block that shows it, has changed. -/
theorem Shown.same (h : Shown w) (alike : ShownAlike [] w v) (zones : v.st.zones = w.st.zones) (chans : v.st.chans = w.st.chans)
    (probes : v.st.probes = w.st.probes) (fans : v.st.fans = w.st.fans) (eqz : v.st.eqz.debounced = w.st.eqz.debounced) : Shown v := by
  have none_ (k : Fin 82) : v.shown k = w.shown k := alike.image k List.not_mem_nil
  refine ⟨fun z => ?_, fun i => ?_, fun i => ?_, fun p => ?_, fun p => ?_, fun i => ?_, fun i => ?_, by rw [alike.eqz, eqz, h.eqz]⟩
  · unfold State.zone; rw [zones]; exact (h.zone z).alike alike List.not_mem_nil List.not_mem_nil List.not_mem_nil
  · unfold State.chan; rw [none_, chans]; exact h.channelFault i
  · unfold State.chan; rw [none_, chans]; exact h.channelNote i
  · unfold State.probe; rw [none_, probes]; exact h.spill p
  · unfold State.probe; rw [none_, probes]; exact h.probeFault p
  · unfold State.fan; rw [none_, fans]; exact h.fanFail i
  · unfold State.fan; rw [none_, fans]; exact h.flowNote i

end

end Sys2Proof.Machine
end

section
/-! The whole agreement in the middle of a step (`Works`): the order of the fans, the agreement of the zones with them, what the zones
have sensed, and what the alarm unit will hold. An evaluation keeps it (R45). -/

namespace Sys2Proof.Machine

/-- What an active zone shows is what it would sense, unless a change waits for it (R45, R46, R53, R54). -/
structure Work.Senses (w : Work) (z : Fin 6) : Prop where
  sensed : (w.st.zone z).active = true →
    ((w.st.zone z).sight = (w.st.sense z).sight ∧ (w.st.zone z).voted = (w.st.sense z).voted) ∨ .member z ∈ w.out
  spilt : (w.st.zone z).active = true → (w.st.zone z).spill = w.st.spillIn z ∨ .spill z ∈ w.out
  demand : (w.st.zone z).active = true →
    (w.st.zone z).demand = some ((w.st.zone z).demandUnder w.st.alarm.regime) ∨ .critical z ∈ w.out

/-- The agreement of the blocks; what the zones have sensed and what the alarm unit will hold are followed where `Z` and `I` ask for
it. -/
structure Works (K : Aims) (A : Fin 6 → Bool) (Z I : Prop) (w : Work) : Prop where
  lawful : Lawful K w
  agreed : w.Agreed A
  senses : Z → ∀ z, w.Senses z
  shown : I → Shown w

section
variable {K : Aims} {A : Fin 6 → Bool} {Z I : Prop} {P : Fin 8 → Fin 6 → Prop} {u v w : Work} {z : Fin 6}

theorem Ordered.asked {E : Fin 8 → Prop} (h : Ordered K E w) : Asked w := fun i some_ => by
  unfold Fan.takesClaims
  rw [(h.fits i).waiting.1 some_]

theorem Works.asked (h : Works K A Z I w) : Asked w := h.lawful.1.asked

/-! ## Work of the fans -/

/-- What a zone senses rests on its record, the channels and the clock. -/
theorem sense_congr {s t : State} (zone : t.zone z = s.zone z) (chans : t.chans = s.chans) (time : t.time = s.time) : t.sense z = s.sense z := by
  have chan (i) : t.chan i = s.chan i := by unfold State.chan; rw [chans]
  unfold State.sense State.healthyReadings State.members State.clock
  simp only [zone, chan, time]

theorem spillIn_congr {s t : State} (probes : t.probes = s.probes) (z : Fin 6) : t.spillIn z = s.spillIn z := by
  have probe (p) : t.probe p = s.probe p := by unfold State.probe; rw [probes]
  unfold State.spillIn
  simp only [probe]

theorem Work.Senses.within (h : w.Senses z) (within : Within w.st v.st) (zone : v.st.zone z = w.st.zone z) (grown : ∀ x ∈ w.out, x ∈ v.out) :
    v.Senses z := by
  have sense := sense_congr zone within.chans within.time
  refine ⟨?_, ?_, ?_⟩ <;> rw [zone]
  · rw [sense]; exact fun a => (h.sensed a).imp_right (grown _)
  · rw [spillIn_congr within.probes]; exact fun a => (h.spilt a).imp_right (grown _)
  · rw [within.alarm]; exact fun a => (h.demand a).imp_right (grown _)

theorem FansTurn.zone (a : FansTurn P w v) (z : Fin 6) : v.st.zone z = w.st.zone z := by unfold State.zone; rw [a.zones]

/-- Work of the fans that keeps their order keeps the agreement. -/
theorem Works.turn {L : Aims} (h : Works K A Z I w) (a : FansTurn P w v) (off : ∀ i z, ¬P i z) (lawful : Lawful L v) : Works L A Z I v where
  lawful := lawful
  agreed z := ⟨by rw [a.zone]; exact (h.agreed z).1, (h.agreed z).2.turn a fun i => off i z⟩
  senses p z := (h.senses p z).within a.within (a.zone z) a.grown
  shown p := (h.shown p).turn a

/-! ## The end of an evaluation -/

/-- What an evaluation hands to the alarm unit (R61). -/
def Zone.handovers (before after : Zone) (z : Fin 6) : List Handover :=
  changedImage (keyGas z) before.gasImage after.gasImage
    ++ changedImage (keyBlind z) before.blindImage after.blindImage
    ++ changedImage (keyShortfall z) before.shortfallImage after.shortfallImage
    ++ (if decide (before.sight = some .paused) = decide (after.sight = some .paused) then []
        else [.paused z (decide (after.sight = some .paused))])

/-- The work up to the notice of an evaluation's end. -/
theorem endEvaluation_eq (w : Work) (z : Fin 6) (before : Zone) : ∃ notes, notes.length ≤ 1 ∧
    (w.endEvaluation z before).st = (w.noticeAll notes).st ∧ (w.endEvaluation z before).out = w.out ++ before.handovers (w.st.zone z) z := by
  unfold Work.endEvaluation
  dsimp only
  split
  · exact ⟨[], Nat.zero_le _, rfl, rfl⟩
  · exact ⟨[_], le_rfl, rfl, rfl⟩

theorem noticeAll_kept (w : Work) (notes : List NoticeBody) : ∃ l, (w.noticeAll notes).st = w.st.setLink l := by
  rw [noticeAll_st, foldl_notice]
  exact ⟨_, rfl⟩

theorem endEvaluation_st (w : Work) (z : Fin 6) (before : Zone) : ∃ l, (w.endEvaluation z before).st = w.st.setLink l := by
  obtain ⟨notes, -, st, -⟩ := endEvaluation_eq w z before
  rw [st]
  exact noticeAll_kept w notes

theorem endEvaluation_out (w : Work) (z : Fin 6) (before : Zone) : (w.endEvaluation z before).out =
    w.out ++ before.handovers (w.st.zone z) z := by
  obtain ⟨notes, -, -, out⟩ := endEvaluation_eq w z before
  exact out

theorem mem_zoneHandovers {before after : Zone} {z : Fin 6} {h : Handover} (mem : h ∈ before.handovers after z) :
    (∃ k image, h = .condition k image ∧ (k = keyGas z ∨ k = keyBlind z ∨ k = keyShortfall z)) ∨ ∃ yes, h = .paused z yes := by
  unfold Zone.handovers at mem
  simp only [List.mem_append] at mem
  rcases mem with ((mem | mem) | mem) | mem
  · exact .inl ⟨_, _, (mem_changedImage.1 mem).2, .inl rfl⟩
  · exact .inl ⟨_, _, (mem_changedImage.1 mem).2, .inr (.inl rfl)⟩
  · exact .inl ⟨_, _, (mem_changedImage.1 mem).2, .inr (.inr rfl)⟩
  · split at mem
    · cases mem
    · exact .inr ⟨_, List.mem_singleton.1 mem⟩

theorem zoneHandovers_spare {before after : Zone} {z : Fin 6} {k : Fin 82} (a : k ≠ keyGas z) (b : k ≠ keyBlind z) (c : k ≠ keyShortfall z) :
    ∀ h ∈ before.handovers after z, h.spares k := by
  intro h mem image e
  rcases mem_zoneHandovers mem with ⟨j, now, same, key⟩ | ⟨yes, same⟩
  · rw [same] at e
    injection e with e
    subst e
    rcases key with x | x | x
    · exact a x
    · exact b x
    · exact c x
  · rw [same] at e; cases e

theorem zone_keys_inj {y z : Fin 6} (ne : y ≠ z) : keyGas y ≠ keyGas z ∧ keyBlind y ≠ keyBlind z ∧ keyShortfall y ≠ keyShortfall z := by
  revert y z; decide

/-- The evaluated zone's record is what the alarm unit will hold, and no other block's image has changed. -/
theorem endEvaluation_shown {before : Zone} (out : v.out = w.out ++ before.handovers (w.st.zone z) z) (alarm : v.st.alarm = w.st.alarm)
    (shown : ZoneShown w z before) : ZoneShown v z (w.st.zone z) ∧ (∀ y, y ≠ z → ∀ r, ZoneShown w y r → ZoneShown v y r) ∧
    (∀ k, classOf k ∉ [AlarmClass.gas, .blind, .shortfall] → v.shown k = w.shown k) ∧ v.eqzShown = w.eqzShown := by
  have gb : keyGas z ≠ keyBlind z := key_ne_of_class (by rw [classOf_keyGas, classOf_keyBlind]; decide)
  have gs : keyGas z ≠ keyShortfall z := key_ne_of_class (by rw [classOf_keyGas, classOf_keyShortfall]; decide)
  have bs : keyBlind z ≠ keyShortfall z := key_ne_of_class (by rw [classOf_keyBlind, classOf_keyShortfall]; decide)
  have paused (k : Fin 82) : ∀ h ∈ (if decide (before.sight = some .paused) = decide ((w.st.zone z).sight = some .paused) then []
      else [Handover.paused z (decide ((w.st.zone z).sight = some .paused))]), h.spares k := by
    intro h mem image e
    split at mem
    · cases mem
    · rw [List.mem_singleton.1 mem] at e; cases e
  have append {k : Fin 82} {xs ys : List Handover} (a : ∀ h ∈ xs, h.spares k) (b : ∀ h ∈ ys, h.spares k) : ∀ h ∈ xs ++ ys, h.spares k :=
    fun h mem => (List.mem_append.1 mem).elim (a h) (b h)
  have pausedFor (y : Fin 6) (b : Bool) : latest (Handover.pausedFor y) (before.handovers (w.st.zone z) z) b =
      latest (Handover.pausedFor y) (if decide (before.sight = some .paused) = decide ((w.st.zone z).sight = some .paused) then []
      else [Handover.paused z (decide ((w.st.zone z).sight = some .paused))]) b := by
    refine (latest_append ..).trans (congrArg (latest _ _) (latest_none (fun h mem => ?_) b))
    simp only [List.mem_append, mem_changedImage] at mem
    rcases mem with (⟨-, rfl⟩ | ⟨-, rfl⟩) | ⟨-, rfl⟩ <;> rfl
  have gasFirst : before.handovers (w.st.zone z) z = [] ++ changedImage (keyGas z) before.gasImage (w.st.zone z).gasImage ++
      (changedImage (keyBlind z) before.blindImage (w.st.zone z).blindImage ++ changedImage (keyShortfall z) before.shortfallImage (w.st.zone z).shortfallImage ++ (if decide (before.sight = some .paused) = decide ((w.st.zone z).sight = some .paused) then []
      else [Handover.paused z (decide ((w.st.zone z).sight = some .paused))])) := by
    unfold Zone.handovers; simp only [List.nil_append, List.append_assoc]
  have blindSecond : before.handovers (w.st.zone z) z = changedImage (keyGas z) before.gasImage (w.st.zone z).gasImage ++ changedImage (keyBlind z) before.blindImage (w.st.zone z).blindImage ++
      (changedImage (keyShortfall z) before.shortfallImage (w.st.zone z).shortfallImage ++ (if decide (before.sight = some .paused) = decide ((w.st.zone z).sight = some .paused) then []
      else [Handover.paused z (decide ((w.st.zone z).sight = some .paused))])) := by
    unfold Zone.handovers; simp only [List.append_assoc]
  refine ⟨⟨?_, ?_, ?_, ?_⟩, fun y ne r k => ⟨?_, ?_, ?_, ?_⟩, fun k other => ?_, ?_⟩
  · exact shown_changed (before := []) (gasFirst ▸ out) alarm (fun _ m => nomatch m)
      (append (append (spares_changed gb.symm) (spares_changed gs.symm)) (paused _)) shown.gas
  · exact shown_changed (blindSecond ▸ out) alarm (spares_changed gb) (append (spares_changed bs.symm) (paused _)) shown.blind
  · exact shown_changed out alarm (append (spares_changed gs) (spares_changed bs)) (paused _) shown.shortfall
  · have before_ := shown.paused
    unfold Work.pausedShown at before_ ⊢
    rw [out, alarm, latest_append, pausedFor, before_]
    split
    · assumption
    · change (if z = z then some _ else none).getD _ = _
      rw [if_pos rfl]; rfl
  · exact (shown_spared out alarm (zoneHandovers_spare (zone_keys_inj ne).1
      (key_ne_of_class (by rw [classOf_keyGas, classOf_keyBlind]; decide)) (key_ne_of_class (by rw [classOf_keyGas, classOf_keyShortfall]; decide)))).trans k.gas
  · exact (shown_spared out alarm (zoneHandovers_spare (key_ne_of_class (by rw [classOf_keyGas, classOf_keyBlind]; decide))
      (zone_keys_inj ne).2.1 (key_ne_of_class (by rw [classOf_keyBlind, classOf_keyShortfall]; decide)))).trans k.blind
  · exact (shown_spared out alarm (zoneHandovers_spare (key_ne_of_class (by rw [classOf_keyGas, classOf_keyShortfall]; decide))
      (key_ne_of_class (by rw [classOf_keyBlind, classOf_keyShortfall]; decide)) (zone_keys_inj ne).2.2)).trans k.shortfall
  · have before_ := k.paused
    unfold Work.pausedShown at before_ ⊢
    rw [out, alarm, latest_append, pausedFor, before_]
    split
    · rfl
    · change (if z = y then some _ else none).getD _ = _
      rw [if_neg (Ne.symm ne)]; rfl
  · refine shown_spared out alarm (zoneHandovers_spare ?_ ?_ ?_) <;> rintro rfl
    · exact other (by rw [classOf_keyGas]; decide)
    · exact other (by rw [classOf_keyBlind]; decide)
    · exact other (by rw [classOf_keyShortfall]; decide)
  · unfold Work.eqzShown
    rw [out, alarm, latest_append]
    refine latest_none (fun h mem => ?_) _
    rcases mem_zoneHandovers mem with ⟨k, image, rfl, -⟩ | ⟨yes, rfl⟩ <;> rfl

end

end Sys2Proof.Machine
end

section
/-! Evaluations keep the agreement of the blocks (R45, R57, R58). -/

namespace Sys2Proof.Machine

section
variable {K : Aims} {A : Fin 6 → Bool} {Z I : Prop} {u v w : Work} {z : Fin 6} {q r : Zone}

/-- What a zone senses by its vote and its members. -/
theorem sensed_congr {s t : State} {z : Fin 6} (vote : (t.zone z).cfg.vote = (s.zone z).cfg.vote) (chans : t.chans = s.chans) :
    (t.sense z).sight = (s.sense z).sight ∧ (t.sense z).voted = (s.sense z).voted := by
  have chan (i) : t.chan i = s.chan i := by unfold State.chan; rw [chans]
  rw [State.sense_sight, State.sense_sight, State.sense_voted, State.sense_voted, vote]
  unfold State.healthyReadings State.members
  simp only [chan]
  exact ⟨trivial, trivial⟩

/-- The agreement of the blocks but for zone `z`, which is to be evaluated: it needs no more than what an allocation puts in order. -/
structure WorksBut (K : Aims) (A : Fin 6 → Bool) (Z I : Prop) (z : Fin 6) (w : Work) : Prop where
  lawful : Lawful K w
  active : ∀ y, (w.st.zone y).active = A y
  allocable : w.Allocable z
  agrees : ∀ y, y ≠ z → w.Agrees y
  senses : Z → ∀ y, y ≠ z → w.Senses y
  shown : I → Shown w

theorem Works.but (h : Works K A Z I w) (active : (w.st.zone z).active = true) : WorksBut K A Z I z w :=
  ⟨h.lawful, fun y => (h.agreed y).1, (h.agreed z).2.allocable active, fun y _ => (h.agreed y).2, fun p y _ => h.senses p y, h.shown⟩

/-- An evaluation has written `q` to zone `z`, and the fans have taken what its allocation changed. -/
structure Evaluated (w v : Work) (z : Fin 6) (q : Zone) : Prop where
  turn : FansTurn (fun _ y => y = z) (w.map fun s => s.setZone z q) v
  agrees : ∀ y, v.Agrees y

theorem Evaluated.zone (e : Evaluated w v z q) (y : Fin 6) : v.st.zone y = if z = y then q else w.st.zone y :=
  (e.turn.zone y).trans (State.setZone_zone ..)

theorem Evaluated.within (e : Evaluated w v z q) : Within w.st v.st := (within_setZone w.st z q).trans e.turn.within

/-- An evaluation keeps what all zones have sensed, its own zone's as it has sensed it. -/
theorem Evaluated.senses (e : Evaluated w v z q) (senses : ∀ y, y ≠ z → w.Senses y) (vote : q.cfg.vote = (w.st.zone z).cfg.vote)
    (sensed : q.active = true → (q.sight = (w.st.sense z).sight ∧ q.voted = (w.st.sense z).voted) ∨ .member z ∈ w.out)
    (spilt : q.active = true → q.spill = w.st.spillIn z ∨ .spill z ∈ w.out)
    (demand : q.active = true → q.demand = some (q.demandUnder w.st.alarm.regime) ∨ .critical z ∈ w.out) (y : Fin 6) : v.Senses y := by
  have grown : ∀ x ∈ w.out, x ∈ v.out := e.turn.grown
  by_cases own : z = y
  · subst own
    have zone : v.st.zone z = q := (e.zone z).trans (if_pos rfl)
    obtain ⟨sight, voted⟩ := sensed_congr (s := w.st) (t := v.st) (z := z) (by rw [zone, vote]) e.within.chans
    refine ⟨?_, ?_, ?_⟩ <;> rw [zone]
    · rw [sight, voted]; exact fun a => (sensed a).imp_right (grown _)
    · rw [spillIn_congr e.within.probes]; exact fun a => (spilt a).imp_right (grown _)
    · rw [e.within.alarm]; exact fun a => (demand a).imp_right (grown _)
  · exact (senses y (Ne.symm own)).within e.within ((e.zone y).trans (if_neg own)) grown

/-- What is shown at the end of an evaluation. -/
theorem Evaluated.shown (e : Evaluated w v z q) (h : Shown w) : Shown (v.endEvaluation z (w.st.zone z)) := by
  have written : Shown (w.map fun s => s.setZone z q) → Shown v := fun k => k.turn e.turn
  have alike : ShownAlike [.flowNote] (w.map fun s => s.setZone z q) v := e.turn.shownAlike
  have before : ZoneShown v z (w.st.zone z) :=
    ((h.zone z).alike (cs := [.flowNote]) (v := w.map fun s => s.setZone z q) (ShownAlike.of_same rfl rfl) (by decide) (by decide) (by decide)).alike
      alike (by decide) (by decide) (by decide)
  obtain ⟨l, st⟩ := endEvaluation_st v z (w.st.zone z)
  obtain ⟨own, others, images, eqz⟩ := endEvaluation_shown (endEvaluation_out v z (w.st.zone z)) (by rw [st]; rfl) before
  have same : ShownAlike [.flowNote] w v :=
    (ShownAlike.of_same (w := w) (v := w.map fun s => s.setZone z q) rfl rfl).trans alike
  have chan (i) : v.st.chan i = w.st.chan i := by unfold State.chan; rw [e.within.chans]
  have probe (p) : v.st.probe p = w.st.probe p := by unfold State.probe; rw [e.within.probes]
  refine ⟨fun y => ?_, fun i => ?_, fun i => ?_, fun p => ?_, fun p => ?_, fun i => ?_, fun i => ?_, ?_⟩ <;> rw [st]
  · by_cases ours : y = z
    · subst ours; exact own
    · have zone : (v.st.setLink l).zone y = w.st.zone y := (e.zone y).trans (if_neg (Ne.symm ours))
      rw [zone]
      exact others y ours _ ((h.zone y).alike same (by decide) (by decide) (by decide))
  · rw [images _ (by rw [classOf_keyChannelFault]; decide), same.image _ (by rw [classOf_keyChannelFault]; decide), h.channelFault]
    exact congrArg (fun c : Channel => c.state.faultImage) (chan i).symm
  · rw [images _ (by rw [classOf_keyChannelNote]; decide), same.image _ (by rw [classOf_keyChannelNote]; decide), h.channelNote]
    exact congrArg Channel.noteImage (chan i).symm
  · rw [images _ (by rw [classOf_keySpill]; decide), same.image _ (by rw [classOf_keySpill]; decide), h.spill]
    exact congrArg Probe.spillImage (probe p).symm
  · rw [images _ (by rw [classOf_keyProbeFault]; decide), same.image _ (by rw [classOf_keyProbeFault]; decide), h.probeFault]
    exact congrArg Probe.faultImage (probe p).symm
  · rw [images _ (by rw [classOf_keyFanFail]; decide), same.image _ (by rw [classOf_keyFanFail]; decide), h.fanFail]
    exact (e.turn.fail i).symm
  · rw [images _ (by rw [classOf_keyFlowNote]; decide)]
    exact e.turn.noted i (h.flowNote i)
  · rw [eqz, same.eqz, h.eqz]
    exact congrArg Conditioner.debounced e.within.eqz.symm

/-- The notice and the hand-overs to the alarm unit leave what agrees. -/
theorem Work.Agrees.later (h : w.Agrees z) {l : Link} (st : v.st = w.st.setLink l) (grown : ∀ x ∈ w.out, x ∈ v.out) : v.Agrees z := by
  obtain ⟨order, listed, shortfall, inactive, carried, held, available, enough⟩ := h
  unfold Work.carries at carried held
  unfold Work.avails at available enough
  refine ⟨?_, ?_, ?_, ?_, ?_, ?_, ?_, ?_⟩ <;> (try unfold Work.carries) <;> (try unfold Work.avails) <;> rw [st]
  · exact order
  · exact listed
  · exact shortfall
  · exact inactive
  · exact carried
  · exact fun i mem => (held i mem).imp_right (And.imp_right (stale_grown grown))
  · exact fun i mem => (available i mem).imp_right (stale_grown grown)
  · exact fun active => (enough active).imp_right (stale_grown grown)

theorem Work.Senses.later (h : w.Senses z) {l : Link} (st : v.st = w.st.setLink l) (grown : ∀ x ∈ w.out, x ∈ v.out) : v.Senses z := by
  refine ⟨?_, ?_, ?_⟩ <;> rw [st]
  · exact fun a => (h.sensed a).imp_right (grown _)
  · exact fun a => (h.spilt a).imp_right (grown _)
  · exact fun a => (h.demand a).imp_right (grown _)

/-- An evaluation keeps the agreement. -/
theorem WorksBut.evaluated (h : WorksBut K A Z I z w) (e : Evaluated w v z q) (active : q.active = (w.st.zone z).active)
    (vote : q.cfg.vote = (w.st.zone z).cfg.vote)
    (sensed : Z → q.active = true → (q.sight = (w.st.sense z).sight ∧ q.voted = (w.st.sense z).voted) ∨ .member z ∈ w.out)
    (spilt : Z → q.active = true → q.spill = w.st.spillIn z ∨ .spill z ∈ w.out)
    (demand : Z → q.active = true → q.demand = some (q.demandUnder w.st.alarm.regime) ∨ .critical z ∈ w.out)
    (lawful : Lawful K (v.endEvaluation z (w.st.zone z))) : Works K A Z I (v.endEvaluation z (w.st.zone z)) := by
  obtain ⟨l, st⟩ := endEvaluation_st v z (w.st.zone z)
  have grown : ∀ x ∈ v.out, x ∈ (v.endEvaluation z (w.st.zone z)).out := by
    rw [endEvaluation_out]
    exact fun x m => List.mem_append_left _ m
  refine ⟨lawful, fun y => ⟨?_, (e.agrees y).later st grown⟩,
    fun p y => (e.senses (h.senses p) vote (sensed p) (spilt p) (demand p) y).later st grown, fun p => e.shown (h.shown p)⟩
  rw [st]
  refine (congrArg Zone.active (e.zone y)).trans ?_
  by_cases own : z = y
  · subst own; rw [if_pos rfl, active]; exact h.active z
  · rw [if_neg own]; exact h.active y

/-! ## The evaluations -/

theorem map_setZone_setZone (w : Work) (z : Fin 6) (r q : Zone) :
    ((w.map fun s => s.setZone z r).map fun s => s.setZone z q) = w.map fun s => s.setZone z q := by
  change ({ st := (w.st.setZone z r).setZone z q, out := w.out } : Work) = _
  rw [setZone_setZone]
  rfl

theorem setZone_zone_own (w : Work) (z : Fin 6) (r : Zone) : (w.map fun s => s.setZone z r).st.zone z = r := State.setZone_zone_same ..

theorem setZone_zone_other (w : Work) {y z : Fin 6} (ne : y ≠ z) (r : Zone) : (w.map fun s => s.setZone z r).st.zone y = w.st.zone y :=
  (State.setZone_zone ..).trans (if_neg (Ne.symm ne))

/-- Another zone's record does not concern a zone. -/
theorem Work.Agrees.beside {y : Fin 6} (h : w.Agrees y) (ne : y ≠ z) (r : Zone) : (w.map fun s => s.setZone z r).Agrees y := by
  have zone := setZone_zone_other w ne r
  obtain ⟨order, listed, shortfall, inactive, carried, held, available, enough⟩ := h
  refine ⟨?_, ?_, ?_, ?_, ?_, ?_, ?_, ?_⟩ <;> rw [zone]
  · exact order
  · exact listed
  · exact shortfall
  · exact inactive
  · exact carried
  · exact held
  · exact available
  · exact enough

/-- A record with the same claims, order, need and SHORTFALL. -/
theorem Work.Agrees.written (h : w.Agrees z) {r : Zone} (on : r.active = true) (active : (w.st.zone z).active = true)
    (order : r.cfg.order = (w.st.zone z).cfg.order) (claims : r.claims = (w.st.zone z).claims) (needed : r.needed = (w.st.zone z).needed)
    (shortfall : r.shortfall = (w.st.zone z).shortfall) : (w.map fun s => s.setZone z r).Agrees z := by
  have zone := setZone_zone_own w z r
  refine ⟨?_, ?_, ?_, ?_, ?_, ?_, ?_, ?_⟩ <;> rw [zone]
  · rw [order]; exact h.order
  · rw [order, claims]; exact h.listed
  · rw [shortfall, claims, needed]; exact h.shortfall
  · exact fun off => absurd (on.symm.trans off) nofun
  · rw [claims]; exact h.carried
  · rw [claims]; exact h.held
  · rw [claims]; exact h.available
  · rw [order, claims, needed]; exact fun _ => h.enough active

/-- An allocation after a record `r` with the zone's claims. -/
theorem WorksBut.allocated (h : WorksBut K A Z I z w) (active : r.active = true) (order : r.cfg.order.Nodup) (listed : r.claims.Sublist r.cfg.order)
    (same : ∀ i, i ∈ r.claims ↔ i ∈ (w.st.zone z).claims) :
    Evaluated w ((w.map fun s => s.setZone z r).allocate z) z { r with
      claims := (w.map fun s => s.setZone z r).allotted z
      shortfall := decide (((w.map fun s => s.setZone z r).allotted z).length < r.needed) } := by
  have zone := setZone_zone_own w z r
  have allocable : (w.map fun s => s.setZone z r).Allocable z := by
    refine ⟨?_, ?_, ?_, ?_, ?_⟩ <;> rw [zone]
    · exact active
    · exact order
    · exact listed
    · exact fun i c => (same i).2 (h.allocable.carried i c)
    · exact fun i mem => h.allocable.held i ((same i).1 mem)
  have asked : Asked (w.map fun s => s.setZone z r) := h.lawful.1.asked
  refine ⟨?_, fun y => allocate_agreed allocable asked (fun x ne => (h.agrees x ne).beside ne r) y⟩
  have turn := (allocate_turn allocable asked).1
  unfold Work.listedFor at turn
  rw [map_setZone_setZone, zone] at turn
  exact turn

/-- A record that differs in claims, SHORTFALL and demand alone. -/
structure SameButClaims (r q : Zone) : Prop where
  eq : q = { r with demand := q.demand, claims := q.claims, shortfall := q.shortfall }

/-- The step of the demand, from a record with the zone's claims, order and demand: it writes a record with the demand that follows, and
allocates where that is another one (R45, R55). -/
theorem WorksBut.demandStep (h : WorksBut K A Z I z w) {always : Bool} (agrees : always = false → w.Agrees z) (on : r.active = true)
    (cfg : r.cfg = (w.st.zone z).cfg) (claims : r.claims = (w.st.zone z).claims) (demand : r.demand = (w.st.zone z).demand)
    (shortfall : r.shortfall = (w.st.zone z).shortfall) :
    ∃ q, SameButClaims r q ∧ q.demand = some (r.demandUnder w.st.alarm.regime) ∧
      Evaluated w ((w.map fun s => s.setZone z r).demandStep z always) z q := by
  have zone := setZone_zone_own w z r
  have regime : (w.map fun s => s.setZone z r).st.alarm.regime = w.st.alarm.regime := rfl
  unfold Work.demandStep
  dsimp only
  rw [zone, map_setZone_setZone, regime]
  split
  · refine ⟨_, ⟨?_⟩, ?_, h.allocated (r := { r with demand := some (r.demandUnder w.st.alarm.regime) }) on (by rw [cfg]; exact h.allocable.order)
      (by rw [cfg, claims]; exact h.allocable.listed) fun i => by rw [claims]⟩
    · rfl
    · rfl
  · rename_i still
    have same : r.demand = some (r.demandUnder w.st.alarm.regime) := by
      simp only [Bool.or_eq_true, not_or, decide_eq_true_eq, not_not] at still
      exact still.2
    have late : always = false := by
      simp only [Bool.or_eq_true, not_or] at still
      simpa using still.1
    refine ⟨r, ⟨rfl⟩, same, ?_⟩
    rw [← same]
    refine ⟨.refl _ _, fun y => ?_⟩
    by_cases own : y = z
    · subst own
      exact (agrees late).written on h.allocable.active (by rw [cfg]) claims (needed_congr demand cfg) shortfall
    · exact (h.agrees y own).beside own r

theorem demandUnder_congr {q r : Zone} (same : SameButClaims r q) (regime : Regime) : q.demandUnder regime = r.demandUnder regime := by
  rw [same.eq]
  rfl

/-- An evaluation from a record that an event has changed, at the demand. -/
theorem WorksBut.evaluateDemand (h : WorksBut K A Z I z w) {always : Bool} (agrees : always = false → w.Agrees z) (on : r.active = true)
    (cfg : r.cfg = (w.st.zone z).cfg) (claims : r.claims = (w.st.zone z).claims) (demand : r.demand = (w.st.zone z).demand)
    (shortfall : r.shortfall = (w.st.zone z).shortfall)
    (sensed : Z → (r.sight = (w.st.sense z).sight ∧ r.voted = (w.st.sense z).voted) ∨ .member z ∈ w.out)
    (spilt : Z → r.spill = w.st.spillIn z ∨ .spill z ∈ w.out) : Works K A Z I (w.evaluateDemand z r always) := by
  obtain ⟨q, same, new, e⟩ := h.demandStep agrees on cfg claims demand shortfall
  have fields := same.eq
  refine h.evaluated e ?_ ?_ (fun p _ => ?_) (fun p _ => ?_) (fun _ _ => ?_) (h.lawful.evaluateDemand z r always)
  · rw [fields, h.allocable.active]; exact on
  · rw [fields]; exact congrArg ZoneCfg.vote cfg
  · rw [fields]; exact sensed p
  · rw [fields]; exact spilt p
  · rw [demandUnder_congr same]; exact .inl new

theorem settleGas_rest (r : Zone) (clock : Nat) : ∃ g t, r.settleGas clock = { r with gas := g, holdTimer := t } := by
  unfold Zone.settleGas
  split
  · exact ⟨_, _, rfl⟩
  · split
    · exact ⟨_, _, rfl⟩
    · split
      · exact ⟨_, _, rfl⟩
      · split
        · exact ⟨_, _, rfl⟩
        · exact ⟨_, _, rfl⟩

/-- Sensing leaves what it does not sense. -/
theorem sense_rest (s : State) (z : Fin 6) : s.sense z = { s.zone z with
    sight := (s.sense z).sight, voted := (s.sense z).voted, gas := (s.sense z).gas, holdTimer := (s.sense z).holdTimer } := by
  obtain ⟨g, t, e⟩ := settleGas_rest (s.sightOn z) s.time.clock
  rw [State.sense_eq, e]
  rfl

/-- An evaluation at sight. -/
theorem WorksBut.evaluateSight (h : WorksBut K A Z I z w) (agrees : w.Agrees z)
    (spilt : Z → (w.st.zone z).spill = w.st.spillIn z ∨ .spill z ∈ w.out) : Works K A Z I (w.evaluateSight z) := by
  have rest := sense_rest w.st z
  have evaluated : w.evaluateSight z = w.evaluateDemand z (w.st.sense z) false := rfl
  rw [evaluated]
  refine h.evaluateDemand (fun _ => agrees) ?_ ?_ ?_ ?_ ?_ (fun _ => .inl ⟨rfl, rfl⟩) fun p => ?_
  · rw [rest]; exact h.allocable.active
  · rw [rest]
  · rw [rest]
  · rw [rest]
  · rw [rest]
  · rw [rest]; exact spilt p

/-- An evaluation at allocation, from a record that differs in its order and the order of its claims alone. -/
theorem WorksBut.evaluateAllocation (h : WorksBut K A Z I z w) (senses : Z → w.Senses z) (on : r.active = true)
    (order : r.cfg.order.Nodup) (listed : r.claims.Sublist r.cfg.order) (same : ∀ i, i ∈ r.claims ↔ i ∈ (w.st.zone z).claims)
    (fields : r = { w.st.zone z with cfg := { (w.st.zone z).cfg with order := r.cfg.order }, claims := r.claims }) :
    Works K A Z I (w.evaluateAllocation z r) := by
  have e := h.allocated on order listed same
  refine h.evaluated e ?_ ?_ (fun p _ => ?_) (fun p _ => ?_) (fun p _ => ?_) (h.lawful.evaluateAllocation z r)
  · exact on.trans h.allocable.active.symm
  · rw [fields]
  · rw [fields]; exact (senses p).sensed h.allocable.active
  · rw [fields]; exact (senses p).spilt h.allocable.active
  · rw [fields]; exact (senses p).demand h.allocable.active

end

end Sys2Proof.Machine
end

section
/-! Every hand-over keeps the agreement of the blocks. -/

namespace Sys2Proof.Machine

section
variable {K : Aims} {A : Fin 6 → Bool} {Z I : Prop} {P : Fin 8 → Fin 6 → Prop} {u v w : Work} {z : Fin 6} {x : Handover}
  {rest : List Handover}

/-! ## What a change of the regime leaves -/

/-- Availability and demand ask of the regime only whether it is CRITICAL (R54, R56). -/
theorem available_congr {a b : Regime} (same : a = .critical ↔ b = .critical) (f : Fan) : f.available a = f.available b := by
  unfold Fan.available
  rw [decide_eq_decide.2 same]

theorem demandUnder_regime {a b : Regime} (same : a = .critical ↔ b = .critical) (r : Zone) : r.demandUnder a = r.demandUnder b := by
  unfold Zone.demandUnder
  simp only [same]

/-- Work that reaches neither a zone nor a fan; the active zones are told where the regime comes to CRITICAL or leaves it. -/
structure Passed (w v : Work) : Prop where
  zones : v.st.zones = w.st.zones
  fans : v.st.fans = w.st.fans
  grown : ∀ x ∈ w.out, x ∈ v.out
  crossed : (v.st.alarm.regime = .critical ↔ w.st.alarm.regime = .critical) ∨ ∀ z, (w.st.zone z).active = true → .critical z ∈ v.out

theorem Passed.zone (p : Passed w v) (z : Fin 6) : v.st.zone z = w.st.zone z := by unfold State.zone; rw [p.zones]

theorem Passed.fan (p : Passed w v) (i : Fin 8) : v.st.fan i = w.st.fan i := by unfold State.fan; rw [p.fans]

theorem Work.Agrees.passed (h : w.Agrees z) (p : Passed w v) : v.Agrees z := by
  have zone := p.zone z
  have fan := p.fan
  have carries (i) : v.carries i z = w.carries i z := by unfold Work.carries; rw [fan]
  have grown : w.stale z → v.stale z := stale_grown p.grown
  have avails (active : (w.st.zone z).active = true) : (∀ i, v.avails i = w.avails i) ∨ v.stale z := by
    refine p.crossed.imp (fun same i => ?_) fun told => .inr (told z active)
    unfold Work.avails
    rw [fan, available_congr same]
  refine ⟨?_, ?_, ?_, ?_, ?_, ?_, ?_, ?_⟩ <;> rw [zone]
  · exact h.order
  · exact h.listed
  · exact h.shortfall
  · exact h.inactive
  · exact fun i => by rw [carries]; exact h.carried i
  · exact fun i mem => by rw [carries, fan]; exact (h.held i mem).imp_right (And.imp_right grown)
  · intro i mem
    rcases avails (h.active_of_claim mem) with same | stale
    · rw [same]; exact (h.available i mem).imp_right grown
    · exact .inr stale
  · intro active
    rcases avails active with same | stale
    · rw [List.filter_congr fun i _ => same i]; exact (h.enough active).imp_right grown
    · exact .inr stale

/-- A zone has sensed what it senses, where neither a channel nor a probe that it sees has changed, or the zone is told. -/
theorem Work.Senses.passed (h : w.Senses z) (p : Passed w v)
    (sensed : ((v.st.sense z).sight = (w.st.sense z).sight ∧ (v.st.sense z).voted = (w.st.sense z).voted) ∨ .member z ∈ v.out)
    (spilt : v.st.spillIn z = w.st.spillIn z ∨ .spill z ∈ v.out) : v.Senses z := by
  refine ⟨?_, ?_, ?_⟩ <;> rw [p.zone]
  · rcases sensed with same | told
    · rw [same.1, same.2]; exact fun a => (h.sensed a).imp_right (p.grown _)
    · exact fun _ => .inr told
  · rcases spilt with same | told
    · rw [same]; exact fun a => (h.spilt a).imp_right (p.grown _)
    · exact fun _ => .inr told
  · intro active
    rcases p.crossed with same | told
    · rw [demandUnder_regime same]; exact (h.demand active).imp_right (p.grown _)
    · exact .inr (told z active)

/-- Work that reaches no block that a zone sees. -/
theorem Works.passed {L : Aims} (h : Works K A Z I w) (p : Passed w v) (chans : v.st.chans = w.st.chans) (probes : v.st.probes = w.st.probes)
    (lawful : Lawful L v) (shown : I → Shown v) : Works L A Z I v where
  lawful := lawful
  agreed z := ⟨by rw [p.zone]; exact (h.agreed z).1, (h.agreed z).2.passed p⟩
  senses q z := (h.senses q z).passed p (.inl (sensed_congr (by rw [p.zone]) chans)) (.inl (spillIn_congr probes z))
  shown := shown

/-- The pass of the alarm unit over `a` tells the zones of a change at CRITICAL. -/
theorem alarmPass_passed (w : Work) {a : Alarm} (same : a.regime = w.st.alarm.regime) (changed : Bool) (notes : List NoticeBody) :
    Passed w ((w.map fun s => s.setAlarm a).alarmPass changed notes) := by
  obtain ⟨blocks, regime, out⟩ := alarmPass_blocks w a changed notes
  refine ⟨blocks.zones, blocks.fans, fun x mem => by rw [out]; exact List.mem_append_left _ mem, ?_⟩
  rw [regime, out, ← same]
  by_cases kept : regimeOf a = .critical ↔ a.regime = .critical
  · exact .inl kept
  · refine .inr fun z active => List.mem_append_right _ ?_
    rw [if_neg fun e => kept (by rw [e])]
    unfold Work.regimePosts
    refine List.mem_append_left _ (List.mem_map.2 ⟨z, (inOpenOrder_perm _ _).mem_iff.2 ?_, rfl⟩)
    rw [if_pos ?_]
    · exact List.mem_filter.2 ⟨List.mem_finRange z, active⟩
    · rw [bne_iff_ne, ne_eq, decide_eq_decide]
      exact fun e => kept e.symm

theorem regimePosts_only (w : Work) (old new : Regime) : ∀ h ∈ w.regimePosts old new, h.onlyOf [] := by
  intro h mem
  unfold Work.regimePosts at mem
  rcases List.mem_append.1 mem with mem | mem
  · obtain ⟨z, -, rfl⟩ := List.mem_map.1 mem
    trivial
  · rcases List.mem_cons.1 mem with rfl | mem
    · trivial
    · rw [List.mem_singleton.1 mem]
      trivial

/-- A pass leaves what the alarm unit over `a` would show. -/
theorem alarmPass_alike (w : Work) (a : Alarm) (changed : Bool) (notes : List NoticeBody) :
    ShownAlike [] (w.map fun s => s.setAlarm a) ((w.map fun s => s.setAlarm a).alarmPass changed notes) := by
  obtain ⟨-, -, out⟩ := alarmPass_blocks w a changed notes
  have alarm := alarmPass_alarm (w.map fun s => s.setAlarm a) changed notes
  generalize (w.map fun s => s.setAlarm a).alarmPass changed notes = v at out alarm
  have judged : ShownAlike [] (w.map fun s => s.setAlarm a) { st := v.st, out := w.out } := by
    refine ⟨fun k _ => ?_, fun z => ?_, ?_⟩
    · unfold Work.shown Alarm.image; rw [alarm]; rfl
    · unfold Work.pausedShown; rw [alarm]; rfl
    · unfold Work.eqzShown; rw [alarm]; rfl
  refine judged.trans (.of_new (w := { st := v.st, out := w.out }) out rfl fun h mem => ?_)
  split at mem
  · cases mem
  · exact regimePosts_only _ _ _ h mem

/-! ## Taking a hand-over off the list -/

theorem Works.unshown (h : Works K A Z I w) : Works K A Z False w := ⟨h.lawful, h.agreed, h.senses, False.elim⟩

/-- A hand-over that excuses nothing is taken off the list. -/
theorem Works.dropped (h : Works K A Z I { w with out := x :: rest }) (lawful : Lawful K { w with out := rest })
    (availability : ∀ z, x ≠ .availability z) (critical : ∀ z, x ≠ .critical z) (member : ∀ z, x ≠ .member z) (spill : ∀ z, x ≠ .spill z)
    (shown : I → Shown { w with out := rest }) : Works K A Z I { w with out := rest } := by
  have other {y : Handover} (mem : y ∈ x :: rest) (ne : x ≠ y) : y ∈ rest := (List.mem_cons.1 mem).resolve_left (Ne.symm ne)
  have stale (z) : Work.stale { w with out := x :: rest } z → Work.stale { w with out := rest } z :=
    Or.imp (fun m => other m (availability z)) fun m => other m (critical z)
  refine ⟨lawful, fun z => ⟨(h.agreed z).1, ?_⟩, fun p z => ?_, shown⟩
  · obtain ⟨order, listed, shortfall, inactive, carried, held, available, enough⟩ := (h.agreed z).2
    exact ⟨order, listed, shortfall, inactive, carried, fun i mem => (held i mem).imp_right (And.imp_right (stale z)),
      fun i mem => (available i mem).imp_right (stale z), fun active => (enough active).imp_right (stale z)⟩
  · obtain ⟨sensed, spilt, demand⟩ := h.senses p z
    exact ⟨fun a => (sensed a).imp_right fun m => other m (member z), fun a => (spilt a).imp_right fun m => other m (spill z),
      fun a => (demand a).imp_right fun m => other m (critical z)⟩

theorem Shown.dropped (h : Shown { w with out := x :: rest }) (only : x.onlyOf []) : Shown { w with out := rest } :=
  h.same (.of_drop (w := { w with out := x :: rest }) rfl only) rfl rfl rfl rfl rfl

/-! ## The alarm unit takes a hand-over -/

/-- The alarm unit takes a hand-over, and holds then what it brings. -/
theorem Works.takeAlarm (h : Works K A Z I { w with out := x :: rest }) {a : Alarm} (same : a.regime = w.st.alarm.regime) (changed : Bool)
    (notes : List NoticeBody) (x_ : (∃ k image, x = .condition k image) ∨ (∃ z yes, x = .paused z yes) ∨ ∃ active, x = .eqz active)
    (alike : ShownAlike [] { w with out := x :: rest } (({ w with out := rest } : Work).map fun s => s.setAlarm a)) :
    Works K A Z I ((({ w with out := rest } : Work).map fun s => s.setAlarm a).alarmPass changed notes) := by
  have none_ : (∀ z, x ≠ .availability z) ∧ (∀ z, x ≠ .critical z) ∧ (∀ z, x ≠ .member z) ∧ (∀ z, x ≠ .spill z) ∧ x ≠ .toArbiter ∧
      ∀ fell, x ≠ .toFans fell := by
    rcases x_ with ⟨_, _, rfl⟩ | ⟨_, _, rfl⟩ | ⟨_, rfl⟩ <;> exact ⟨nofun, nofun, nofun, nofun, nofun, nofun⟩
  have dropped : Works K A Z False { w with out := rest } :=
    h.unshown.dropped (h.lawful.drop none_.2.2.2.2.1 (none_.2.2.2.2.2 _)) none_.1 none_.2.1 none_.2.2.1 none_.2.2.2.1 False.elim
  have passed := alarmPass_passed { w with out := rest } same changed notes
  have blocks := (alarmPass_blocks { w with out := rest } a changed notes).1
  have works := dropped.passed passed blocks.chans blocks.probes (dropped.lawful.passed same changed notes) False.elim
  have after := alike.trans (alarmPass_alike { w with out := rest } a changed notes)
  refine ⟨works.lawful, works.agreed, works.senses, fun p => ?_⟩
  have eqz : ((({ w with out := rest } : Work).map fun s => s.setAlarm a).alarmPass changed notes).st.eqz = w.st.eqz :=
    (calm_alarmPass _ changed notes).keeps.eqz
  exact (h.shown p).same after blocks.zones blocks.chans blocks.probes blocks.fans (congrArg Conditioner.debounced eqz)

theorem Works.takeCondition (k : Fin 82) (image : Image) (h : Works K A Z I { w with out := .condition k image :: rest }) :
    Works K A Z I (({ w with out := rest } : Work).takeCondition k image) := by
  obtain ⟨changed, notes, e⟩ := takeCondition_eq { w with out := rest } k image
  rw [e]
  refine h.takeAlarm (a := w.st.alarm.taken k image w.st.room) rfl changed notes (.inl ⟨k, image, rfl⟩) ⟨fun j _ => ?_, fun z => rfl, rfl⟩
  unfold Work.shown
  change List.foldl _ ((w.st.alarm.taken k image w.st.room).image j) rest = _
  rw [Alarm.taken_image]
  rfl

theorem Works.takePaused (y : Fin 6) (yes : Bool) (h : Works K A Z I { w with out := .paused y yes :: rest }) :
    Works K A Z I (({ w with out := rest } : Work).takePaused y yes) := by
  refine h.takeAlarm (a := { w.st.alarm with paused := vset w.st.alarm.paused y yes }) rfl false [] (.inr (.inl ⟨y, yes, rfl⟩))
    ⟨fun j _ => rfl, fun z => ?_, rfl⟩
  unfold Work.pausedShown
  change latest _ rest (vget (vset w.st.alarm.paused y yes) z) = latest _ rest ((if y = z then some yes else none).getD (vget w.st.alarm.paused z))
  rw [vget_vset]
  split <;> rfl

theorem Works.takeEqz (active : Bool) (h : Works K A Z I { w with out := .eqz active :: rest }) :
    Works K A Z I (({ w with out := rest } : Work).takeEqz active) :=
  h.takeAlarm (a := { w.st.alarm with eqz := active }) rfl false [] (.inr (.inr ⟨active, rfl⟩)) ⟨fun _ _ => rfl, fun _ => rfl, rfl⟩

end

end Sys2Proof.Machine
end

section
/-! Every hand-over keeps the agreement of the blocks (continued): the zones, the arbiter, the fans and the trace. -/

namespace Sys2Proof.Machine

section
variable {K : Aims} {A : Fin 6 → Bool} {Z I : Prop} {P : Fin 8 → Fin 6 → Prop} {u v w : Work} {z : Fin 6} {x : Handover}
  {rest : List Handover}

/-! ## A zone's hand-over is taken off the list -/

/-- Another hand-over of another zone is no excuse that a zone needs. -/
theorem Work.Agrees.less {y : Fin 6} (h : Work.Agrees { w with out := x :: rest } y) (availability : x ≠ .availability y)
    (critical : x ≠ .critical y) : Work.Agrees { w with out := rest } y := by
  have stale : Work.stale { w with out := x :: rest } y → Work.stale { w with out := rest } y :=
    Or.imp (fun m => (List.mem_cons.1 m).resolve_left (Ne.symm availability)) fun m => (List.mem_cons.1 m).resolve_left (Ne.symm critical)
  obtain ⟨order, listed, shortfall, inactive, carried, held, available, enough⟩ := h
  exact ⟨order, listed, shortfall, inactive, carried, fun i mem => (held i mem).imp_right (And.imp_right stale),
    fun i mem => (available i mem).imp_right stale, fun active => (enough active).imp_right stale⟩

theorem Work.Senses.less {y : Fin 6} (h : Work.Senses { w with out := x :: rest } y) (member : x ≠ .member y) (spill : x ≠ .spill y)
    (critical : x ≠ .critical y) : Work.Senses { w with out := rest } y := by
  obtain ⟨sensed, spilt, demand⟩ := h
  exact ⟨fun a => (sensed a).imp_right fun m => (List.mem_cons.1 m).resolve_left (Ne.symm member),
    fun a => (spilt a).imp_right fun m => (List.mem_cons.1 m).resolve_left (Ne.symm spill),
    fun a => (demand a).imp_right fun m => (List.mem_cons.1 m).resolve_left (Ne.symm critical)⟩

/-- An inactive zone needs no excuse. -/
theorem Work.Agrees.resting (h : Work.Agrees { w with out := x :: rest } z) (off : (w.st.zone z).active = false) :
    Work.Agrees { w with out := rest } z := by
  obtain ⟨order, listed, shortfall, inactive, carried, -, -, -⟩ := h
  have none_ : (w.st.zone z).claims = [] := by rw [inactive off]; rfl
  have empty {p : Fin 8 → Prop} : ∀ i ∈ (w.st.zone z).claims, p i := fun i mem => by rw [none_] at mem; cases mem
  exact ⟨order, listed, shortfall, inactive, carried, empty, empty, fun active => absurd (off.symm.trans active) nofun⟩

/-- A zone's hand-over. -/
def Handover.forZone (z : Fin 6) : Handover → Prop
  | .member y => y = z | .spill y => y = z | .critical y => y = z | .availability y => y = z | .coupling y _ => y = z
  | .condition .. => False | .paused .. => False | .eqz _ => False | .toArbiter => False | .toFans _ => False | .completion _ => False

theorem Handover.forZone.ne {y : Fin 6} (h : x.forZone z) (ne : y ≠ z) :
    x ≠ .availability y ∧ x ≠ .critical y ∧ x ≠ .member y ∧ x ≠ .spill y := by
  refine ⟨?_, ?_, ?_, ?_⟩ <;> (rintro rfl; exact ne h)

theorem Handover.forZone.onlyOf (h : x.forZone z) : x.onlyOf [] := by
  cases x <;> first | exact h.elim | trivial

theorem Handover.forZone.drop (h : x.forZone z) (lawful : Lawful K { w with out := x :: rest }) : Lawful K { w with out := rest } :=
  lawful.drop (by rintro rfl; exact h) (by rintro rfl; exact h)

/-- The zone for which a hand-over was takes it. -/
theorem Works.forZone (h : Works K A Z I { w with out := x :: rest }) (own : x.forZone z) (active : (w.st.zone z).active = true) :
    WorksBut K A Z I z { w with out := rest } where
  lawful := own.drop h.lawful
  active y := (h.agreed y).1
  allocable := by
    obtain ⟨on, order, listed, carried, held⟩ := (h.agreed z).2.allocable active
    exact ⟨on, order, listed, carried, held⟩
  agrees y ne := (h.agreed y).2.less (own.ne ne).1 (own.ne ne).2.1
  senses p y ne := (h.senses p y).less (own.ne ne).2.2.1 (own.ne ne).2.2.2 (own.ne ne).2.1
  shown p := (h.shown p).dropped own.onlyOf

/-- An inactive zone passes its hand-over by. -/
theorem Works.passedBy (h : Works K A Z I { w with out := x :: rest }) (own : x.forZone z) (off : (w.st.zone z).active = false) :
    Works K A Z I { w with out := rest } where
  lawful := own.drop h.lawful
  agreed y := by
    refine ⟨(h.agreed y).1, ?_⟩
    by_cases e : y = z
    · subst e; exact (h.agreed y).2.resting off
    · exact (h.agreed y).2.less (own.ne e).1 (own.ne e).2.1
  senses p y := by
    by_cases e : y = z
    · subst e
      exact ⟨fun a => absurd (off.symm.trans a) nofun, fun a => absurd (off.symm.trans a) nofun, fun a => absurd (off.symm.trans a) nofun⟩
    · exact (h.senses p y).less (own.ne e).2.2.1 (own.ne e).2.2.2 (own.ne e).2.1
  shown p := (h.shown p).dropped own.onlyOf

theorem Works.ifActive (h : Works K A Z I { w with out := x :: rest }) (own : x.forZone z) {f : Work → Work}
    (step : (w.st.zone z).active = true → WorksBut K A Z I z { w with out := rest } → Works K A Z I (f { w with out := rest })) :
    Works K A Z I (({ w with out := rest } : Work).ifActive z f) := by
  unfold Work.ifActive
  split
  · rename_i active
    exact step active (h.forZone own active)
  · rename_i off
    exact h.passedBy own (Bool.eq_false_iff.2 off)

/-! ## Each zone's hand-over -/

/-- The excuses of the own zone that are left. -/
theorem Work.Senses.spiltLess (h : Work.Senses { w with out := x :: rest } z) (active : (w.st.zone z).active = true) (ne : x ≠ .spill z) :
    (w.st.zone z).spill = w.st.spillIn z ∨ .spill z ∈ rest :=
  (h.spilt active).imp_right fun m => (List.mem_cons.1 m).resolve_left (Ne.symm ne)

theorem Work.Senses.sensedLess (h : Work.Senses { w with out := x :: rest } z) (active : (w.st.zone z).active = true) (ne : x ≠ .member z) :
    ((w.st.zone z).sight = (w.st.sense z).sight ∧ (w.st.zone z).voted = (w.st.sense z).voted) ∨ .member z ∈ rest :=
  (h.sensed active).imp_right fun m => (List.mem_cons.1 m).resolve_left (Ne.symm ne)

theorem Works.takeMember (h : Works K A Z I { w with out := .member z :: rest }) :
    Works K A Z I (({ w with out := rest } : Work).ifActive z fun w => w.evaluateSight z) :=
  h.ifActive rfl fun active but => but.evaluateSight ((h.agreed z).2.less nofun nofun) fun p => (h.senses p z).spiltLess active nofun

theorem Works.takeCritical (h : Works K A Z I { w with out := .critical z :: rest }) :
    Works K A Z I (({ w with out := rest } : Work).ifActive z fun w => w.evaluateDemand z (w.st.zone z) true) :=
  h.ifActive rfl fun active but => but.evaluateDemand nofun active rfl rfl rfl rfl
    (fun p => (h.senses p z).sensedLess active nofun) fun p => (h.senses p z).spiltLess active nofun

theorem Works.takeAvailability (h : Works K A Z I { w with out := .availability z :: rest }) :
    Works K A Z I (({ w with out := rest } : Work).ifActive z fun w => w.evaluateAllocation z (w.st.zone z)) :=
  h.ifActive rfl fun active but => but.evaluateAllocation (fun p => (h.senses p z).less nofun nofun nofun) active
    but.allocable.order but.allocable.listed (fun _ => Iff.rfl) rfl

theorem couple_rest (r : Zone) (active : Bool) (clock : Nat) :
    ∃ c t, r.couple active clock = { r with coupling := c, lingerTimer := t } := by
  unfold Zone.couple
  split
  · exact ⟨_, _, rfl⟩
  · split
    · exact ⟨_, _, rfl⟩
    · exact ⟨r.coupling, _, rfl⟩

theorem Zone.demandUnder_congr {q r : Zone} (gas : q.gas = r.gas) (sight : q.sight = r.sight) (cfg : q.cfg = r.cfg)
    (coupling : q.coupling = r.coupling) (spill : q.spill = r.spill) (regime : Regime) : q.demandUnder regime = r.demandUnder regime := by
  unfold Zone.demandUnder
  rw [gas, sight, cfg, coupling, spill]

/-- A write of the linger timer. -/
theorem Works.relinger (h : Works K A Z I w) (active : (w.st.zone z).active = true) (t : Option Nat) :
    Works K A Z I (w.map fun s => s.setZone z { w.st.zone z with lingerTimer := t }) := by
  have zone := setZone_zone_own w z { w.st.zone z with lingerTimer := t }
  have other {y : Fin 6} (ne : y ≠ z) := setZone_zone_other w ne { w.st.zone z with lingerTimer := t }
  have within : Within w.st (w.map fun s => s.setZone z { w.st.zone z with lingerTimer := t }).st := within_setZone ..
  refine ⟨h.lawful.setZone z _, fun y => ?_, fun p y => ?_, fun p => ?_⟩
  · by_cases e : y = z
    · subst e
      exact ⟨by rw [zone]; exact (h.agreed y).1, (h.agreed y).2.written active active rfl rfl rfl rfl⟩
    · exact ⟨by rw [other e]; exact (h.agreed y).1, (h.agreed y).2.beside e _⟩
  · by_cases e : y = z
    · subst e
      obtain ⟨sensed, spilt, demand⟩ := h.senses p y
      obtain ⟨sight, voted⟩ := sensed_congr (s := w.st) (t := (w.map fun s => s.setZone y { w.st.zone y with lingerTimer := t }).st) (z := y)
        (by rw [zone]) rfl
      refine ⟨?_, ?_, ?_⟩ <;> rw [zone]
      · rw [sight, voted]; exact sensed
      · exact spilt
      · exact demand
    · exact (h.senses p y).within within (other e) fun _ m => m
  · have alike : ShownAlike [] w (w.map fun s => s.setZone z { w.st.zone z with lingerTimer := t }) := .of_same rfl rfl
    obtain ⟨zones, channelFault, channelNote, spill, probeFault, fanFail, flowNote, eqz⟩ := h.shown p
    refine ⟨fun y => ?_, channelFault, channelNote, spill, probeFault, fanFail, flowNote, eqz⟩
    by_cases e : y = z
    · subst e
      rw [zone]
      exact ((zones y).alike alike (by decide) (by decide) (by decide)).congr rfl rfl rfl Iff.rfl
    · rw [other e]
      exact (zones y).alike alike (by decide) (by decide) (by decide)

/-- What is left for a zone that takes a coupling. -/
theorem Works.takeCoupling (y : Fin 6) (on : Bool) (h : Works K A Z I { w with out := .coupling y on :: rest }) :
    Works K A Z I (({ w with out := rest } : Work).ifActive y fun w => w.takeCoupling y on) := by
  refine h.ifActive rfl fun active but => ?_
  have works : Works K A Z I { w with out := rest } :=
    h.dropped (h.lawful.drop nofun nofun) nofun nofun nofun nofun fun p => (h.shown p).dropped trivial
  obtain ⟨c, t, couple⟩ := couple_rest (w.st.zone y) on w.st.clock
  unfold Work.takeCoupling
  dsimp only
  rw [couple]
  split
  · rename_i same
    have back : ({ w.st.zone y with coupling := c, lingerTimer := t } : Zone) = { w.st.zone y with lingerTimer := t } := by
      rw [show c = (w.st.zone y).coupling from same]
    rw [back]
    exact works.relinger active t
  · exact but.evaluateDemand (fun _ => (works.agreed y).2) active rfl rfl rfl rfl
      (fun p => ((works.senses p y).sensed active)) fun p => (works.senses p y).spilt active

theorem Works.takeSpill (h : Works K A Z I { w with out := .spill z :: rest }) :
    Works K A Z I (({ w with out := rest } : Work).ifActive z fun w => w.takeSpill z) := by
  refine h.ifActive rfl fun active but => ?_
  have agrees : Work.Agrees { w with out := rest } z := (h.agreed z).2.less nofun nofun
  unfold Work.takeSpill
  dsimp only
  split
  · rename_i same
    refine ⟨but.lawful, fun y => ⟨but.active y, ?_⟩, fun p y => ?_, but.shown⟩
    · by_cases e : y = z
      · subst e; exact agrees
      · exact but.agrees y e
    · by_cases e : y = z
      · subst e
        obtain ⟨sensed, -, demand⟩ := h.senses p y
        exact ⟨fun a => (h.senses p y).sensedLess a nofun, fun _ => .inl same.symm,
          fun a => (demand a).imp_right fun m => (List.mem_cons.1 m).resolve_left fun e : Handover.critical y = .spill y => nomatch e⟩
      · exact but.senses p y e
  · exact but.evaluateDemand (fun _ => agrees) active rfl rfl rfl rfl
      (fun p => (h.senses p z).sensedLess active nofun) fun _ => .inl rfl

/-! ## The arbiter, the fans and the trace -/

/-- The same laws, without what is to be done at once. -/
def Aims.unhurried (K : Aims) : Aims := { K with prompt := False }

theorem Lawful.unhurried (h : Lawful K { w with out := x :: rest }) : Lawful K.unhurried { w with out := rest } := by
  refine ⟨⟨fun i => ?_, h.1.failsafe, fun b => (h.1.budget b).congr rfl rfl rfl, False.elim⟩, False.elim⟩
  obtain ⟨output, waiting, unarmed, absent, managed, unclaimed, claimed, stopping⟩ := h.1.fits i
  exact ⟨output, waiting, unarmed, absent, managed, unclaimed, claimed, stopping⟩

/-- A hand-over to the arbiter or to the fans. -/
theorem Works.takeTurn (h : Works K A Z I { w with out := x :: rest }) (availability : ∀ z, x ≠ .availability z)
    (critical : ∀ z, x ≠ .critical z) (member : ∀ z, x ≠ .member z) (spill : ∀ z, x ≠ .spill z) (only : x.onlyOf [])
    (turn : FansTurn (fun _ _ => False) { w with out := rest } v) (lawful : Lawful K v) : Works K A Z I v := by
  have less (y) : Work.Agrees { w with out := rest } y := (h.agreed y).2.less (availability y) (critical y)
  refine ⟨lawful, fun y => ⟨by rw [turn.zone]; exact (h.agreed y).1, (less y).turn turn fun _ => id⟩,
    fun p y => ((h.senses p y).less (member y) (spill y) (critical y)).within turn.within (turn.zone y) turn.grown,
    fun p => ((h.shown p).dropped only).turn turn⟩

theorem buildTrace_st (s : State) (i : Fin 16) : ∃ l, s.buildTrace i = s.setLink l := by
  unfold State.buildTrace
  split
  · exact ⟨_, rfl⟩
  · exact ⟨s.link, rfl⟩

/-- A change of the link alone. -/
theorem Works.linked (h : Works K A Z I w) {l : Link} (st : v.st = w.st.setLink l) (out : v.out = w.out) : Works K A Z I v := by
  have grown : ∀ x ∈ w.out, x ∈ v.out := by rw [out]; exact fun _ m => m
  refine ⟨h.lawful.same (by rw [st]; rfl) (by rw [st]; rfl) (by rw [st]; rfl) (by rw [st]; rfl) grown,
    fun z => ⟨by rw [st]; exact (h.agreed z).1, (h.agreed z).2.later st grown⟩, fun p z => (h.senses p z).later st grown,
    fun p => (h.shown p).same (.of_same out (by rw [st]; rfl)) (by rw [st]; rfl) (by rw [st]; rfl) (by rw [st]; rfl) (by rw [st]; rfl) (by rw [st]; rfl)⟩

theorem Works.take (h : Works K A Z I { w with out := x :: rest }) : Works K A Z I (({ w with out := rest } : Work).take x) := by
  cases x with
  | condition k image => exact h.takeCondition
  | paused y yes => exact h.takePaused
  | eqz active => exact h.takeEqz
  | member y => exact h.takeMember
  | coupling y active => exact h.takeCoupling
  | spill y => exact h.takeSpill
  | critical y => exact h.takeCritical
  | availability y => exact h.takeAvailability
  | toArbiter =>
    exact h.takeTurn nofun nofun nofun nofun trivial (fturn_consider _ h.asked) h.lawful.take
  | toFans fell => exact h.takeTurn nofun nofun nofun nofun trivial (fturn_takeFans _ fell h.asked) h.lawful.take
  | completion i =>
    have works : Works K A Z I { w with out := rest } :=
      h.dropped (h.lawful.drop nofun nofun) nofun nofun nofun nofun fun p => (h.shown p).dropped trivial
    obtain ⟨l, st⟩ := buildTrace_st w.st i
    exact works.linked (v := ({ w with out := rest } : Work).map fun s => s.buildTrace i) st rfl

theorem Works.settle (h : Works K A Z I w) (fuel : Nat) : Works K A Z I (w.settle fuel) := by
  induction fuel generalizing w with
  | zero => exact h
  | succ fuel ih =>
    unfold Work.settle
    split
    · exact h
    · rename_i x rest e
      refine ih (Works.take (w := w) ?_)
      rw [← e]
      exact h

end

end Sys2Proof.Machine
end

section
/-! The agreement of the blocks through every effect on the fans and the arbiter. -/

namespace Sys2Proof.Machine

/-! ## The agreement at the end of a step -/

/-- Whether a zone is to be active: it is used, and the part ARMED (R43, R65, R66). -/
def State.inUse (s : State) (z : Fin 6) : Bool := s.setup.armed && s.used z

/-- The agreement of the blocks at the end of a step, when every hand-over has been taken. -/
def Holds (K : Aims) (Z I : Prop) (s : State) : Prop := Works K s.inUse Z I s.begin

section
variable {K : Aims} {A : Fin 6 → Bool} {Z I : Prop} {s t : State} {u v w : Work} {z : Fin 6} {i : Fin 8}
  {P : Fin 8 → Fin 6 → Prop}

theorem inUse_congr (armed : t.setup.armed = s.setup.armed) (members : ∀ i, (t.chan i).memberOf = (s.chan i).memberOf) :
    t.inUse = s.inUse := by
  funext z
  unfold State.inUse State.used State.members
  simp only [armed, members]

theorem does_begin {f : Work → Work} (idle : ((f s.begin).settle settleLimit).out = []) :
    (s.does f).begin = (f s.begin).settle settleLimit := by
  change ({ st := ((f s.begin).settle settleLimit).st, out := [] } : Work) = _
  rw [← idle]

/-- Work whose hand-overs are all taken. -/
theorem Works.doesIn {f : Work → Work} (h : Works K A Z I (f s.begin)) (idle : ((f s.begin).settle settleLimit).out = [])
    (inUse : (f s.begin).st.inUse = A) : Holds K Z I (s.does f) := by
  have keeps := settle_keeps settleLimit (f s.begin)
  have same : (s.does f).inUse = A := by
    refine (inUse_congr ?_ fun i => ?_).trans inUse
    · exact congrArg Setup.armed keeps.setup
    · exact congrArg (fun c => (vget c i).memberOf) keeps.chans
  unfold Holds
  rw [same, does_begin idle]
  exact h.settle settleLimit

theorem Works.does {f : Work → Work} (h : Works K s.inUse Z I (f s.begin)) (idle : ((f s.begin).settle settleLimit).out = [])
    (setup : (f s.begin).st.setup.armed = s.setup.armed) (members : ∀ i, ((f s.begin).st.chan i).memberOf = (s.chan i).memberOf) :
    Holds K Z I (s.does f) := h.doesIn idle (inUse_congr setup members)

/-- Work that reaches neither a channel nor the part state. -/
theorem Works.doesWithin {f : Work → Work} (h : Works K s.inUse Z I (f s.begin)) (idle : ((f s.begin).settle settleLimit).out = [])
    (within : Within s (f s.begin).st) : Holds K Z I (s.does f) :=
  h.does idle (by rw [within.setup]) fun i => by unfold State.chan; rw [within.chans]

/-- Work of the fans that changes no zone's claim. -/
theorem Holds.turn {f : Work → Work} (h : Holds K Z I s) (turn : FansTurn P s.begin (f s.begin)) (off : ∀ i z, ¬P i z)
    (lawful : Lawful K (f s.begin)) (idle : ((f s.begin).settle settleLimit).out = []) : Holds K Z I (s.does f) :=
  (Works.turn h turn off lawful).doesWithin idle turn.within

/-! ## A fan comes to another state -/

/-- Work at one fan, whose zones are told where its availability changes, and whose conditions are handed over where they change. -/
structure FanMoved (i : Fin 8) (w v : Work) : Prop where
  at_ : AtFan i w v
  told : (v.st.fan i).available w.st.alarm.regime = (w.st.fan i).available w.st.alarm.regime ∨
    ∀ z ∈ w.st.zonesUsing i, .availability z ∈ v.out
  alike : ShownAlike [.fanFail, .flowNote] w v
  other : ∀ j, j ≠ i → v.shown (keyFanFail j) = w.shown (keyFanFail j) ∧ v.shown (keyFlowNote j) = w.shown (keyFlowNote j)
  fail : w.shown (keyFanFail i) = (w.st.fan i).failShown → v.shown (keyFanFail i) = (v.st.fan i).failShown
  note : w.shown (keyFlowNote i) = (w.st.fan i).noteShown → v.shown (keyFlowNote i) = (v.st.fan i).noteShown

theorem key_fanFail_inj {i j : Fin 8} (h : keyFanFail i = keyFanFail j) : i = j := by revert i j; decide

theorem key_fail_ne_note (i j : Fin 8) : keyFanFail i ≠ keyFlowNote j :=
  key_ne_of_class (by rw [classOf_keyFanFail, classOf_keyFlowNote]; decide)

/-- The availability that a fan's new record hands over. -/
def Work.availabilities (w : Work) (i : Fin 8) (f : Fan) : List Handover :=
  if (w.st.fan i).available w.st.alarm.regime = f.available w.st.alarm.regime then []
  else (inOpenOrder w.st.choices (w.st.zonesUsing i)).map .availability

theorem availabilities_spare (w : Work) (i : Fin 8) (f : Fan) (k : Fin 82) : ∀ h ∈ w.availabilities i f, h.spares k := by
  intro h mem image e
  unfold Work.availabilities at mem
  split at mem
  · cases mem
  · obtain ⟨z, -, rfl⟩ := List.mem_map.1 mem
    cases e

/-- FAN FAIL and FLOW NOTE as a fan's new record hands them over. -/
def Fan.failHanded (before after : Fan) (i : Fin 8) : List Handover :=
  if before.failed = after.failed then [] else [.condition (keyFanFail i) after.failShown]

def Fan.noteHanded (before after : Fan) (i : Fin 8) : List Handover :=
  if before.flowNote = after.flowNote then [] else [.condition (keyFlowNote i) after.noteShown]

theorem failHanded_spare {before after : Fan} {i : Fin 8} {k : Fin 82} (ne : keyFanFail i ≠ k) : ∀ h ∈ before.failHanded after i, h.spares k := by
  intro h mem
  unfold Fan.failHanded at mem
  split at mem
  · cases mem
  · rw [List.mem_singleton.1 mem]; exact spares_of_key ne

theorem noteHanded_spare {before after : Fan} {i : Fin 8} {k : Fin 82} (ne : keyFlowNote i ≠ k) : ∀ h ∈ before.noteHanded after i, h.spares k := by
  intro h mem
  unfold Fan.noteHanded at mem
  split at mem
  · cases mem
  · rw [List.mem_singleton.1 mem]; exact spares_of_key ne

theorem spares_append {k : Fin 82} {xs ys : List Handover} (a : ∀ h ∈ xs, h.spares k) (b : ∀ h ∈ ys, h.spares k) :
    ∀ h ∈ xs ++ ys, h.spares k := fun h mem => (List.mem_append.1 mem).elim (a h) (b h)

theorem moveFan_handed (w : Work) (i : Fin 8) (f : Fan) : (w.moveFan i f).out =
    w.out ++ ((w.st.fan i).failHanded f i ++ ((w.st.fan i).noteHanded f i ++ w.availabilities i f)) := by
  rw [moveFan_out, List.append_assoc, ← List.append_assoc ((w.st.fan i).failHanded f i)]
  rfl

theorem moved_only (w : Work) (i : Fin 8) (f : Fan) :
    ∀ h ∈ (w.st.fan i).failHanded f i ++ ((w.st.fan i).noteHanded f i ++ w.availabilities i f), h.onlyOf [.fanFail, .flowNote] := by
  intro h mem
  rcases List.mem_append.1 mem with mem | mem
  · unfold Fan.failHanded at mem
    split at mem
    · cases mem
    · rw [List.mem_singleton.1 mem]
      change classOf (keyFanFail i) ∈ _
      rw [classOf_keyFanFail]; decide
  rcases List.mem_append.1 mem with mem | mem
  · unfold Fan.noteHanded at mem
    split at mem
    · cases mem
    · rw [List.mem_singleton.1 mem]
      change classOf (keyFlowNote i) ∈ _
      rw [classOf_keyFlowNote]; decide
  · unfold Work.availabilities at mem
    split at mem
    · cases mem
    · obtain ⟨z, -, rfl⟩ := List.mem_map.1 mem
      trivial

theorem FanMoved.of_moveFan {f : Fan} (cfg : f.cfg = (w.st.fan i).cfg)
    (detail : f.failed = true → (w.st.fan i).failed = true → f.lastFault = (w.st.fan i).lastFault) : FanMoved i w (w.moveFan i f) := by
  have a : AtFan i w (w.moveFan i f) := atFan_moveFan w i cfg
  have fan := moveFan_fan w i f
  have out := moveFan_handed w i f
  have alarm := a.within.alarm
  refine ⟨a, ?_, .of_new out alarm (moved_only w i f), fun j ne => ⟨?_, ?_⟩, fun shown => ?_, fun shown => ?_⟩
  · rw [fan]
    by_cases same : (w.st.fan i).available w.st.alarm.regime = f.available w.st.alarm.regime
    · exact .inl same.symm
    · refine .inr fun z mem => ?_
      rw [out]
      refine List.mem_append_right _ (List.mem_append_right _ (List.mem_append_right _ ?_))
      unfold Work.availabilities
      rw [if_neg same]
      exact availability_mem mem
  · exact shown_spared out alarm (spares_append (failHanded_spare fun e => ne (key_fanFail_inj e).symm)
      (spares_append (noteHanded_spare (key_fail_ne_note j i).symm) (availabilities_spare w i f _)))
  · exact shown_spared out alarm (spares_append (failHanded_spare (key_fail_ne_note i j))
      (spares_append (noteHanded_spare fun e => ne (key_flowNote_inj e).symm) (availabilities_spare w i f _)))
  · rw [fan]
    have later : ∀ h ∈ (w.st.fan i).noteHanded f i ++ w.availabilities i f, h.spares (keyFanFail i) :=
      spares_append (noteHanded_spare (key_fail_ne_note i i).symm) (availabilities_spare w i f _)
    unfold Fan.failHanded at out
    by_cases same : (w.st.fan i).failed = f.failed
    · rw [if_pos same, List.nil_append] at out
      rw [shown_spared out alarm later, shown]
      change (w.st.fan i).failShown = f.failShown
      unfold Fan.failShown Fan.failImage
      rw [same]
      split
      · rename_i failed
        rw [detail failed (same.trans failed)]
      · rfl
    · rw [if_neg same] at out
      exact shown_posted (new := []) out alarm later
  · rw [fan]
    have earlier : ∀ h ∈ (w.st.fan i).failHanded f i, h.spares (keyFlowNote i) := failHanded_spare (key_fail_ne_note i i)
    unfold Fan.noteHanded at out
    by_cases same : (w.st.fan i).flowNote = f.flowNote
    · rw [if_pos same, List.nil_append] at out
      rw [shown_spared out alarm (spares_append earlier (availabilities_spare w i f _)), shown]
      change (w.st.fan i).noteShown = f.noteShown
      unfold Fan.noteShown
      rw [same]
    · rw [if_neg same] at out
      exact shown_posted out alarm (availabilities_spare w i f _)

/-! ## What a fan's new state leaves -/

/-- A fan that comes to a state without claims, or had none, leaves what agrees. -/
theorem Work.Agrees.moved (h : w.Agrees z) (idle : w.out = []) (m : FanMoved i w v)
    (claims : (v.st.fan i).claims = (w.st.fan i).claims ∨ ((v.st.fan i).takesClaims = false ∧ (v.st.fan i).claims = .empty)) : v.Agrees z := by
  have zone : v.st.zone z = w.st.zone z := by unfold State.zone; rw [m.at_.zones]
  have fresh : ¬w.stale z := by unfold Work.stale; rw [idle]; exact fun s => s.elim nofun nofun
  have others (j) (ne : j ≠ i) : v.st.fan j = w.st.fan j := (m.at_.others j ne).1
  have avails (active : (w.st.zone z).active = true) : (∀ j ∈ (w.st.zone z).cfg.order, v.avails j = w.avails j) ∨ v.stale z := by
    by_cases told : v.stale z
    · exact .inr told
    · refine .inl fun j mem => ?_
      unfold Work.avails
      rw [m.at_.within.alarm]
      by_cases e : j = i
      · subst e
        exact m.told.resolve_right fun t => told (.inl (t z (mem_zonesUsing.2 ⟨active, mem⟩)))
      · rw [others j e]
  refine ⟨?_, ?_, ?_, ?_, ?_, ?_, ?_, ?_⟩ <;> rw [zone]
  · exact h.order
  · exact h.listed
  · exact h.shortfall
  · exact h.inactive
  · intro j carries
    refine h.carried j ?_
    unfold Work.carries at carries ⊢
    by_cases e : j = i
    · subst e
      rcases claims with same | ⟨-, empty⟩
      · rwa [same] at carries
      · rw [empty] at carries
        exact absurd ((empty_has (.zone z)).symm.trans carries) nofun
    · rwa [others j e] at carries
  · intro j mem
    have before := (h.held j mem).resolve_right fun x => fresh x.2
    unfold Work.carries at before ⊢
    by_cases e : j = i
    · subst e
      rcases claims with same | ⟨off, -⟩
      · rw [same]; exact .inl before
      · refine .inr ⟨off, ((avails (h.active_of_claim mem)).resolve_left fun same => ?_)⟩
        have available := (h.available j mem).resolve_right fresh
        rw [← same j (h.listed.subset mem)] at available
        have takes : (v.st.fan j).takesClaims = true := takes_of_available available
        rw [off] at takes
        cases takes
    · rw [others j e]; exact .inl before
  · intro j mem
    rcases avails (h.active_of_claim mem) with same | stale
    · rw [same j (h.listed.subset mem)]; exact .inl ((h.available j mem).resolve_right fresh)
    · exact .inr stale
  · intro active
    rcases avails active with same | stale
    · rw [List.filter_congr same]; exact .inl ((h.enough active).resolve_right fresh)
    · exact .inr stale

/-- The images of every block go with a fan that comes to another state. -/
theorem Shown.moved (h : Shown w) (m : FanMoved i w v) : Shown v := by
  have alike := m.alike
  have within := m.at_.within
  have zone (z) : v.st.zone z = w.st.zone z := by unfold State.zone; rw [m.at_.zones]
  have chan (i) : v.st.chan i = w.st.chan i := by unfold State.chan; rw [within.chans]
  have probe (p) : v.st.probe p = w.st.probe p := by unfold State.probe; rw [within.probes]
  refine ⟨fun z => ?_, fun j => ?_, fun j => ?_, fun p => ?_, fun p => ?_, fun j => ?_, fun j => ?_, ?_⟩
  · rw [zone]; exact (h.zone z).alike alike (by decide) (by decide) (by decide)
  · rw [chan, alike.image _ (by rw [classOf_keyChannelFault]; decide), h.channelFault]
  · rw [chan, alike.image _ (by rw [classOf_keyChannelNote]; decide), h.channelNote]
  · rw [probe, alike.image _ (by rw [classOf_keySpill]; decide), h.spill]
  · rw [probe, alike.image _ (by rw [classOf_keyProbeFault]; decide), h.probeFault]
  · by_cases e : j = i
    · subst e; exact m.fail (h.fanFail j)
    · rw [(m.other j e).1, (m.at_.others j e).1]; exact h.fanFail j
  · by_cases e : j = i
    · subst e; exact m.note (h.flowNote j)
    · rw [(m.other j e).2, (m.at_.others j e).1]; exact h.flowNote j
  · rw [alike.eqz, h.eqz, within.eqz]

/-- A fan comes to another state, and more work of the fans follows. -/
theorem Works.moved (h : Works K A Z I w) (idle : w.out = []) (m : FanMoved i w v)
    (claims : (v.st.fan i).claims = (w.st.fan i).claims ∨ ((v.st.fan i).takesClaims = false ∧ (v.st.fan i).claims = .empty))
    (turn : FansTurn (fun _ _ => False) v u) (lawful : Lawful K u) : Works K A Z I u := by
  have zone (z) : v.st.zone z = w.st.zone z := by unfold State.zone; rw [m.at_.zones]
  refine ⟨lawful, fun z => ⟨?_, ((h.agreed z).2.moved idle m claims).turn turn fun _ => id⟩, fun p z => ?_, fun p => ((h.shown p).moved m).turn turn⟩
  · rw [turn.zone, zone]; exact (h.agreed z).1
  · exact ((h.senses p z).within m.at_.within (zone z) m.at_.grown).within turn.within (turn.zone z) turn.grown

theorem Holds.moved {f : Work → Work} (h : Holds K Z I s) (m : FanMoved i s.begin v)
    (claims : (v.st.fan i).claims = (s.fan i).claims ∨ ((v.st.fan i).takesClaims = false ∧ (v.st.fan i).claims = .empty))
    (turn : FansTurn (fun _ _ => False) v (f s.begin)) (lawful : Lawful K (f s.begin))
    (idle : ((f s.begin).settle settleLimit).out = []) : Holds K Z I (s.does f) :=
  (Works.moved h rfl m claims turn lawful).doesWithin idle (m.at_.within.trans turn.within)

/-! ## Each effect on a fan -/

theorem Holds.lockFan (h : Holds K Z I s) (m : (s.fan i).state ≠ .unmanaged) : Holds K Z I (s.does fun w => w.lockFan i) := by
  have fan : ((s.begin.moveFan i ((s.fan i).lockedByHand s.clock)).st.fan i) =
    ((s.fan i).lockedByHand s.clock).remeasure (s.fan i) s.clock := moveFan_fan ..
  refine Holds.moved h (v := s.begin.moveFan i ((s.fan i).lockedByHand s.clock)) (.of_moveFan rfl nofun) (.inr ?_)
    (fturn_leaveWaiting _ i) (h.lawful.lockFan m) ((posts_lockFan _ i).done rfl (by decide))
  rw [fan]
  exact ⟨rfl, rfl⟩

theorem Holds.faulted (h : Holds K Z I s) (state : (s.fan i).state = .proving ∨ (s.fan i).state = .running) (detail : FanFault) :
    Holds K Z I (s.does fun w => w.moveFan i ((s.fan i).faulted s.clock detail)) := by
  have fan := moveFan_fan s.begin i ((s.fan i).faulted s.clock detail)
  refine Holds.moved h (v := s.begin.moveFan i ((s.fan i).faulted s.clock detail)) (.of_moveFan rfl fun _ failed => ?_) (.inr ?_) (.refl _ _) (h.lawful.faulted state detail s.clock)
    ((posts_moveFan _ i _).done rfl (by decide))
  · change (s.fan i).failed = true at failed
    unfold Fan.failed at failed
    rcases state with x | x <;> rw [x] at failed <;> cases failed
  · rw [fan]; exact ⟨rfl, rfl⟩

/-- A fan in FAULT or LOCKOUT comes to a state that takes claims, and its owed exercise may be tested. -/
theorem Holds.freed {f : Fan} {g : Work → Work} (h : Holds K Z I s) (off : (s.fan i).takesClaims = false) (cfg : f.cfg = (s.fan i).cfg)
    (takes : f.takesClaims = true) (claims : f.claims = (s.fan i).claims)
    (turn : Asked (s.begin.moveFan i f) → FansTurn (fun _ _ => False) (s.begin.moveFan i f) (g s.begin)) (lawful : Lawful K (g s.begin))
    (idle : ((g s.begin).settle settleLimit).out = []) : Holds K Z I (s.does g) := by
  have fan := moveFan_fan s.begin i f
  refine Holds.moved h (.of_moveFan cfg fun failed => ?_) (.inl ?_) (turn fun j asked => ?_) lawful idle
  · rw [unfailed_of_takes takes] at failed; cases failed
  · rw [fan]; exact claims
  · rw [moveFan_request] at asked
    have before : (s.fan j).takesClaims = true := h.asked j asked
    by_cases e : j = i
    · subst e; rw [off] at before; cases before
    · rw [((atFan_moveFan s.begin i cfg).others j e).1]; exact before

theorem releaseFan_freed (w : Work) (i : Fin 8) : ∃ f,
    (Asked (w.moveFan i f) → FansTurn (fun _ _ => False) (w.moveFan i f) (w.releaseFan i)) ∧
    f.cfg = (w.st.fan i).cfg ∧ f.takesClaims = true ∧ f.claims = (w.st.fan i).claims := by
  unfold Work.releaseFan
  dsimp only
  split
  · exact ⟨_, fturn_testExercise _ i, rfl, rfl, rfl⟩
  · split
    · exact ⟨_, fturn_testExercise _ i, rfl, rfl, rfl⟩
    · exact ⟨_, fun _ => .refl _ _, rfl, rfl, rfl⟩

theorem Holds.releaseFan (h : Holds K Z I s) (locked : (s.fan i).state.lockedOut = true) :
    Holds K Z I (s.does fun w => w.releaseFan i) := by
  have off : (s.fan i).takesClaims = false := by
    unfold Fan.takesClaims
    cases e : (s.fan i).state with
    | lockout cause => rfl
    | fault => rfl
    | unmanaged => rfl
    | _ => rw [e] at locked; cases locked
  obtain ⟨f, turn, cfg, takes, claims⟩ := releaseFan_freed s.begin i
  exact h.freed off cfg takes claims turn (h.lawful.releaseFan locked) ((posts_releaseFan _ i).done rfl (by decide))

theorem Holds.retryFan (h : Holds K Z I s) (state : (s.fan i).state = .fault) : Holds K Z I (s.does fun w => w.retryFan i) := by
  have off : (s.fan i).takesClaims = false := by unfold Fan.takesClaims; rw [state]
  have lawful : Lawful K (s.begin.retryFan i) := h.lawful.retryFan state
  have idle : ((s.begin.retryFan i).settle settleLimit).out = [] := (posts_retryFan _ i).done rfl (by decide)
  by_cases none_ : (s.fan i).retriesLeft = 0
  · have eq : s.begin.retryFan i = s.begin.moveFan i ((s.fan i).locked s.clock .retries) := if_pos none_
    refine Holds.moved h (v := s.begin.moveFan i ((s.fan i).locked s.clock .retries)) (.of_moveFan rfl fun _ _ => rfl) (.inr ?_) ?_ lawful idle
    · rw [moveFan_fan]; exact ⟨rfl, rfl⟩
    · rw [eq]; exact .refl _ _
  · have eq : s.begin.retryFan i = (s.begin.moveFan i { s.fan i with
        state := .idle, retryTimer := none, retriesLeft := (s.fan i).retriesLeft - 1 }).testExercise i := if_neg none_
    refine h.freed off (f := { s.fan i with state := .idle, retryTimer := none, retriesLeft := (s.fan i).retriesLeft - 1 }) rfl rfl rfl ?_ lawful idle
    rw [eq]
    exact fturn_testExercise _ i

theorem Holds.minRun (h : Holds K Z I s) (unstarted : ¬K.started i) (state : (s.fan i).state = .proving ∨ (s.fan i).state = .running) :
    Holds K Z I (s.does fun w =>
      if (s.fan i).stopPending then
        w.moveFan i ({ s.fan i with minRunTimer := Option.none, minRunElapsed := true }.coasting s.clock)
      else w.moveFan i { s.fan i with minRunTimer := Option.none, minRunElapsed := true }) := by
  have takes : (s.fan i).takesClaims = true := by
    unfold Fan.takesClaims
    rcases state with e | e <;> rw [e]
  refine Holds.turn (P := fun _ _ => False) h (.ite (fun _ => ?_) fun _ => ?_) (fun _ _ => id) (h.lawful.minRunExpiry unstarted state _)
    (Posts.done (n := 14) (.ite (fun _ => posts_moveFan ..) fun _ => posts_moveFan ..) rfl (by decide))
  · exact fturn_claimable _ i rfl takes rfl fun _ _ => rfl
  · exact fturn_rewrite _ i rfl rfl rfl rfl

theorem Holds.coast (h : Holds K Z I s) (state : (s.fan i).state = .coasting) :
    Holds K Z I (s.does fun w => if (s.fan i).claims.none_ then w.enterIdle i else w.enterWaiting i) := by
  have takes : (s.fan i).takesClaims = true := by unfold Fan.takesClaims; rw [state]
  exact Holds.turn (P := fun _ _ => False) h (.ite (fun _ => fturn_enterIdle _ i h.asked takes) fun _ => fturn_enterWaiting _ i h.asked takes)
    (fun _ _ => id) (h.lawful.coastExpiry state)
    (Posts.done (n := 56) (.ite (fun _ => posts_enterIdle ..) fun _ => (posts_enterWaiting ..).le (by decide)) rfl (by decide))

end

end Sys2Proof.Machine
end

section
/-! The agreement of the blocks through the work on a channel and on a probe, and through writes that no block sees. -/

namespace Sys2Proof.Machine

section
variable {K : Aims} {A : Fin 6 → Bool} {Z I : Prop} {s t : State} {u v w : Work} {z : Fin 6} {i : Fin 16} {n : Nat}

/-! ## Channels -/

/-- A zone senses the same where it sees its members alike. -/
theorem sensed_alike (vote : (t.zone z).cfg.vote = (s.zone z).cfg.vote) (members : t.members z = s.members z)
    (alike : ∀ i ∈ s.members z, SeenAlike (s.chan i) (t.chan i)) :
    (t.sense z).sight = (s.sense z).sight ∧ (t.sense z).voted = (s.sense z).voted := by
  have readings : t.healthyReadings z = s.healthyReadings z := by
    unfold State.healthyReadings
    rw [members]
    exact List.filterMap_congr fun i mem => (alike i mem).reads
  have failed : ((t.members z).any fun i => (t.chan i).failed) = (s.members z).any fun i => (s.chan i).failed := by
    rw [members]
    refine Bool.eq_iff_iff.2 ?_
    simp only [List.any_eq_true]
    exact exists_congr fun i => and_congr_right fun mem => by rw [(alike i mem).failed]
  rw [State.sense_sight, State.sense_sight, State.sense_voted, State.sense_voted, vote, readings, failed]
  exact ⟨rfl, rfl⟩

/-- Nothing of the regime, the zones or the fans. -/
theorem Passed.of_same (zones : v.st.zones = w.st.zones) (fans : v.st.fans = w.st.fans) (regime : v.st.alarm.regime = w.st.alarm.regime)
    (grown : ∀ x ∈ w.out, x ∈ v.out) : Passed w v := ⟨zones, fans, grown, .inl (by rw [regime])⟩

theorem channel_keys_inj {i j : Fin 16} (ne : i ≠ j) : keyChannelNote i ≠ keyChannelFault j ∧ keyChannelFault i ≠ keyChannelFault j ∧
    keyChannelNote i ≠ keyChannelNote j ∧ keyChannelFault i ≠ keyChannelNote j := by
  revert i j; decide

/-- The images of every block go with the work on a channel. -/
theorem Shown.onChannel (h : Shown w) (a : OnChannel i w.st v.st) (turn : ChannelTurn i n w v) : Shown v := by
  have alike := turn.shownAlike
  obtain ⟨new, out, -, own⟩ := turn.out
  have other {j : Fin 16} (ne : i ≠ j) : v.shown (keyChannelFault j) = w.shown (keyChannelFault j) ∧
      v.shown (keyChannelNote j) = w.shown (keyChannelNote j) := by
    have keys := channel_keys_inj ne
    constructor <;> refine shown_spared out turn.alarm fun h mem image e => ?_ <;> have from_ := own h mem <;> rw [e] at from_
    · rcases from_ with x | x
      · exact keys.1 x.symm
      · exact keys.2.1 x.symm
    · rcases from_ with x | x
      · exact keys.2.2.1 x.symm
      · exact keys.2.2.2 x.symm
  have zone (z) : v.st.zone z = w.st.zone z := by rw [a.rest]; rfl
  have probe (p) : v.st.probe p = w.st.probe p := by rw [a.rest]; rfl
  have fan (j) : v.st.fan j = w.st.fan j := by rw [a.rest]; rfl
  have eqz : v.st.eqz = w.st.eqz := by rw [a.rest]
  refine ⟨fun z => ?_, fun j => ?_, fun j => ?_, fun p => ?_, fun p => ?_, fun j => ?_, fun j => ?_, by rw [alike.eqz, eqz, h.eqz]⟩
  · rw [zone]; exact (h.zone z).alike alike (by decide) (by decide) (by decide)
  · by_cases e : i = j
    · subst e; exact turn.fault (h.channelFault i)
    · rw [(other e).1, a.chan_ne e]; exact h.channelFault j
  · by_cases e : i = j
    · subst e; exact turn.note (h.channelNote i)
    · rw [(other e).2, a.chan_ne e]; exact h.channelNote j
  · rw [probe, alike.image _ (by rw [classOf_keySpill]; decide), h.spill]
  · rw [probe, alike.image _ (by rw [classOf_keyProbeFault]; decide), h.probeFault]
  · rw [fan, alike.image _ (by rw [classOf_keyFanFail]; decide), h.fanFail]
  · rw [fan, alike.image _ (by rw [classOf_keyFlowNote]; decide), h.flowNote]

theorem onChannel_memberOf (a : OnChannel i w.st v.st) (turn : ChannelTurn i n w v) (j : Fin 16) :
    (v.st.chan j).memberOf = (w.st.chan j).memberOf := by
  by_cases e : i = j
  · subst e; exact turn.member
  · rw [a.chan_ne e]

/-- Work on one channel keeps the agreement. -/
theorem Works.onChannel (h : Works K A Z I w) (a : OnChannel i w.st v.st) (turn : ChannelTurn i n w v) (told : Told i w v) :
    Works K A Z I v := by
  have member := onChannel_memberOf a turn
  have passed : Passed w v := .of_same (by rw [a.rest]) (by rw [a.rest]) (by rw [a.rest]) turn.grown
  refine ⟨h.lawful.onChannel a turn.grown, fun z => ⟨?_, (h.agreed z).2.passed passed⟩, fun p z => ?_, fun p => (h.shown p).onChannel a turn⟩
  · rw [passed.zone]; exact (h.agreed z).1
  refine (h.senses p z).passed passed ?_ (.inl (spillIn_congr (by rw [a.rest]) z))
  have members : v.st.members z = w.st.members z := by unfold State.members; simp only [member]
  have vote : (v.st.zone z).cfg.vote = (w.st.zone z).cfg.vote := by rw [passed.zone]
  by_cases mine : (v.st.chan i).memberOf = some z
  · refine told.imp (fun same => sensed_alike vote members fun j _ => ?_) fun post => post z mine
    by_cases e : i = j
    · subst e; exact same
    · rw [a.chan_ne e]; exact .refl _
  · refine .inl (sensed_alike vote members fun j mem => ?_)
    have e : i ≠ j := by
      rintro rfl
      refine mine ((member i).trans ?_)
      unfold State.members at mem
      exact of_decide_eq_true (List.mem_filter.1 mem).2
    rw [a.chan_ne e]; exact .refl _

theorem Holds.onChannel {f : Work → Work} (h : Holds K Z I s) (a : OnChannel i s (f s.begin).st) (turn : ChannelTurn i n s.begin (f s.begin))
    (told : Told i s.begin (f s.begin)) (small : n ≤ 3848) : Holds K Z I (s.does f) :=
  Works.does (Works.onChannel h a turn told) (turn.posts.done rfl small) (by rw [a.rest]) fun j => onChannel_memberOf (w := s.begin) a turn j

/-- A write to a channel that no zone sees and that shows the same. -/
theorem Holds.setChan (h : Holds K Z I s) {c : Channel} (cfg : c.cfg = (s.chan i).cfg) (state : c.state = (s.chan i).state)
    (reading : c.reading = (s.chan i).reading) (note : c.noteImage = (s.chan i).noteImage) (range : KeepsRange (s.chan i) c) :
    Holds K Z I (s.setChan i c) := by
  have chan : (s.setChan i c).chan i = c := State.setChan_chan_same ..
  have a : OnChannel i s (s.setChan i c) := by
    refine ⟨?_, .refl _, by rw [chan, cfg], by rw [chan]; exact range⟩
    rw [chan]
    rfl
  have turn : ChannelTurn i 0 s.begin (s.setChan i c).begin := by
    refine ⟨rfl, ?_, ⟨[], by simp [State.begin]⟩, ?_, ?_⟩
    · exact (congrArg Channel.memberOf chan).trans (memberOf_congr cfg)
    · exact fun x => x.trans (note.symm.trans (congrArg Channel.noteImage chan).symm)
    · exact fun x => x.trans ((congrArg ChannelState.faultImage state.symm).trans (congrArg (fun c : Channel => c.state.faultImage) chan).symm)
  have works : Works K s.inUse Z I (s.setChan i c).begin := Works.onChannel h a turn (.inl (by
    change SeenAlike (s.chan i) ((s.setChan i c).chan i)
    rw [chan]
    exact .of_same cfg state reading))
  have same : (s.setChan i c).inUse = s.inUse := inUse_congr rfl fun j => onChannel_memberOf (w := s.begin) (v := (s.setChan i c).begin) a turn j
  unfold Holds
  rw [same]
  exact works

theorem told_movedWith (w : Work) (i : Fin 16) (notes : List NoticeBody) (c : Channel) : Told i w ((w.noticeAll notes).moveAndTell i c) :=
  told_tellZone ..

/-- A fall of SERVICE takes each channel's end of test. -/
theorem Works.serviceFalls (h : Works K A Z I w) (i : Fin 16) : Works K A Z I (w.serviceFalls i) :=
  (h.onChannel (onChannel_serviceWork w i)
    (turn_movedWith w i (c := (w.st.chan i).endTest.enter .recover w.st.clock) [.testResult i (.testAborted .service (w.st.chan i).armedSpan.isSome)] rfl)
    (told_movedWith w i [.testResult i (.testAborted .service (w.st.chan i).armedSpan.isSome)] _)).settle _

end

end Sys2Proof.Machine
end

section
/-! The agreement of the blocks through the alarm unit's requests, the clock, the zones' events, the slots and the probes. -/

namespace Sys2Proof.Machine

section
variable {K : Aims} {A : Fin 6 → Bool} {Z I : Prop} {s t : State} {u v w : Work} {z : Fin 6} {n : Nat}

/-! ## Writes that no block sees -/

/-- Work that reaches no block and changes nothing that is shown. -/
theorem Works.beside {L : Aims} (h : Works K A Z I w) (p : Passed w v) (chans : v.st.chans = w.st.chans) (probes : v.st.probes = w.st.probes)
    (lawful : Lawful L v) (alike : ShownAlike [] w v) (eqz : v.st.eqz.debounced = w.st.eqz.debounced) : Works L A Z I v :=
  h.passed p chans probes lawful fun q => (h.shown q).same alike p.zones chans probes p.fans eqz

/-- What the blocks of a state agree on. -/
structure BesideBlocks (s t : State) : Prop where
  fans : t.fans = s.fans
  arb : t.arb = s.arb
  setup : t.setup = s.setup
  alarm : t.alarm = s.alarm
  zones : t.zones = s.zones
  chans : t.chans = s.chans
  probes : t.probes = s.probes
  eqz : t.eqz.debounced = s.eqz.debounced

theorem Works.besideBlocks (h : Works K A Z I w) (b : BesideBlocks w.st v.st) (out : v.out = w.out) : Works K A Z I v := by
  have grown : ∀ x ∈ w.out, x ∈ v.out := fun x m => out ▸ m
  have regime := congrArg Alarm.regime b.alarm
  exact Works.beside h (.of_same b.zones b.fans regime grown) b.chans b.probes
    (h.lawful.same b.fans b.arb b.setup regime grown) (.of_same out b.alarm) b.eqz

theorem BesideBlocks.inUse (b : BesideBlocks s t) : t.inUse = s.inUse :=
  inUse_congr (by rw [b.setup]) fun i => by unfold State.chan; rw [b.chans]

theorem Holds.besideBlocks (h : Holds K Z I s) (b : BesideBlocks s t) : Holds K Z I t := by
  unfold Holds
  rw [b.inUse]
  exact Works.besideBlocks h (v := t.begin) b rfl

/-! ## The alarm unit's requests -/

/-- A pass of the alarm unit over another record of the same conditions. -/
theorem Works.judged (h : Works K A Z I w) {a : Alarm} (regime : a.regime = w.st.alarm.regime) (images : ∀ k, a.image k = w.st.alarm.image k)
    (paused : a.paused = w.st.alarm.paused) (eqz : a.eqz = w.st.alarm.eqz) (changed : Bool) (notes : List NoticeBody) :
    Works K A Z I ((w.map fun s => s.setAlarm a).alarmPass changed notes) := by
  have blocks := (alarmPass_blocks w a changed notes).1
  have alike : ShownAlike [] w (w.map fun s => s.setAlarm a) := by
    refine ⟨fun k _ => ?_, fun z => ?_, ?_⟩
    · change List.foldl _ (a.image k) w.out = _
      rw [images]
      rfl
    · change latest _ w.out (vget a.paused z) = _
      rw [paused]
      rfl
    · change latest _ w.out a.eqz = _
      rw [eqz]
      rfl
  exact h.beside (alarmPass_passed w regime changed notes) blocks.chans blocks.probes (h.lawful.passed regime changed notes)
    (alike.trans (alarmPass_alike w a changed notes))
    (congrArg Conditioner.debounced (calm_alarmPass (w.map fun s => s.setAlarm a) changed notes).keeps.eqz)

theorem Holds.judged (h : Holds K Z I s) (g : State → Alarm) (regime : (g s).regime = s.alarm.regime)
    (images : ∀ k, (g s).image k = s.alarm.image k) (paused : (g s).paused = s.alarm.paused) (eqz : (g s).eqz = s.alarm.eqz)
    (changed : Bool) (notes : List NoticeBody) : Holds K Z I (s.does fun w => (w.map fun s => s.setAlarm (g s)).alarmPass changed notes) := by
  have rewritten : (s.begin.map fun s => s.setAlarm (g s)) = s.begin.map fun r => r.setAlarm (g s) := rfl
  have blocks := (alarmPass_blocks s.begin (g s) changed notes).1
  refine Works.does (f := fun w => (w.map fun s => s.setAlarm (g s)).alarmPass changed notes) ?_ ?_ ?_ fun i => ?_
  · rw [rewritten]
    exact Works.judged h regime images paused eqz changed notes
  · rw [rewritten]
    exact (posts_passAlarm s.begin (g s) changed notes).done rfl (by decide)
  · rw [rewritten, blocks.setup]; rfl
  · rw [rewritten]; unfold State.chan; rw [blocks.chans]; rfl

theorem acknowledge_images (a : Alarm) (keys : List (Fin 82)) : (∀ k, (a.acknowledge keys).image k = a.image k) ∧
    (a.acknowledge keys).paused = a.paused ∧ (a.acknowledge keys).eqz = a.eqz := by
  simp only [Alarm.acknowledge, Alarm.image]
  exact ⟨fun _ => trivial, trivial, trivial⟩

theorem setMask_images (a : Alarm) (x y : Bool) (room : Nat) : (∀ k, (a.setMask x y room).image k = a.image k) ∧
    (a.setMask x y room).paused = a.paused ∧ (a.setMask x y room).eqz = a.eqz := by
  simp only [Alarm.setMask, Alarm.image]
  exact ⟨fun _ => trivial, trivial, trivial⟩

/-! ## The clock -/

/-- The fans' records but for fields that no other block sees. -/
theorem FansTurn.of_fans {P : Fin 8 → Fin 6 → Prop} (within : Within w.st v.st) (zones : v.st.zones = w.st.zones) (out : v.out = w.out)
    (arb : v.st.arb = w.st.arb) (cfg : ∀ i, (v.st.fan i).cfg = (w.st.fan i).cfg) (state : ∀ i, (v.st.fan i).state = (w.st.fan i).state)
    (claims : ∀ i, (v.st.fan i).claims = (w.st.fan i).claims) (last : ∀ i, (v.st.fan i).lastFault = (w.st.fan i).lastFault)
    (note : ∀ i, (v.st.fan i).flowNote = (w.st.fan i).flowNote) : FansTurn P w v := by
  refine ⟨within, zones, cfg, fun i => ?_, fun i => ?_, fun i z _ => by rw [claims], fun i => .inl ?_, fun i asked => .inl ?_,
    ⟨[], by rw [out, List.append_nil], fun _ m => nomatch m⟩, fun i => ?_⟩
  · unfold Fan.takesClaims; rw [state]
  · unfold Fan.failShown Fan.failed Fan.failImage; rw [state, last]
  · unfold Fan.available; rw [cfg, state]
  · unfold State.requestTime at asked ⊢; rwa [arb] at asked
  · unfold Fan.noteShown
    rw [shown_spared (new := []) (by rw [out, List.append_nil]) within.alarm (fun _ m => (nomatch m)), note]
    exact id

/-- The state with the fans' flow lines read. -/
def State.readFlow (s : State) (lines : Lines) : State := { s with fans := (s.readLines lines).fans }

theorem readFlow_fan (s : State) (lines : Lines) (i : Fin 8) : (s.readFlow lines).fan i =
    { s.fan i with flow := (s.fan i).flow.read (lines.flow.getLsbD i.val) s.clock flowDebounceTime } := vget_ofFn ..

theorem Holds.millisecond (h : Holds K Z I s) (lines : Lines) : Holds K Z I ((s.setTime s.time.tick).readLines lines) := by
  have timed : Holds K Z I (s.setTime s.time.tick) := h.besideBlocks ⟨rfl, rfl, rfl, rfl, rfl, rfl, rfl, rfl⟩
  have lawful : Lawful K ((s.setTime s.time.tick).readLines lines).begin := h.lawful.readLines lines
  generalize s.setTime s.time.tick = u at timed lawful
  have fan := readFlow_fan u lines
  have turn : FansTurn (fun _ _ => False) u.begin (u.readFlow lines).begin := by
    refine .of_fans ⟨rfl, .refl _, rfl, rfl, rfl⟩ rfl rfl rfl (fun i => ?_) (fun i => ?_) (fun i => ?_) (fun i => ?_) fun i => ?_
    · exact (congrArg Fan.cfg (fan i)).trans rfl
    · exact (congrArg Fan.state (fan i)).trans rfl
    · exact (congrArg Fan.claims (fan i)).trans rfl
    · exact (congrArg Fan.lastFault (fan i)).trans rfl
    · exact (congrArg Fan.flowNote (fan i)).trans rfl
  have read : Lawful K (u.readFlow lines).begin := lawful.same rfl rfl rfl rfl fun _ m => m
  have flow : Holds K Z I (u.readFlow lines) := Works.turn timed turn (fun _ _ => id) read
  exact flow.besideBlocks ⟨rfl, rfl, rfl, rfl, rfl, rfl, rfl, rfl⟩

/-! ## Zones -/

theorem Holds.zoneLevel (h : Holds K Z I s) {r : Zone} (active : (s.zone z).active = true) (same : SameButLevels (s.zone z) r) :
    Holds K Z I (s.does fun w => w.evaluateDemand z r false) := by
  have but := Works.but (z := z) h active
  refine Works.doesWithin (f := fun w => w.evaluateDemand z r false) ?_ ((pays_evaluateDemand_any s.begin z r false).done rfl (by decide))
    (within_evaluateDemand s.begin z r false)
  refine but.evaluateDemand (fun _ => (h.agreed z).2) ?_ ?_ ?_ ?_ ?_ (fun p => ?_) fun p => ?_
  · rw [same]; exact active
  · rw [same]; rfl
  · rw [same]; rfl
  · rw [same]; rfl
  · rw [same]; rfl
  · rw [same]; exact (h.senses p z).sensed active
  · rw [same]; exact (h.senses p z).spilt active

theorem rotateOrder_perm (l : List (Fin 8)) : (rotateOrder l).Perm l := by
  cases l with
  | nil => exact .refl _
  | cons f rest => exact List.perm_append_singleton f rest

theorem Works.rotateZone (h : Works K A Z I w) (active : (w.st.zone z).active = true) :
    Works K A Z I (w.rotateZone z) := by
  have perm := rotateOrder_perm (w.st.zone z).cfg.order
  have agrees := (h.agreed z).2
  refine (h.but active).evaluateAllocation (fun p => h.senses p z) active (perm.nodup_iff.2 agrees.order) List.filter_sublist (fun i => ?_) rfl
  rw [List.mem_filter, perm.mem_iff, List.contains_iff_mem]
  exact ⟨And.right, fun mem => ⟨agrees.listed.subset mem, mem⟩⟩

/-- Just the alarm unit's EQZ may have changed. -/
theorem Shown.blocks (h : Shown w) (zones : v.st.zones = w.st.zones) (chans : v.st.chans = w.st.chans) (probes : v.st.probes = w.st.probes)
    (fans : v.st.fans = w.st.fans) (image : ∀ k, v.shown k = w.shown k) (paused : ∀ z, v.pausedShown z = w.pausedShown z)
    (eqz : v.eqzShown = v.st.eqz.debounced) : Shown v := by
  refine ⟨fun z => ⟨?_, ?_, ?_, ?_⟩, fun i => ?_, fun i => ?_, fun p => ?_, fun p => ?_, fun i => ?_, fun i => ?_, eqz⟩
  · unfold State.zone; rw [image, zones]; exact (h.zone z).gas
  · unfold State.zone; rw [image, zones]; exact (h.zone z).blind
  · unfold State.zone; rw [image, zones]; exact (h.zone z).shortfall
  · unfold State.zone; rw [paused, zones]; exact (h.zone z).paused
  · unfold State.chan; rw [image, chans]; exact h.channelFault i
  · unfold State.chan; rw [image, chans]; exact h.channelNote i
  · unfold State.probe; rw [image, probes]; exact h.spill p
  · unfold State.probe; rw [image, probes]; exact h.probeFault p
  · unfold State.fan; rw [image, fans]; exact h.fanFail i
  · unfold State.fan; rw [image, fans]; exact h.flowNote i

/-- A change of EQZ is handed to the alarm unit and to the active zones. -/
theorem Holds.eqz (h : Holds K Z I s) : Holds K Z I (s.does fun w =>
    ((w.map fun s => { s with eqz := s.eqz.toggle }).post (.eqz (!s.eqz.debounced))).forEachOpen s.activeZones
      fun w z => w.post (.coupling z (!s.eqz.debounced))) := by
  let f : Work → Work := fun w => ((w.map fun s => { s with eqz := s.eqz.toggle }).post (.eqz (!s.eqz.debounced))).forEachOpen s.activeZones
      fun w z => w.post (.coupling z (!s.eqz.debounced))
  have idle : ((f s.begin).settle settleLimit).out = [] :=
    (posts_eqz s.begin (fun s => { s with eqz := s.eqz.toggle }) _ _ (filter_finRange_le _)).done rfl (by decide)
  have st : (f s.begin).st = { s with eqz := s.eqz.toggle, choices := s.choices + drawsFor s.activeZones } := by
    change (((inOpenOrder _ s.activeZones).foldl (fun (w : Work) z => w.post (.coupling z (!s.eqz.debounced))) _).st) = _
    rw [foldl_post_st]
    rfl
  have out : (f s.begin).out = Handover.eqz (!s.eqz.debounced) :: (inOpenOrder s.choices s.activeZones).map fun z => .coupling z (!s.eqz.debounced) :=
    forEachOpen_post_out ..
  have couplings : ∀ x ∈ (inOpenOrder s.choices s.activeZones).map fun z => Handover.coupling z (!s.eqz.debounced), x.onlyOf [] := by
    intro x mem
    obtain ⟨z, -, rfl⟩ := List.mem_map.1 mem
    trivial
  have within : (f s.begin).st.inUse = s.inUse := by rw [st]; rfl
  refine Works.doesIn (f := f) ?_ idle within
  generalize f s.begin = v at st out
  have grown : ∀ x ∈ s.begin.out, x ∈ v.out := fun _ m => nomatch m
  have passed : Passed s.begin v := .of_same (by rw [st]; rfl) (by rw [st]; rfl) (by rw [st]; rfl) grown
  refine Works.passed h passed (by rw [st]; rfl) (by rw [st]; rfl)
    (h.lawful.same (by rw [st]; rfl) (by rw [st]; rfl) (by rw [st]; rfl) (by rw [st]; rfl) grown) fun p => ?_
  have before := h.shown p
  generalize (inOpenOrder s.choices s.activeZones).map (fun z => Handover.coupling z (!s.eqz.debounced)) = rest at out couplings
  have added : v.out = s.begin.out ++ (Handover.eqz (!s.eqz.debounced) :: rest) := out
  have alarm : v.st.alarm = s.begin.st.alarm := by rw [st]; rfl
  have alike (k : Fin 82) : v.shown k = s.begin.shown k := shown_spared added alarm fun x mem image e => by
    rcases List.mem_cons.1 mem with rfl | mem
    · cases e
    · rw [e] at mem
      exact List.not_mem_nil (couplings _ mem)
  have paused (z : Fin 6) : v.pausedShown z = s.begin.pausedShown z := by
    unfold Work.pausedShown
    rw [added, alarm, latest_append, latest_none fun x mem => ?_]
    rcases List.mem_cons.1 mem with rfl | mem
    · rfl
    · have only := couplings x mem
      cases x <;> first | rfl | exact only.elim
  have eqz : v.eqzShown = !s.eqz.debounced := by
    unfold Work.eqzShown
    rw [out]
    refine Eq.trans (b := latest Handover.eqzNow rest (!s.eqz.debounced)) rfl (latest_none (fun x mem => ?_) _)
    have only := couplings x mem
    cases x <;> first | rfl | exact only.elim
  exact before.blocks (by rw [st]; rfl) (by rw [st]; rfl) (by rw [st]; rfl) (by rw [st]; rfl) alike paused (by rw [eqz, st]; rfl)

/-! ## Slots -/

theorem Works.perform (h : Works K A Z I w) (inUse : w.st.inUse = A) (a : Action) (performed : w.st.outcomeOf a = .performed) :
    Works K A Z I (w.perform a) := by
  have lawful : Lawful K (w.perform a) := h.lawful.perform a
  cases a with
  | rotate z =>
    refine h.rotateZone ?_
    rw [(h.agreed z).1, ← inUse]
    change (if !w.st.setup.armed then SlotOutcome.unarmed else if w.st.used z then .performed else .notPresent) = _ at performed
    unfold State.inUse
    cases armed : w.st.setup.armed with
    | false => rw [armed] at performed; cases performed
    | true =>
      cases used : w.st.used z with
      | true => rfl
      | false => rw [armed, used] at performed; cases performed
  | start f d => exact h.turn (fturn_startManual w f d h.asked) (fun _ _ p => nomatch p.2) lawful
  | exercise f =>
    have due : FansTurn (fun _ _ => False) w (w.map fun s => s.setFan f { s.fan f with exerciseDue := some s.clock }) :=
      fturn_write w f rfl rfl rfl rfl fun _ _ => rfl
    exact h.turn (due.trans (fturn_exerciseFallsDue _ f (due.asks h.asked))) (fun _ _ => id) lawful
  | mark tag => exact h

theorem Works.act (h : Works K A Z I w) (inUse : w.st.inUse = A) (a : Action) : Works K A Z I (w.act a) := by
  unfold Work.act
  split
  · exact h.perform inUse a ‹_›
  · exact h

theorem Within.inUse (h : Within s t) : t.inUse = s.inUse :=
  inUse_congr (by rw [h.setup]) fun i => by unfold State.chan; rw [h.chans]

theorem settle_inUse (w : Work) (fuel : Nat) : (w.settle fuel).st.inUse = w.st.inUse := by
  have keeps := settle_keeps fuel w
  exact inUse_congr (by rw [keeps.setup]) fun i => by unfold State.chan; rw [keeps.chans]

theorem Works.fireSlot (h : Works K A Z I w) (inUse : w.st.inUse = A) (k : Fin 8) (jump : Bool) :
    Works K A Z I (w.fireSlot k jump) ∧ (w.fireSlot k jump).st.inUse = A := by
  cases slot : w.st.slot k with
  | none => rw [fireSlot_none slot]; exact ⟨h, inUse⟩
  | some r =>
    rw [fireSlot_some slot]
    have acted := h.act inUse r.action
    have fired : Works K A Z I (w.fired k r jump) := Works.besideBlocks acted ⟨rfl, rfl, rfl, rfl, rfl, rfl, rfl, rfl⟩ rfl
    refine ⟨fired.settle _, (settle_inUse ..).trans (Eq.trans ?_ inUse)⟩
    exact (within_act w r.action).inUse

/-- What each of many takers keeps, all together keep. -/
theorem forEachOpen_keeps {α : Type} {P : Work → Prop} {f : Work → α → Work} (step : ∀ w x, P w → P (f w x))
    (choices : ∀ w n, P w → P (w.map fun s => { s with choices := n })) (xs : List α) (w : Work) (h : P w) : P (w.forEachOpen xs f) := by
  have fold : ∀ (ys : List α) (v : Work), P v → P (ys.foldl f v) := by
    intro ys
    induction ys with
    | nil => exact fun _ k => k
    | cons y ys ih => exact fun v k => ih _ (step v y k)
  exact fold _ _ (choices w _ h)

/-- The agreement, with the zones in use as they are. -/
def Work.kept (K : Aims) (A : Fin 6 → Bool) (Z I : Prop) (w : Work) : Prop := Works K A Z I w ∧ w.st.inUse = A

theorem Holds.kept (h : Holds K Z I s) : s.begin.kept K s.inUse Z I := ⟨h, rfl⟩

theorem kept_forEachOpen {α : Type} {f : Work → α → Work} (step : ∀ w x, w.kept K A Z I → (f w x).kept K A Z I) (xs : List α) (w : Work)
    (h : w.kept K A Z I) : (w.forEachOpen xs f).kept K A Z I :=
  forEachOpen_keeps step (fun _ _ k => ⟨k.1.besideBlocks ⟨rfl, rfl, rfl, rfl, rfl, rfl, rfl, rfl⟩ rfl, k.2⟩) xs w h

theorem Works.serviceFalls_kept (h : w.kept K A Z I) (i : Fin 16) : (w.serviceFalls i).kept K A Z I := by
  refine ⟨h.1.serviceFalls i, (settle_inUse ..).trans (Eq.trans ?_ h.2)⟩
  have a := onChannel_serviceWork w i
  have turn := turn_movedWith w i (c := (w.st.chan i).endTest.enter .recover w.st.clock)
    [.testResult i (.testAborted .service (w.st.chan i).armedSpan.isSome)] rfl
  exact inUse_congr (by rw [a.rest]) (onChannel_memberOf (w := w) a turn)

/-! ## Probes -/

theorem keySpill_inj {p q : Fin 8} (ne : p ≠ q) : keySpill p ≠ keySpill q ∧ keyProbeFault p ≠ keyProbeFault q := by revert p q; decide

theorem handovers_split (before after : Probe) (p : Fin 8) : before.handovers p after = before.spillHandover after ++
    changedImage (keySpill p) before.spillImage after.spillImage ++ changedImage (keyProbeFault p) before.faultImage after.faultImage := rfl

theorem spillHandover_spare (before after : Probe) (k : Fin 82) : ∀ h ∈ before.spillHandover after, h.spares k := by
  intro h mem image e
  obtain ⟨-, z, -, rfl⟩ := mem_spillHandover.1 mem
  cases e

theorem probeHandovers_only (before after : Probe) (p : Fin 8) : ∀ h ∈ before.handovers p after, h.onlyOf [.spill, .probeFault] := by
  intro h mem
  rw [handovers_split] at mem
  rcases List.mem_append.1 mem with mem | mem
  · rcases List.mem_append.1 mem with mem | mem
    · obtain ⟨-, z, -, rfl⟩ := mem_spillHandover.1 mem
      trivial
    · rw [(mem_changedImage.1 mem).2]
      change classOf (keySpill p) ∈ _
      rw [classOf_keySpill]; decide
  · rw [(mem_changedImage.1 mem).2]
    change classOf (keyProbeFault p) ∈ _
    rw [classOf_keyProbeFault]; decide

theorem Shown.moveProbe (h : Shown w) (p : Fin 8) (r : Probe) : Shown (w.moveProbe p r) := by
  have out : (w.moveProbe p r).out = w.out ++ (w.st.probe p).handovers p r := moveProbe_out w p r
  have alarm : (w.moveProbe p r).st.alarm = w.st.alarm := rfl
  have alike : ShownAlike [.spill, .probeFault] w (w.moveProbe p r) := .of_new out alarm (probeHandovers_only _ _ p)
  have probe (q) : (w.moveProbe p r).st.probe q = if p = q then r else w.st.probe q := State.setProbe_probe ..
  have apart (x y) : keySpill x ≠ keyProbeFault y := key_ne_of_class (by rw [classOf_keySpill, classOf_keyProbeFault]; decide)
  refine ⟨fun z => ?_, fun i => ?_, fun i => ?_, fun q => ?_, fun q => ?_, fun i => ?_, fun i => ?_, alike.eqz.trans h.eqz⟩
  · exact (h.zone z).alike alike (by decide) (by decide) (by decide)
  · rw [alike.image _ (by rw [classOf_keyChannelFault]; decide)]; exact h.channelFault i
  · rw [alike.image _ (by rw [classOf_keyChannelNote]; decide)]; exact h.channelNote i
  · rw [probe]
    by_cases e : p = q
    · subst e
      rw [if_pos rfl]
      exact shown_changed (out.trans (congrArg _ (handovers_split ..))) alarm (spillHandover_spare _ _ _) (spares_changed (apart p p).symm) (h.spill p)
    · rw [if_neg e, ← h.spill q]
      refine shown_spared out alarm (spares_append (spares_append (spillHandover_spare _ _ _) (spares_changed (keySpill_inj e).1)) (spares_changed (apart q p).symm))
  · rw [probe]
    by_cases e : p = q
    · subst e
      rw [if_pos rfl]
      refine shown_changed (before := (w.st.probe p).spillHandover r ++ changedImage (keySpill p) (w.st.probe p).spillImage r.spillImage) (after := [])
        ?_ alarm (spares_append (spillHandover_spare _ _ _) (spares_changed (apart p p))) (fun _ m => nomatch m) (h.probeFault p)
      rw [List.append_nil]
      exact out
    · rw [if_neg e, ← h.probeFault q]
      exact shown_spared out alarm (spares_append (spares_append (spillHandover_spare _ _ _) (spares_changed (apart p q))) (spares_changed (keySpill_inj e).2))
  · rw [alike.image _ (by rw [classOf_keyFanFail]; decide)]; exact h.fanFail i
  · rw [alike.image _ (by rw [classOf_keyFlowNote]; decide)]; exact h.flowNote i

/-- A probe's new record is handed to its zone and to the alarm unit. -/
theorem Works.moveProbe (h : Works K A Z I w) (p : Fin 8) {r : Probe} (cfg : r.cfg = (w.st.probe p).cfg) : Works K A Z I (w.moveProbe p r) := by
  have out : (w.moveProbe p r).out = w.out ++ (w.st.probe p).handovers p r := moveProbe_out w p r
  have grown : ∀ x ∈ w.out, x ∈ (w.moveProbe p r).out := (posts_moveProbe w p r).grown
  have passed : Passed w (w.moveProbe p r) := .of_same rfl rfl rfl grown
  have lawful := h.lawful.moveProbe p r
  have probe (q) : (w.moveProbe p r).st.probe q = if p = q then r else w.st.probe q := State.setProbe_probe ..
  have alarm : (w.moveProbe p r).st.alarm = w.st.alarm := rfl
  refine ⟨lawful, fun z => ⟨(h.agreed z).1, (h.agreed z).2.passed passed⟩, fun q z => (h.senses q z).passed passed (.inl ⟨rfl, rfl⟩) ?_,
    fun q => ?_⟩
  · by_cases told : r.cfg.zone = some z ∧ (w.st.probe p).contribution ≠ r.contribution
    · refine .inr ?_
      rw [out]
      exact List.mem_append_right _ (spill_mem_probeHandovers.2 ⟨told.2, told.1⟩)
    · refine .inl ?_
      unfold State.spillIn
      refine Bool.eq_iff_iff.2 ?_
      simp only [List.any_eq_true, probe]
      refine exists_congr fun q => and_congr_right fun _ => ?_
      by_cases e : p = q
      · subst e
        rw [if_pos rfl, cfg]
        by_cases mapped : (w.st.probe p).cfg.zone = some z
        · rw [not_and_not_right.1 told (by rw [cfg]; exact mapped)]
        · rw [decide_eq_false mapped, Bool.and_false, Bool.false_and, Bool.false_and]
      · rw [if_neg e]
  · exact (h.shown q).moveProbe p r

end

end Sys2Proof.Machine
end

section
/-! The agreement of the blocks in an UNARMED part: its configuration requests, the failsafe starts, the power-on reset and DISARM. -/

namespace Sys2Proof.Machine

section
variable {K : Aims} {Z I : Prop} {s t : State}

/-! ## A part at rest -/

/-- Where every fan rests and every zone is inactive, the zones and the fans agree. -/
theorem Resting.holds (h : Resting K s) (c : K.claims) (zones : ∀ z, s.zone z = .inactive (s.zone z).cfg)
    (order : ∀ z, (s.zone z).cfg.order.Nodup) (shown : I → Shown s.begin) : Holds K Z I s := by
  have off (z) : (s.zone z).active = false := by rw [zones z]; rfl
  refine ⟨h.lawful, fun z => ⟨?_, ?_⟩, fun _ z => ?_, shown⟩
  · unfold State.inUse
    rw [h.unarmed]
    exact off z
  · have none_ : (s.zone z).claims = [] := by rw [zones z]; rfl
    have empty {p : Fin 8 → Prop} : ∀ i ∈ (s.zone z).claims, p i := fun i mem => by rw [none_] at mem; cases mem
    refine ⟨order z, ?_, ?_, fun _ => zones z, fun i carries => ?_, empty, empty, fun a => absurd ((off z).symm.trans a) nofun⟩
    · change (s.zone z).claims.Sublist _
      rw [none_]
      exact List.nil_sublist _
    · change (s.zone z).shortfall = decide ((s.zone z).claims.length < (s.zone z).needed)
      rw [zones z]
      rfl
    · change vget (s.fan i).claims.zones z = true at carries
      rw [h.claims c i] at carries
      exact absurd ((empty_has (.zone z)).symm.trans carries) nofun
  · have no : (s.begin.st.zone z).active ≠ true := fun a => absurd ((off z).symm.trans a) nofun
    exact ⟨fun a => absurd a no, fun a => absurd a no, fun a => absurd a no⟩

/-- What a part shows of which no block has a condition. -/
theorem shown_of_inactive (images : ∀ k, s.alarm.image k = .inactive) (paused : ∀ z, vget s.alarm.paused z = false)
    (zones : ∀ z, s.zone z = .inactive (s.zone z).cfg)
    (chans : ∀ i, (s.chan i).state.faultImage = .inactive ∧ (s.chan i).noteImage = .inactive)
    (probes : ∀ p, (s.probe p).spillImage = .inactive ∧ (s.probe p).faultImage = .inactive)
    (fans : ∀ i, (s.fan i).failShown = .inactive ∧ (s.fan i).noteShown = .inactive)
    (eqz : s.alarm.eqz = s.eqz.debounced) : Shown s.begin := by
  refine ⟨fun z => ?_, fun i => (images _).trans (chans i).1.symm, fun i => (images _).trans (chans i).2.symm,
    fun p => (images _).trans (probes p).1.symm, fun p => (images _).trans (probes p).2.symm, fun i => (images _).trans (fans i).1.symm,
    fun i => (images _).trans (fans i).2.symm, eqz⟩
  change ZoneShown s.begin z (s.zone z)
  rw [zones z]
  exact ⟨images _, images _, images _, paused z⟩

/-- A write that no block shows. -/
theorem Shown.congr (h : Shown s.begin) (alarm : t.alarm = s.alarm)
    (zones : ∀ z, (t.zone z).gasImage = (s.zone z).gasImage ∧ (t.zone z).blindImage = (s.zone z).blindImage ∧
      (t.zone z).shortfallImage = (s.zone z).shortfallImage ∧ (t.zone z).sight = (s.zone z).sight)
    (chans : ∀ i, (t.chan i).state = (s.chan i).state ∧ (t.chan i).noteImage = (s.chan i).noteImage)
    (probes : ∀ p, (t.probe p).spillImage = (s.probe p).spillImage ∧ (t.probe p).faultImage = (s.probe p).faultImage)
    (fans : ∀ i, (t.fan i).failShown = (s.fan i).failShown ∧ (t.fan i).noteShown = (s.fan i).noteShown)
    (eqz : t.eqz.debounced = s.eqz.debounced) : Shown t.begin := by
  have alike : ShownAlike [] s.begin t.begin := .of_same rfl alarm
  have image (k) : t.begin.shown k = s.begin.shown k := alike.image k List.not_mem_nil
  refine ⟨fun z => ?_, fun i => ?_, fun i => ?_, fun p => ?_, fun p => ?_, fun i => ?_, fun i => ?_, alike.eqz.trans (h.eqz.trans eqz.symm)⟩
  · exact ((h.zone z).alike alike List.not_mem_nil List.not_mem_nil List.not_mem_nil).congr (zones z).1 (zones z).2.1 (zones z).2.2.1
      (Iff.of_eq (congrArg (· = some Sight.paused) (zones z).2.2.2))
  · exact (image _).trans ((h.channelFault i).trans (congrArg ChannelState.faultImage (chans i).1.symm))
  · exact (image _).trans ((h.channelNote i).trans (chans i).2.symm)
  · exact (image _).trans ((h.spill p).trans (probes p).1.symm)
  · exact (image _).trans ((h.probeFault p).trans (probes p).2.symm)
  · exact (image _).trans ((h.fanFail i).trans (fans i).1.symm)
  · exact (image _).trans ((h.flowNote i).trans (fans i).2.symm)

/-! ## Configuration -/

theorem Holds.inactive (h : Holds K Z I s) (unarmed : s.setup.armed = false) (z : Fin 6) : s.zone z = .inactive (s.zone z).cfg := by
  refine (h.agreed z).2.inactive ((h.agreed z).1.trans ?_)
  unfold State.inUse
  rw [unarmed]
  rfl

/-- An UNARMED part takes a new configuration record, and goes on to rest. -/
theorem Holds.configured (h : Holds K Z I s) (c : K.claims) (unarmed : s.setup.armed = false) (rests : Resting K t)
    (alarm : t.alarm = s.alarm) (zones : ∀ z, ∃ cfg, t.zone z = { s.zone z with cfg := cfg } ∧ cfg.order.Nodup)
    (chans : ∀ i, (t.chan i).state = (s.chan i).state ∧ (t.chan i).noteImage = (s.chan i).noteImage)
    (probes : ∀ p, (t.probe p).spillImage = (s.probe p).spillImage ∧ (t.probe p).faultImage = (s.probe p).faultImage)
    (fans : ∀ i, (t.fan i).failShown = (s.fan i).failShown ∧ (t.fan i).noteShown = (s.fan i).noteShown)
    (eqz : t.eqz.debounced = s.eqz.debounced) : Holds K Z I t := by
  have zone (z) : t.zone z = .inactive (t.zone z).cfg := by
    obtain ⟨cfg, e, -⟩ := zones z
    rw [e, h.inactive unarmed z]
    rfl
  refine rests.holds c zone (fun z => ?_) fun p => (h.shown p).congr alarm (fun z => ?_) chans probes fans eqz
  · obtain ⟨cfg, e, nodup⟩ := zones z
    rw [e]; exact nodup
  · rw [zone z, h.inactive unarmed z]; exact ⟨rfl, rfl, rfl, rfl⟩

theorem Holds.setChannel (h : Holds K Z I s) (c : K.claims) (unarmed : s.setup.armed = false) (i : Fin 16) (cfg : ChannelCfg) :
    Holds K Z I (s.setChan i { s.chan i with cfg := cfg }) := by
  refine h.configured c unarmed ((h.lawful.resting unarmed).congr rfl (fun _ => rfl) rfl fun _ => ⟨rfl, rfl, rfl⟩) rfl
    (fun z => ⟨_, rfl, (h.agreed z).2.order⟩) (fun j => ?_) (fun _ => ⟨rfl, rfl⟩) (fun _ => ⟨rfl, rfl⟩) rfl
  rw [State.setChan_chan]
  by_cases e : i = j
  · subst e; rw [if_pos rfl]; exact ⟨rfl, rfl⟩
  · rw [if_neg e]; exact ⟨rfl, rfl⟩

theorem Holds.setZone (h : Holds K Z I s) (c : K.claims) (unarmed : s.setup.armed = false) (y : Fin 6) (cfg : ZoneCfg)
    (order : cfg.order.Nodup) : Holds K Z I (s.setZone y { s.zone y with cfg := cfg }) := by
  refine h.configured c unarmed ((h.lawful.resting unarmed).congr rfl (fun _ => rfl) rfl fun _ => ⟨rfl, rfl, rfl⟩) rfl
    (fun z => ?_) (fun _ => ⟨rfl, rfl⟩) (fun _ => ⟨rfl, rfl⟩) (fun _ => ⟨rfl, rfl⟩) rfl
  rw [State.setZone_zone]
  by_cases e : y = z
  · subst e; rw [if_pos rfl]; exact ⟨_, rfl, order⟩
  · rw [if_neg e]; exact ⟨_, rfl, (h.agreed z).2.order⟩

theorem Holds.setFan (h : Holds K Z I s) (c : K.claims) (unarmed : s.setup.armed = false) (i : Fin 8) (cfg : FanCfg) :
    Holds K Z I (s.setFan i { s.fan i with cfg := cfg }) := by
  refine h.configured c unarmed ((h.lawful.resting unarmed).setFan i cfg) rfl
    (fun z => ⟨_, rfl, (h.agreed z).2.order⟩) (fun _ => ⟨rfl, rfl⟩) (fun _ => ⟨rfl, rfl⟩) (fun j => ?_) rfl
  rw [State.setFan_fan]
  by_cases e : i = j
  · subst e; rw [if_pos rfl]; exact ⟨rfl, rfl⟩
  · rw [if_neg e]; exact ⟨rfl, rfl⟩

theorem Holds.setProbe (h : Holds K Z I s) (c : K.claims) (unarmed : s.setup.armed = false) (p : Fin 8) (cfg : ProbeCfg) :
    Holds K Z I (s.setProbe p { s.probe p with cfg := cfg }) := by
  refine h.configured c unarmed ((h.lawful.resting unarmed).congr rfl (fun _ => rfl) rfl fun _ => ⟨rfl, rfl, rfl⟩) rfl
    (fun z => ⟨_, rfl, (h.agreed z).2.order⟩) (fun _ => ⟨rfl, rfl⟩) (fun q => ?_) (fun _ => ⟨rfl, rfl⟩) rfl
  rw [State.setProbe_probe]
  by_cases e : p = q
  · subst e; rw [if_pos rfl]; exact ⟨rfl, rfl⟩
  · rw [if_neg e]; exact ⟨rfl, rfl⟩

theorem Holds.setArbiter (h : Holds K Z I s) (c : K.claims) (unarmed : s.setup.armed = false) (k w g : Nat) :
    Holds K Z I (s.setArb { s.arb with k := k, w := w, g := g }) :=
  h.configured c unarmed ((h.lawful.resting unarmed).setArbiter k w g) rfl (fun z => ⟨_, rfl, (h.agreed z).2.order⟩) (fun _ => ⟨rfl, rfl⟩)
    (fun _ => ⟨rfl, rfl⟩) (fun _ => ⟨rfl, rfl⟩) rfl

/-! ## Failsafe starts and the reset -/

theorem failsafeStart_fan (s : State) (i : Fin 8) : (s.failsafeStart.fan i).failShown = (s.fan i).failShown ∧
    (s.failsafeStart.fan i).noteShown = (s.fan i).noteShown := by
  rw [(failsafeStart_first s).fan]
  split <;> exact ⟨rfl, rfl⟩

/-- A failsafe start of an UNARMED part. -/
theorem Holds.failsafeStart_unarmed (h : Holds K Z I s) (c : K.claims) (unarmed : s.setup.armed = false) : Holds K Z I s.failsafeStart := by
  have fan := failsafeStart_fan s
  have rests := (h.lawful.resting unarmed).failsafeStart
  obtain ⟨fans, setup, e⟩ := failsafeStart_rest s
  rw [e] at fan rests ⊢
  exact h.configured c unarmed rests rfl (fun z => ⟨_, rfl, (h.agreed z).2.order⟩) (fun _ => ⟨rfl, rfl⟩) (fun _ => ⟨rfl, rfl⟩) fan rfl

theorem Holds.failsafeStart (h : Holds K Z I s) (c : K.claims) : Holds K Z I s.failsafeStart := by
  cases armed : s.setup.armed with
  | false => exact h.failsafeStart_unarmed c armed
  | true =>
    have list : s.setup.failsafeList = [] := List.eq_nil_iff_forall_not_mem.2 fun i mem => by
      have := (h.lawful.1.failsafe i mem).1
      rw [show s.begin.st.setup.armed = s.setup.armed from rfl, armed] at this
      cases this
    have lawful := h.lawful.failsafeStart
    rw [failsafeStart_nil list] at lawful ⊢
    exact Works.beside h (.of_same rfl rfl rfl fun _ m => m) rfl rfl lawful (.of_same rfl rfl) rfl

theorem holds_poweredOn (c : K.claims) (follows : K.prompt → K.claims) (s : State) (lines : ResetLines) :
    Holds K Z I (s.poweredOn lines) := by
  have probe (p : Fin 8) : ∃ line, (s.poweredOn lines).probe p = .absent .reset line := ⟨_, vget_map ..⟩
  have zone (z : Fin 6) : (s.poweredOn lines).zone z = .inactive ((s.poweredOn lines).zone z).cfg := by
    have e : (s.poweredOn lines).zone z = .inactive .reset := reset_zone z
    rw [e]
    rfl
  refine (resting_poweredOn follows s lines).holds c zone (fun z => ?_) fun _ =>
    shown_of_inactive reset_image reset_paused zone (fun i => ?_) (fun p => ?_) (fun i => ?_) (by rw [poweredOn_eqz]; rfl)
  · exact claimLaw_reset.order z
  · have chan : (s.poweredOn lines).chan i = .reset := reset_chan i
    rw [chan]; exact ⟨rfl, rfl⟩
  · obtain ⟨line, e⟩ := probe p
    rw [e]; exact ⟨rfl, rfl⟩
  · rw [poweredOn_fan]; exact ⟨rfl, rfl⟩

/-! ## DISARM -/

theorem Holds.disarm (h : Holds K Z I s) (c : K.claims) : Holds K Z I (s.does Work.disarm) := by
  have rests := resting_disarm (K := K) (fun _ => c) s
  have cleared := disarmBlocks_cleared s.begin
  rw [does_disarm, disarmedOver_eq] at rests ⊢
  generalize s.begin.disarmBlocks.st = d at cleared rests ⊢
  obtain ⟨⟨cs, zs, fs, swept⟩, chan, zone, fan⟩ := cleared
  rw [foldl_notice] at swept
  have alarm : d.alarm = s.alarm := by rw [swept]; rfl
  have eqz : d.eqz = s.eqz := by rw [swept]; rfl
  have judged : (∀ k, (d.alarm.emptied.judged (!s.alarm.table.isEmpty) false).image k = .inactive) ∧
      (∀ z, vget (d.alarm.emptied.judged (!s.alarm.table.isEmpty) false).paused z = false) ∧
      (d.alarm.emptied.judged (!s.alarm.table.isEmpty) false).eqz = d.alarm.eqz := by
    refine ⟨fun k => vget_replicate .., fun z => vget_replicate .., rfl⟩
  generalize d.alarm.emptied.judged (!s.alarm.table.isEmpty) false = a at judged rests ⊢
  have inactive (z) : d.zone z = .inactive (d.zone z).cfg := by rw [zone z]; rfl
  refine rests.holds c inactive (fun z => ?_) fun p => shown_of_inactive judged.1 judged.2.1 inactive (fun i => ?_) (fun q => ?_) (fun i => ?_) ?_
  · change (d.zone z).cfg.order.Nodup
    rw [zone z]
    exact (h.agreed z).2.order
  · change (d.chan i).state.faultImage = _ ∧ (d.chan i).noteImage = _
    rw [chan i, disarmed_eq]
    refine ⟨rfl, ?_⟩
    unfold Channel.noteImage Channel.noted
    simp
  · have probe : vget (d.probes.map fun r => Probe.absent r.cfg r.line) q = .absent (vget d.probes q).cfg (vget d.probes q).line := vget_map ..
    change (vget (d.probes.map fun r => Probe.absent r.cfg r.line) q).spillImage = _ ∧ (vget (d.probes.map fun r => Probe.absent r.cfg r.line) q).faultImage = _
    rw [probe]; exact ⟨rfl, rfl⟩
  · change (d.fan i).failShown = _ ∧ (d.fan i).noteShown = _
    rw [fan i, disarmedAt_eq]; exact ⟨rfl, rfl⟩
  · change a.eqz = d.eqz.debounced
    rw [judged.2.2, alarm, eqz]
    exact (h.shown p).eqz

end

end Sys2Proof.Machine
end

section
/-! The agreement of the blocks through ARM (10.5). -/

namespace Sys2Proof.Machine

section
variable {K : Aims} {A : Fin 6 → Bool} {Z I : Prop} {s t : State} {u v w : Work} {z : Fin 6} {i : Fin 8}

/-! ## What is shown after steps 1 to 5 -/

theorem shown_foldl {α : Type} {f : Work → α → Work} (step : ∀ w x, Shown w → Shown (f w x)) (xs : List α) {w : Work} (h : Shown w) :
    Shown (xs.foldl f w) := by
  induction xs generalizing w with
  | nil => exact h
  | cons x xs ih => exact ih (step w x h)

theorem Shown.armChannels (h : Shown w) : Shown w.armChannels := by
  refine shown_foldl (fun w i h => ?_) _ h
  refine h.onChannel (i := i) (n := 2) (onChannel_moveChannel ⟨rfl, fun l => ⟨fun _ e => (nomatch e), fun _ e => (nomatch e), l.secA, l.secB⟩⟩) ?_
  exact turn_moveChannel rfl

theorem Shown.moveFan (h : Shown w) (i : Fin 8) {f : Fan} (cfg : f.cfg = (w.st.fan i).cfg) (sound : (w.st.fan i).failed = false) :
    Shown (w.moveFan i f) :=
  h.moved (.of_moveFan cfg fun _ failed => by rw [sound] at failed; cases failed)

theorem Shown.armFan (h : Shown w) (i : Fin 8) (idle : (w.st.fan i).state = .unmanaged) : Shown (w.armFan i) := by
  have armed : FansTurn (fun _ _ => True) w (w.map fun s => s.setFan i ((w.st.fan i).armed s.clock)) := by
    refine fturn_setFan w i (g := fun s => (w.st.fan i).armed s.clock) ⟨rfl, rfl, rfl⟩ (fun _ n => (n trivial).elim) rfl rfl
  have ready : (w.map fun s => s.setFan i ((w.st.fan i).armed s.clock)).st.fan i = (w.st.fan i).armed w.st.clock :=
    State.setFan_fan_same ..
  have shown := h.turn armed
  unfold Work.armFan
  dsimp only
  split
  · refine h.turn (P := fun _ _ => True) ?_
    exact fturn_setFan w i (g := fun s => (w.st.fan i).turnOff s.clock) ⟨rfl, rfl, rfl⟩ (fun _ n => (n trivial).elim) rfl rfl
  · generalize (w.map fun s => s.setFan i ((w.st.fan i).armed s.clock)) = r at *
    have sound : (r.st.fan i).failed = false := by
      unfold Fan.failed
      rw [ready, show ((w.st.fan i).armed w.st.clock).state = _ from idle]
    split
    · have moved : Shown (r.moveFan i ((r.st.fan i).proving r.st.clock)) := shown.moveFan i rfl sound
      unfold Work.enterProving
      dsimp only
      split
      · refine moved.moveFan i rfl ?_
        rw [moveFan_fan]
        rfl
      · exact moved
    · unfold Work.enterIdle
      rw [untested (by rw [moveFan_fan, ready]; rfl)]
      exact shown.moveFan i rfl sound

theorem Shown.armFans (h : Shown w) (idle : ∀ i, (w.st.fan i).state = .unmanaged) : Shown w.armFans := by
  have fold : ∀ (xs : List (Fin 8)), xs.Nodup → ∀ v : Work, Shown v → (∀ i ∈ xs, (v.st.fan i).state = .unmanaged) →
      Shown (xs.foldl Work.armFan v) := by
    intro xs
    induction xs with
    | nil => exact fun _ _ k _ => k
    | cons x xs ih =>
      intro nodup v k rest
      obtain ⟨fresh, nodup⟩ := List.nodup_cons.1 nodup
      refine ih nodup _ (k.armFan x (rest x List.mem_cons_self)) fun i mem => ?_
      have ne : i ≠ x := fun e => fresh (e ▸ mem)
      rw [((armFan_placed v x).1.others i ne).1]
      exact rest i (List.mem_cons_of_mem x mem)
  exact fold _ (List.nodup_finRange 8) w h fun i _ => idle i

theorem Shown.armProbes (h : Shown w) : Shown w.armProbes := shown_foldl (fun _ p k => k.moveProbe p _) _ h

theorem Shown.armReady (h : Shown s.begin) (idle : ∀ i, (s.fan i).state = .unmanaged) : Shown s.begin.armReady := by
  rw [armReady_steps]
  have first : Shown (s.begin.map State.armedEmpty) := h.same (.of_same rfl rfl) rfl rfl rfl rfl rfl
  refine (first.armChannels.armFans fun i => ?_).armProbes
  obtain ⟨cs, l, rest⟩ := armChannels_rest (s.begin.map State.armedEmpty)
  rw [rest]
  exact idle i

/-! ## The part after steps 1 to 5 -/

theorem placed_claims {f : Fan} (empty : f.claims = .empty) (clock : Nat) : (f.placed clock).claims = .empty := by
  unfold Fan.placed
  split
  · exact empty
  · split
    · unfold Fan.startedAt
      split <;> rfl
    · rfl

/-- After steps 1 to 5 no zone is active, and the fans carry no claim. -/
theorem Holds.armReady (h : Holds K Z I s) (c : K.claims) (unarmed : s.setup.armed = false) :
    Works (K.starting s.startedFans) (fun _ => false) Z I s.begin.armReady := by
  have rests := h.lawful.resting unarmed
  have lawful := rests.armReady
  have placed := armReady_placed s
  have shown : I → Shown s.begin.armReady := fun p => (h.shown p).armReady rests.state
  generalize s.begin.armReady = w at lawful placed shown
  have zone (z) : w.st.zone z = .inactive (s.zone z).cfg := by
    have same : w.st.zone z = s.zone z := by unfold State.zone; rw [placed.zones]; rfl
    rw [same]
    exact h.inactive unarmed z
  have claims (i) : (w.st.fan i).claims = .empty := by
    rw [placed.fan]
    exact placed_claims (rests.claims c i) _
  refine ⟨lawful, fun z => ⟨by rw [zone]; rfl, ?_⟩, fun _ z => ?_, shown⟩
  · refine ⟨?_, ?_, ?_, ?_, fun i carries => ?_, ?_, ?_, ?_⟩ <;> (try rw [zone])
    · exact (h.agreed z).2.order
    · exact List.nil_sublist _
    · rfl
    · exact fun _ => rfl
    · unfold Work.carries at carries
      rw [claims] at carries
      exact absurd ((empty_has (.zone z)).symm.trans carries) nofun
    · exact fun _ m => nomatch m
    · exact fun _ m => nomatch m
    · exact nofun
  · refine ⟨?_, ?_, ?_⟩ <;> rw [zone] <;> exact nofun

/-! ## The zones become active -/

/-- A zone that becomes active senses, takes its demand and allocates (R65). -/
theorem Works.armZone (h : Works K A Z I w) (off : A z = false) : Works K (fun y => A y || decide (y = z)) Z I (w.armZone z) := by
  have inactive : w.st.zone z = .inactive (w.st.zone z).cfg := (h.agreed z).2.inactive ((h.agreed z).1.trans off)
  let r : Zone := (w.st.zone z).activated w.st.eqz.debounced (w.st.spillIn z)
  have zone : (w.map fun s => s.setZone z r).st.zone z = r := setZone_zone_own w z r
  have other {y} (ne : y ≠ z) : (w.map fun s => s.setZone z r).st.zone y = w.st.zone y := setZone_zone_other w ne r
  have carried (i) (c : w.carries i z = true) : False := by
    have mem := (h.agreed z).2.carried i c
    rw [inactive] at mem
    cases mem
  have but : WorksBut K (fun y => A y || decide (y = z)) Z I z (w.map fun s => s.setZone z r) := by
    refine ⟨h.lawful.setZone z fun _ => r, fun y => ?_, ⟨?_, ?_, ?_, fun i c => (carried i c).elim, ?_⟩, fun y ne => (h.agreed y).2.beside ne r,
      fun p y ne => (h.senses p y).within (within_setZone w.st z r) (other ne) fun _ m => m, fun p => ?_⟩
    · by_cases e : y = z
      · subst e; rw [zone, decide_eq_true rfl, Bool.or_true]; rfl
      · rw [other e, decide_eq_false e, Bool.or_false]; exact (h.agreed y).1
    · rw [zone]; rfl
    · rw [zone]; exact (h.agreed z).2.order
    · rw [zone]; exact List.nil_sublist _
    · rw [zone]; exact fun _ m => nomatch m
    · obtain ⟨zones, channelFault, channelNote, spill, probeFault, fanFail, flowNote, eqz⟩ := h.shown p
      have alike : ShownAlike [] w (w.map fun s => s.setZone z r) := .of_same rfl rfl
      refine ⟨fun y => ?_, channelFault, channelNote, spill, probeFault, fanFail, flowNote, eqz⟩
      by_cases e : y = z
      · subst e
        rw [zone]
        have before := zones y
        rw [inactive] at before
        exact (before.alike alike (by decide) (by decide) (by decide)).congr rfl rfl rfl Iff.rfl
      · rw [other e]
        exact (zones y).alike alike (by decide) (by decide) (by decide)
  refine but.evaluateSight ?_ fun _ => .inl ?_
  · refine ⟨?_, ?_, ?_, ?_, fun i c => (carried i c).elim, ?_, ?_, ?_⟩ <;> rw [zone]
    · exact (h.agreed z).2.order
    · exact List.nil_sublist _
    · rfl
    · exact nofun
    · exact fun _ m => nomatch m
    · exact fun _ m => nomatch m
    · exact fun _ => .inl (Nat.zero_min _).symm
  · rw [zone]
    rfl

theorem works_armZones (xs : List (Fin 6)) (nodup : xs.Nodup) {A : Fin 6 → Bool} {w : Work} (h : Works K A Z I w)
    (fresh : ∀ z ∈ xs, A z = false) : Works K (fun y => A y || decide (y ∈ xs)) Z I (xs.foldl Work.armZone w) := by
  induction xs generalizing A w with
  | nil => simpa using h
  | cons x xs ih =>
    obtain ⟨new, nodup⟩ := List.nodup_cons.1 nodup
    have rest := ih nodup (h.armZone (fresh x List.mem_cons_self)) fun z mem => by
      have ne : z ≠ x := fun e => new (e ▸ mem)
      rw [fresh z (List.mem_cons_of_mem x mem), decide_eq_false ne]
      rfl
    have same : (fun y => (A y || decide (y = x)) || decide (y ∈ xs)) = fun y => A y || decide (y ∈ x :: xs) := by
      funext y
      rw [Bool.or_assoc]
      congr 1
      simp [List.mem_cons]
    rw [same] at rest
    exact rest

/-! ## The whole sequence -/

theorem armReady_inUse (s : State) : s.begin.armReady.st.inUse = fun z => decide (z ∈ s.begin.armReady.st.usedZones) := by
  have placed := armReady_placed s
  generalize s.begin.armReady = w at placed
  funext z
  unfold State.inUse State.usedZones
  rw [placed.setup, show s.armedEmpty.setup.armed = true from rfl, Bool.true_and]
  simp [List.mem_filter]

theorem Works.armStop (h : Works (K.starting (i :: xs)) A Z I w) : Works (K.starting xs) A Z I (w.armStop i) := by
  have lawful : Lawful (K.starting xs) (w.armStop i) := h.lawful.armStop
  have turn : FansTurn (fun _ _ => False) w (w.armStop i) := by
    have stops (state : (w.st.fan i).state = .proving ∨ (w.st.fan i).state = .running) : FansTurn (fun _ _ => False) w (w.stopOrCoast i) :=
      fturn_stopOrCoast w i (by unfold Fan.takesClaims; rcases state with e | e <;> rw [e])
    unfold Work.armStop
    dsimp only
    split
    · split
      · exact stops (.inl ‹_›)
      · exact stops (.inr ‹_›)
      all_goals exact .refl _ _
    · exact .refl _ _
  exact h.turn turn (fun _ _ => id) lawful

theorem Works.armStops (xs : List (Fin 8)) {w : Work} (h : Works (K.starting xs) A Z I w) :
    Works (K.starting []) A Z I (xs.foldl Work.armStop w) := by
  induction xs generalizing w with
  | nil => exact h
  | cons x xs ih => exact ih h.armStop

theorem inUse_armStops (xs : List (Fin 8)) (w : Work) : (xs.foldl Work.armStop w).st.inUse = w.st.inUse := by
  induction xs generalizing w with
  | nil => rfl
  | cons x xs ih => exact (ih (w.armStop x)).trans (within_armStop w x).inUse

theorem inUse_armZones (xs : List (Fin 6)) (w : Work) : (xs.foldl Work.armZone w).st.inUse = w.st.inUse := by
  induction xs generalizing w with
  | nil => rfl
  | cons x xs ih => exact (ih (w.armZone x)).trans (within_armZone w x).inUse

theorem inUse_alarmPass (w : Work) (changed : Bool) (notes : List NoticeBody) : (w.alarmPass changed notes).st.inUse = w.st.inUse := by
  have blocks := (alarmPass_blocks w w.st.alarm changed notes).1
  rw [map_alarm_self] at blocks
  exact inUse_congr (by rw [blocks.setup]) fun i => by unfold State.chan; rw [blocks.chans]

theorem Works.alarmPass (h : Works K A Z I w) (changed : Bool) (notes : List NoticeBody) : Works K A Z I (w.alarmPass changed notes) := by
  have judged := h.judged (a := w.st.alarm) rfl (fun _ => rfl) rfl rfl changed notes
  rwa [map_alarm_self] at judged

theorem armZoned_steps (s : State) : s.begin.armZoned =
    ((inOpenOrder s.begin.armReady.st.choices s.begin.armReady.st.usedZones).foldl Work.armZone
      (s.begin.armReady.map fun t => { t with choices := t.choices + drawsFor s.begin.armReady.st.usedZones })).settle settleLimit := rfl

theorem Holds.armZoned (h : Holds K Z I s) (c : K.claims) (unarmed : s.setup.armed = false) :
    Works (K.starting s.startedFans) s.begin.armZoned.st.inUse Z I s.begin.armZoned := by
  have ready := h.armReady c unarmed
  have inUse := armReady_inUse s
  rw [armZoned_steps, settle_inUse, inUse_armZones]
  generalize s.begin.armReady = w at ready inUse
  have perm := inOpenOrder_perm w.st.choices w.st.usedZones
  generalize inOpenOrder w.st.choices w.st.usedZones = zs at perm
  have drawn : Works (K.starting s.startedFans) (fun _ => false) Z I
      (w.map fun t => { t with choices := t.choices + drawsFor w.st.usedZones }) :=
    ready.besideBlocks ⟨rfl, rfl, rfl, rfl, rfl, rfl, rfl, rfl⟩ rfl
  have used : (w.map fun t => { t with choices := t.choices + drawsFor w.st.usedZones }).st.inUse = fun z => false || decide (z ∈ zs) := by
    refine Eq.trans (b := w.st.inUse) rfl (inUse.trans (funext fun z => ?_))
    rw [Bool.false_or, decide_eq_decide]
    exact perm.mem_iff.symm
  rw [used]
  exact (works_armZones zs (perm.nodup_iff.2 ((List.nodup_finRange 6).filter _)) drawn fun _ _ => rfl).settle _

theorem Holds.arm (h : Holds K Z I s) (c : K.claims) (unarmed : s.setup.armed = false) : Holds K Z I (s.does Work.arm) := by
  have zoned := h.armZoned c unarmed
  have passed : Works (K.starting s.startedFans) s.begin.armZoned.st.inUse Z I s.begin.armPassed := (zoned.alarmPass false []).settle _
  have stopped : Works (K.starting []) s.begin.armZoned.st.inUse Z I s.begin.arm := by
    rw [Work.arm_eq]
    exact passed.armStops
  have lawful : Lawful K s.begin.arm :=
    Lawful.restarted (K := K) (p := (· ∈ [])) (q := K.started) stopped.lawful fun i mem => absurd mem List.not_mem_nil
  refine Works.doesIn (f := Work.arm) ⟨lawful, stopped.agreed, stopped.senses, stopped.shown⟩ (arm_done s) ?_
  rw [Work.arm_eq, inUse_armStops]
  unfold Work.armPassed
  rw [settle_inUse, inUse_alarmPass]

end

end Sys2Proof.Machine
end

section
/-! The agreement of the blocks through every effect; the statements about the fans' law and the alarm table. -/

namespace Sys2Proof.Machine

section
variable {K : Aims} {Z I : Prop} {s t a : State}

theorem readFlags_noteImage (c : Channel) : c.readFlags.noteImage = c.noteImage := by
  have set (m : FlagMark) : m.read.set = m.set := rfl
  unfold Channel.noteImage Channel.noted Channel.readFlags
  simp [set]

/-! ## Every effect -/

theorem Holds.effect (e : Effect s a) (h : Holds K Z I s) (c : K.claims) (unstarted : ∀ i, ¬K.started i) : Holds K Z I a := by
  have asked : Asked s.begin := h.asked
  have free {i : Fin 8} {src : Source} (own : ∀ z, src ≠ .zone z) : ∀ j z, ¬ClaimOf i src j z := fun _ z p => own z p.2
  cases e with
  | none => exact h
  | link l _ _ => exact h.besideBlocks ⟨rfl, rfl, rfl, rfl, rfl, rfl, rfl, rfl⟩
  | time t _ => exact h.besideBlocks ⟨rfl, rfl, rfl, rfl, rfl, rfl, rfl, rfl⟩
  | lamp t =>
    exact Works.beside h (.of_same rfl rfl rfl fun _ m => m) rfl rfl (h.lawful.beside rfl rfl rfl rfl) ⟨fun _ _ => rfl, fun _ => rfl, rfl⟩ rfl
  | millisecond lines => exact h.millisecond lines
  | powerOn lines _ => exact (holds_poweredOn c (fun _ => c) s lines).failsafeStart c
  | failsafe => exact h.failsafeStart c
  | putChannel i d cfg state reading range =>
    have turn : ChannelTurn i 1 s.begin (s.begin.putChannel i d) := turn_putChannel (memberOf_congr cfg) state
    refine h.onChannel (onChannel_putChannel (w := s.begin) ⟨by rw [cfg]; rfl, range⟩) turn (.inl ?_) (by decide)
    rw [putChannel_chan]
    exact .of_same cfg state reading
  | seen i => exact h.setChan rfl rfl rfl (readFlags_noteImage _) fun l => ⟨l.reading, l.peak, l.secA, l.secB⟩
  | span i k => exact h.setChan rfl rfl rfl rfl fun l => ⟨l.reading, l.peak, l.secA, l.secB⟩
  | moveChannel i d notes cfg range =>
    exact h.onChannel (onChannel_movedWith s.begin i notes cfg range) (turn_movedWith s.begin i notes cfg) (told_movedWith s.begin i notes d)
      (by decide)
  | sample i code _ =>
    obtain ⟨turn, told⟩ := turn_sample s.begin i code
    exact h.onChannel (onChannel_sample s.begin i code) turn told (by decide)
  | serviceFall =>
    have toggled : Holds K Z I (s.setLink { s.link with service := s.link.service.toggle }) := h.besideBlocks ⟨rfl, rfl, rfl, rfl, rfl, rfl, rfl, rfl⟩
    have kept := kept_forEachOpen (fun _ i k => Works.serviceFalls_kept k i) (s.setLink { s.link with service := s.link.service.toggle }).underTest
      _ toggled.kept
    refine kept.1.doesIn (done_nil ?_) kept.2
    exact forEachOpen_idle (fun _ i idle => serviceFalls_done idle i) _ _ rfl
  | acknowledge keys =>
    obtain ⟨images, paused, eqz⟩ := acknowledge_images s.alarm keys
    exact h.judged (fun s => s.alarm.acknowledge keys) (acknowledge_regime _ keys) images paused eqz _ []
  | mask x y =>
    obtain ⟨images, paused, eqz⟩ := setMask_images s.alarm x y s.room
    exact h.judged (fun _ => s.alarm.setMask x y s.room) (setMask_regime ..) images paused eqz _ _
  | setChannel i d unarmed => exact h.setChannel c unarmed i d
  | setProfile p r => exact h.besideBlocks ⟨rfl, rfl, rfl, rfl, rfl, rfl, rfl, rfl⟩
  | setZone z d unarmed order => exact h.setZone c unarmed z d order
  | setFan i d unarmed => exact h.setFan c unarmed i d
  | setProbe p d unarmed => exact h.setProbe c unarmed p d
  | setArbiter k w g unarmed => exact h.setArbiter c unarmed k w g
  | fanStart i d _ _ =>
    exact Holds.turn h (fturn_startManual s.begin i d asked) (free nofun) (h.lawful.startManual d) ((posts_startManual _ i d).done rfl (by decide))
  | fanStop i =>
    exact Holds.turn h (fturn_removeClaim s.begin i .manual asked) (free nofun) (h.lawful.removeClaim _) ((posts_removeClaim _ i _).done rfl (by decide))
  | fanLock i managed _ => exact h.lockFan (of_decide_eq_true managed)
  | fanRelease i locked => exact h.releaseFan locked
  | rotate z armed used =>
    have active : (s.zone z).active = true := (h.agreed z).1.trans (by unfold State.inUse; rw [armed, used]; rfl)
    exact Works.doesWithin (f := fun w => w.rotateZone z) (Works.rotateZone h active) ((pays_rotateZone s.begin z).done rfl (by decide))
      (within_rotateZone s.begin z)
  | setTime time =>
    have set : Holds K Z I (s.setTime { s.time with room := time.toNat }) := h.besideBlocks ⟨rfl, rfl, rfl, rfl, rfl, rfl, rfl, rfl⟩
    have kept := kept_forEachOpen (fun _ k l => l.1.fireSlot l.2 k true) (s.setTime { s.time with room := time.toNat }).dueSlots _ set.kept
    refine kept.1.doesIn (done_nil ?_) kept.2
    exact forEachOpen_idle (fun _ k idle => fireSlot_done idle k true) _ _ rfl
  | slotFire k =>
    obtain ⟨works, inUse⟩ := Works.fireSlot h rfl k false
    exact Works.doesIn (f := fun w => w.fireSlot k false) works (done_nil (fireSlot_done rfl k false)) inUse
  | arm unarmed _ => exact h.arm c unarmed
  | disarm _ => exact h.disarm c
  | zoneLevel z r active same => exact h.zoneLevel active same
  | eqz => exact h.eqz
  | flow i => exact Holds.turn (P := fun _ _ => False) h (fturn_takeFlow s.begin i) (fun _ _ => id) h.lawful.takeFlow ((posts_takeFlow _ i).done rfl (by decide))
  | fanFault i detail state => exact h.faulted state detail
  | minRun i state => exact h.minRun (unstarted i) state
  | coast i state => exact h.coast state
  | retry i state => exact h.retryFan state
  | manualEnds i =>
    have write : FansTurn (ClaimOf i .manual) s.begin (s.begin.map fun s => s.setFan i { s.fan i with manualTimer := none, manualDuration := none }) :=
      fturn_write s.begin i rfl rfl rfl rfl fun _ _ => rfl
    exact Holds.turn h (write.trans (fturn_removeClaim _ i .manual (write.asks asked))) (free nofun)
      ((h.lawful.write rfl rfl rfl rfl rfl rfl rfl).removeClaim _) (((Posts.of_eq rfl).trans (posts_removeClaim _ i _)).done rfl (by decide))
  | exerciseEnds i =>
    have write : FansTurn (ClaimOf i .exercise) s.begin (s.begin.map fun s => s.setFan i { s.fan i with exerciseTimer := none }) :=
      fturn_write s.begin i rfl rfl rfl rfl fun _ _ => rfl
    exact Holds.turn h (write.trans (fturn_removeClaim _ i .exercise (write.asks asked))) (free nofun)
      ((h.lawful.write rfl rfl rfl rfl rfl rfl rfl).removeClaim _) (((Posts.of_eq rfl).trans (posts_removeClaim _ i _)).done rfl (by decide))
  | exerciseDue i =>
    exact Holds.turn (P := fun _ _ => False) h (fturn_exerciseFallsDue s.begin i asked) (fun _ _ => id) h.lawful.exerciseFallsDue
      ((posts_exerciseFallsDue _ i).done rfl (by decide))
  | flowNoted i =>
    exact Holds.turn (P := fun _ _ => False) h (fturn_rewrite s.begin i rfl rfl rfl rfl) (fun _ _ => id) (h.lawful.rewrite rfl rfl rfl rfl rfl rfl rfl)
      ((posts_moveFan _ i _).done rfl (by decide))
  | flowCleared i =>
    exact Holds.turn (P := fun _ _ => False) h (fturn_rewrite s.begin i rfl rfl rfl rfl) (fun _ _ => id) (h.lawful.rewrite rfl rfl rfl rfl rfl rfl rfl)
      ((posts_moveFan _ i _).done rfl (by decide))
  | ageOut =>
    have write : FansTurn (fun _ _ => False) s.begin (s.begin.map fun s => s.setArb { s.arb with history := s.arb.history.drop 1 }) :=
      .of_same (within_setArb s rfl rfl rfl) rfl rfl rfl fun _ => .inl
    exact Holds.turn h (write.trans (fturn_consider _ (write.asks asked))) (fun _ _ => id)
      (h.lawful.reconsidered (fun a => { a with history := a.history.drop 1 }) rfl (by simp) rfl)
      (((Posts.of_eq rfl).trans (posts_consider _)).done rfl (by decide))
  | spacing =>
    have write : FansTurn (fun _ _ => False) s.begin (s.begin.map fun s => s.setArb { s.arb with spacing := none }) :=
      .of_same (within_setArb s rfl rfl rfl) rfl rfl rfl fun _ => .inl
    exact Holds.turn h (write.trans (fturn_consider _ (write.asks asked))) (fun _ _ => id)
      (h.lawful.reconsidered (fun a => { a with spacing := none }) rfl le_rfl rfl)
      (((Posts.of_eq rfl).trans (posts_consider _)).done rfl (by decide))
  | probe p r cfg _ _ =>
    exact Works.does (f := fun w => w.moveProbe p r) (Works.moveProbe h p cfg) ((posts_moveProbe _ p r).done rfl (by decide)) rfl fun _ => rfl

theorem Holds.step (h : Holds K Z I s) (c : K.claims) (unstarted : ∀ i, ¬K.started i) (e : step s = .next t) : Holds K Z I t :=
  step_keeps (P := Holds K Z I) (fun _ _ _ k => k.besideBlocks ⟨rfl, rfl, rfl, rfl, rfl, rfl, rfl, rfl⟩)
    (fun _ _ k => k.besideBlocks ⟨rfl, rfl, rfl, rfl, rfl, rfl, rfl, rfl⟩) (fun _ _ e k => k.effect e c unstarted) e h

/-! ## The claims' law and the zones' law -/

/-- The laws followed by the statements on the fans' law and on the alarm table. -/
def Aims.ofClaims : Aims := ⟨True, False, False, fun _ => False⟩

theorem stale_idle (z : Fin 6) : ¬s.begin.stale z := fun h => h.elim nofun nofun

theorem ClaimLaw.agrees (h : ClaimLaw s) (z : Fin 6) : s.begin.Agrees z where
  order := h.order z
  listed := h.listed z
  shortfall := h.shortfall z
  inactive := h.inactive z
  carried i := (h.held z i).1
  held i mem := .inl ((h.held z i).2 mem)
  available i mem := .inl (h.available z i mem)
  enough active := .inl (h.enough z active)

theorem ClaimLaw.holds (fans : FanLaw s) (h : ClaimLaw s) (senses : Z → ∀ z, s.begin.Senses z) (shown : I → Shown s.begin) :
    Holds .ofClaims Z I s :=
  ⟨fans.lawful (fun _ => h) nofun nofun, fun z => ⟨h.active z, h.agrees z⟩, senses, shown⟩

theorem Holds.claimLaw (h : Holds .ofClaims Z I s) : ClaimLaw s where
  order z := (h.agreed z).2.order
  listed z := (h.agreed z).2.listed
  active z := (h.agreed z).1
  inactive z := (h.agreed z).2.inactive
  held z i := ⟨(h.agreed z).2.carried i, fun mem => ((h.agreed z).2.held i mem).resolve_right fun x => stale_idle z x.2⟩
  available z i mem := ((h.agreed z).2.available i mem).resolve_right (stale_idle z)
  enough z active := ((h.agreed z).2.enough active).resolve_right (stale_idle z)
  shortfall z := (h.agreed z).2.shortfall
  unclaimed i := (h.lawful.1.fits i).unclaimed trivial
  waiting i := (h.lawful.1.fits i).claimed trivial
  stopping i runs := ((h.lawful.1.fits i).stopping trivial runs).resolve_right fun x => x.1

theorem ZoneLaw.senses (h : ZoneLaw s) (z : Fin 6) : s.begin.Senses z where
  sensed active := .inl ⟨h.sight z active, h.voted z active⟩
  spilt active := .inl (Bool.eq_iff_iff.2 ((h.spill z active).trans (State.spillIn_iff ..).symm))
  demand active := .inl (h.demand z active)

theorem Holds.zoneLaw (h : Holds .ofClaims True I s) : ZoneLaw s where
  sight z active := (((h.senses trivial z).sensed active).resolve_right nofun).1
  voted z active := (((h.senses trivial z).sensed active).resolve_right nofun).2
  spill z active := by
    have spilt : (s.zone z).spill = s.spillIn z := ((h.senses trivial z).spilt active).resolve_right nofun
    rw [spilt]
    exact State.spillIn_iff ..
  demand z active := ((h.senses trivial z).demand active).resolve_right nofun

/-! ## The images' law -/

theorem faultImage_eq (c : ChannelState) : c.faultImage = match c.cause with
    | some cause => .raised 2 (some ([FaultCause.loopOpen, .loopOver, .drift, .bumpFail, .noRecovery].idxOf cause))
    | none => .inactive := by
  unfold ChannelState.faultImage
  cases c.cause with
  | none => rfl
  | some cause => cases cause <;> rfl

theorem noteImage_eq (c : Channel) : c.noteImage = if ∃ k, (vget c.flags k).set = true then .raised 1 none else .inactive := by
  unfold Channel.noteImage Channel.noted
  simp

theorem probe_faultImage_eq (r : Probe) : r.faultImage =
    if r.state = some .fault then .raised 2 (r.detail.map [ProbeDetail.opened, .shorted].idxOf) else .inactive := by
  unfold Probe.faultImage
  cases r.detail with
  | none => rfl
  | some d => cases d <;> rfl

theorem failShown_eq (f : Fan) : f.failShown = if f.state = .fault ∨ f.state = .lockout .retries then
    .raised 2 (f.lastFault.map [FanFault.noProof, .flowLost].idxOf) else .inactive := by
  have image : f.failImage = .raised 2 (f.lastFault.map [FanFault.noProof, .flowLost].idxOf) := by
    unfold Fan.failImage
    cases f.lastFault with
    | none => rfl
    | some d => cases d <;> rfl
  have failed : f.failed = true ↔ f.state = .fault ∨ f.state = .lockout .retries := by
    unfold Fan.failed
    cases f.state with
    | lockout cause => cases cause <;> simp
    | _ => simp
  unfold Fan.failShown
  rw [image]
  simp only [failed]

theorem ImageLaw.shown (h : ImageLaw s) : Shown s.begin where
  zone z := ⟨h.gas z, h.blind z, h.shortfall z, h.paused z⟩
  channelFault i := (h.channelFault i).trans (faultImage_eq _).symm
  channelNote i := (h.channelNote i).trans (noteImage_eq _).symm
  spill p := h.spill p
  probeFault p := (h.probeFault p).trans (probe_faultImage_eq _).symm
  fanFail i := (h.fanFail i).trans (failShown_eq _).symm
  flowNote i := h.flowNote i
  eqz := h.eqz

theorem Shown.imageLaw (h : Shown s.begin) : ImageLaw s where
  channelFault i := (h.channelFault i).trans (faultImage_eq _)
  channelNote i := (h.channelNote i).trans (noteImage_eq _)
  gas z := (h.zone z).gas
  blind z := (h.zone z).blind
  shortfall z := (h.zone z).shortfall
  paused z := (h.zone z).paused
  spill p := h.spill p
  probeFault p := (h.probeFault p).trans (probe_faultImage_eq _)
  fanFail i := (h.fanFail i).trans (failShown_eq _)
  flowNote i := h.flowNote i
  eqz := h.eqz

end

/-! ## The statements -/

/-- Settles O55: the agreement of the blocks is kept by every step, and gives the three laws. -/
theorem everyStepKeepsTheFanLaw : Obligations.EveryStepKeepsTheFanLaw := by
  intro s t fans e
  refine ⟨?_, fun claims => ?_⟩
  · have lawful : Lawful ⟨False, False, False, fun _ => False⟩ s.begin := fans.lawful nofun nofun nofun
    exact (lawful.step (fun _ => id) e).fanLaw
  · have agreed : Holds .ofClaims False False s := claims.holds fans False.elim False.elim
    refine ⟨(agreed.step trivial (fun _ => id) e).claimLaw, fun zones => ?_⟩
    have senses : Holds .ofClaims True False s := claims.holds fans (fun _ => zones.senses) False.elim
    exact (senses.step trivial (fun _ => id) e).zoneLaw

/-- Settles O58: the table is kept by every effect, and the images with the agreement of the blocks. -/
theorem everyStepKeepsTheAlarmTable : Obligations.EveryStepKeepsTheAlarmTable := by
  intro s t e
  refine ⟨fun table => ?_, fun fans claims images => ?_⟩
  · exact step_keeps (P := fun s => TableLaw s.alarm) (fun _ _ _ p => p) (fun _ _ p => p) (fun _ _ e p => everyEffectKeepsTheTable e p) e table
  · have shown : Holds .ofClaims False True s := claims.holds fans False.elim fun _ => images.shown
    exact ((shown.step trivial (fun _ => id) e).shown trivial).imageLaw

end Sys2Proof.Machine
end

section
/-! Hand-overs of conditions that no regime is derived from: they reach no block; what a grant leads to. -/

namespace Sys2Proof.Machine

/-! ## Conditions that leave the regime -/

/-- The part but for the alarm unit's images, records, version and permit, and the notices. -/
structure Recorded (s t : State) : Prop where
  rest : t = { s with
    alarm := { s.alarm with
      images := t.alarm.images, records := t.alarm.records, version := t.alarm.version, permit := t.alarm.permit }
    link := { s.link with notices := t.link.notices } }

section
variable {s t u : State}

theorem Recorded.refl (s : State) : Recorded s s := ⟨rfl⟩

theorem Recorded.trans (a : Recorded s t) (b : Recorded t u) : Recorded s u := by
  refine ⟨?_⟩
  have e := b.rest
  rw [a.rest] at e
  exact e

theorem Recorded.fans (h : Recorded s t) : t.fans = s.fans := by rw [h.rest]
theorem Recorded.zones (h : Recorded s t) : t.zones = s.zones := by rw [h.rest]
theorem Recorded.arb (h : Recorded s t) : t.arb = s.arb := by rw [h.rest]
theorem Recorded.time (h : Recorded s t) : t.time = s.time := by rw [h.rest]
theorem Recorded.setup (h : Recorded s t) : t.setup = s.setup := by rw [h.rest]
theorem Recorded.choices (h : Recorded s t) : t.choices = s.choices := by rw [h.rest]
theorem Recorded.regime (h : Recorded s t) : t.alarm.regime = s.alarm.regime := by rw [h.rest]
theorem Recorded.fan (h : Recorded s t) (i : Fin 8) : t.fan i = s.fan i := by unfold State.fan; rw [h.fans]
theorem Recorded.zone (h : Recorded s t) (z : Fin 6) : t.zone z = s.zone z := by unfold State.zone; rw [h.zones]
theorem Recorded.requestTime (h : Recorded s t) (i : Fin 8) : t.requestTime i = s.requestTime i := by unfold State.requestTime; rw [h.arb]

end

/-- The classes whose conditions the regime is derived from (R140). -/
def AlarmClass.ruling : AlarmClass → Bool
  | .gas => true | .blind => true | .spill => true
  | .shortfall => false | .channelFault => false | .channelNote => false | .probeFault => false | .fanFail => false | .flowNote => false

/-- An image of another class changes no regime. -/
theorem regimeOf_taken (a : Alarm) {k : Fin 82} (image : Image) (room : Nat) (mute : (classOf k).ruling = false) :
    regimeOf (a.taken k image room) = regimeOf a := by
  have apart {j : Fin 82} (rules : (classOf j).ruling = true) : (a.taken k image room).image j = a.image j := by
    rw [Alarm.taken_image, if_neg]
    rintro rfl
    rw [mute] at rules
    cases rules
  exact regimeOf_congr (fun z => apart (by rw [classOf_keyGas]; rfl)) (fun z => apart (by rw [classOf_keyBlind]; rfl))
    (fun p => apart (by rw [classOf_keySpill]; rfl)) rfl

/-- A record of a class that is neither one of them nor SHORTFALL changes no permit (R142). -/
theorem permitOf_taken (a : Alarm) {k : Fin 82} (image : Image) (room : Nat) (armed : Bool) (mute : (classOf k).ruling = false)
    (met : classOf k ≠ .shortfall) : permitOf (a.taken k image room) armed = permitOf a armed := by
  have apart {j : Fin 82} (rules : (classOf j).ruling = true ∨ classOf j = .shortfall) :
      (a.taken k image room).record j = a.record j := by
    rw [Alarm.taken_record, if_neg]
    rintro rfl
    rcases rules with rules | rules
    · rw [mute] at rules; cases rules
    · exact met rules
  have gas (z) := apart (j := keyGas z) (.inl (by rw [classOf_keyGas]; rfl))
  have blind (z) := apart (j := keyBlind z) (.inl (by rw [classOf_keyBlind]; rfl))
  have spill (p) := apart (j := keySpill p) (.inl (by rw [classOf_keySpill]; rfl))
  have short (z) := apart (j := keyShortfall z) (.inr (classOf_keyShortfall z))
  unfold permitOf Alarm.anyRecord
  simp only [gas, blind, spill, short]
  rfl

/-- The alarm unit records a condition that leaves the regime, and hands nothing on. -/
theorem takeCondition_recorded (w : Work) {k : Fin 82} (image : Image) (mute : (classOf k).ruling = false)
    (derived : w.st.alarm.regime = regimeOf w.st.alarm) : Recorded w.st (w.takeCondition k image).st ∧
      (w.takeCondition k image).st.alarm.regime = regimeOf (w.takeCondition k image).st.alarm ∧
      (w.takeCondition k image).out = w.out := by
  have steady : regimeOf (w.st.alarm.taken k image w.st.room) = (w.st.alarm.taken k image w.st.room).regime :=
    (regimeOf_taken _ image _ mute).trans derived.symm
  have pass := takeCondition_pass w k image
  rw [alarmPass_steady _ _ steady] at pass
  rw [pass, noticeAll_st, foldl_notice, noticeAll_out]
  exact ⟨⟨rfl⟩, steady.symm, rfl⟩

theorem takeCondition_permit (w : Work) {k : Fin 82} (image : Image) (mute : (classOf k).ruling = false) (met : classOf k ≠ .shortfall)
    (derived : w.st.alarm.permit = permitOf w.st.alarm w.st.setup.armed) :
    (w.takeCondition k image).st.alarm.permit = w.st.alarm.permit := by
  obtain ⟨n, left⟩ := takeCondition_st w k image
  rw [left]
  exact (permitOf_taken _ image _ _ mute met).trans derived.symm

/-! ## A change of FLOW NOTE -/

theorem noteKey_mute (i : Fin 8) : (classOf (keyFlowNote i)).ruling = false ∧ classOf (keyFlowNote i) ≠ .shortfall := by
  rw [classOf_keyFlowNote]
  decide

/-- Work that hands over nothing but a FLOW NOTE leads to a change of its image and its record alone. -/
theorem finish_flowNote {w : Work} {i : Fin 8} {image : Image} (out : w.out = [.condition (keyFlowNote i) image])
    (derived : DerivedLaw w.st) :
    w.finish = { w.st with
      alarm := { w.st.alarm with
        images := w.finish.alarm.images, records := w.finish.alarm.records, version := w.finish.alarm.version }
      link := { w.st.link with notices := w.finish.link.notices } } ∧
    w.finish.alarm.image (keyFlowNote i) = image ∧
    ∀ k, k ≠ keyFlowNote i → w.finish.alarm.image k = w.st.alarm.image k ∧ w.finish.alarm.record k = w.st.alarm.record k := by
  obtain ⟨mute, met⟩ := noteKey_mute i
  obtain ⟨rest, -, quiet⟩ := takeCondition_recorded { w with out := [] } image mute derived.regime
  have permit := takeCondition_permit { w with out := [] } image mute met derived.permit
  have others := takeCondition_others { w with out := [] } (keyFlowNote i) image
  have done : w.finish = (({ w with out := [] } : Work).takeCondition (keyFlowNote i) image).st := by
    unfold Work.finish settleLimit Work.settle
    rw [out]
    dsimp only
    rw [settle_nil]
    · rfl
    · exact quiet
  rw [done]
  refine ⟨?_, others.1, others.2.1⟩
  have e := rest.rest
  rw [permit] at e
  exact e

end Sys2Proof.Machine
end

section
/-! The statement about the debounced flow and FLOW NOTE. -/

namespace Sys2Proof.Machine

/-! ## A fan's new record that leaves its availability -/

/-- The part with a fan's new record, and its notice where its state has changed (R96). -/
def State.moved (s : State) (i : Fin 8) (f : Fan) : State :=
  if f.state = (s.fan i).state then s.setFan i (f.remeasure (s.fan i) s.clock)
  else (s.setFan i (f.remeasure (s.fan i) s.clock)).notice (.fanChange i f.state f.reportedDetail)

theorem State.moved_of_same {s : State} {i : Fin 8} {f : Fan} (e : f.state = (s.fan i).state) :
    s.moved i f = s.setFan i (f.remeasure (s.fan i) s.clock) := if_pos e

theorem State.moved_of_change {s : State} {i : Fin 8} {f : Fan} (e : f.state ≠ (s.fan i).state) : s.moved i f =
    (s.setFan i (f.remeasure (s.fan i) s.clock)).notice (.fanChange i f.state f.reportedDetail) := if_neg e

/-- No zone is told: the conditions that change are all that is handed over. -/
theorem moveFan_untold (w : Work) (i : Fin 8) {f : Fan} (a : (w.st.fan i).available w.st.alarm.regime = f.available w.st.alarm.regime) :
    w.moveFan i f = { st := w.st.moved i f, out := w.out ++ (w.st.fan i).handed f i } := by
  have out : (w.moveFan i f).out = w.out ++ (w.st.fan i).handed f i := by rw [moveFan_out, if_pos a, List.append_nil]
  have st : (w.moveFan i f).st = w.st.moved i f := by
    have a' : (w.st.fan i).available w.st.alarm.regime = (f.remeasure (w.st.fan i) w.st.clock).available w.st.alarm.regime := a
    have put : ((if (f.remeasure (w.st.fan i) w.st.clock).state = (w.st.fan i).state then
        w.map fun s => s.setFan i (f.remeasure (w.st.fan i) w.st.clock)
      else (w.map fun s => s.setFan i (f.remeasure (w.st.fan i) w.st.clock)).notice
        (.fanChange i (f.remeasure (w.st.fan i) w.st.clock).state (f.remeasure (w.st.fan i) w.st.clock).reportedDetail)) : Work).st =
        w.st.moved i f := by
      unfold State.moved
      change (if f.state = (w.st.fan i).state then _ else _ : Work).st = _
      split <;> rfl
    unfold Work.moveFan
    dsimp only
    rw [if_pos a', handCondition_st, handCondition_st]
    exact put
  rw [← out, ← st]

theorem handed_nil {before after : Fan} (a : before.failed = after.failed) (b : before.flowNote = after.flowNote) (i : Fin 8) :
    before.handed after i = [] := by
  unfold Fan.handed
  rw [if_pos a, if_pos b]
  rfl

/-- A sound fan's change of FLOW NOTE is all that it hands over. -/
theorem handed_note {before after : Fan} (a : before.failed = after.failed) (i : Fin 8) : before.handed after i =
    if before.flowNote = after.flowNote then []
    else [.condition (keyFlowNote i) (if after.flowNote then .raised 1 none else .inactive)] := by
  unfold Fan.handed
  rw [if_pos a]
  rfl

/-! ## FLOW NOTE's measurements, case by case (R95) -/

theorem remeasure_eq (f before : Fan) (clock : Nat) : f.remeasure before clock = { f with
    noteTimer := if f.still && f.flow.debounced then
      (if before.still && before.flow.debounced then f.noteTimer else some (clock + 10000)) else none
    clearTimer := if f.flowNote && !f.flow.debounced && f.managed then
      (if before.flowNote && !before.flow.debounced && before.managed then f.clearTimer else some (clock + 10000)) else none } := rfl

theorem still_iff (f : Fan) : f.still = decide (f.state ∈ [.idle, .lockout .manual, .lockout .retries]) := by
  unfold Fan.still
  cases f.state with
  | lockout cause => cases cause <;> rfl
  | _ => rfl

theorem still_of_state {f : Fan} {x : FanState} (state : f.state = x) (moves : decide (x ∈ [.idle, .lockout .manual, .lockout .retries]) = false) :
    f.still = false := by
  rw [still_iff, ← moves]
  simp only [state]

section
variable {s : State} {i : Fin 8} {t : Nat}

/-- A fan with another flow is as available, and shows the same conditions. -/
theorem takeFlow_quiet (w : Work) (i : Fin 8) {f : Fan} (cfg : f.cfg = (w.st.fan i).cfg) (state : f.state = (w.st.fan i).state)
    (note : f.flowNote = (w.st.fan i).flowNote) :
    w.moveFan i f = { w with st := w.st.setFan i (f.remeasure (w.st.fan i) w.st.clock) } := by
  have a : (w.st.fan i).available w.st.alarm.regime = f.available w.st.alarm.regime := by unfold Fan.available; rw [cfg, state]
  have b : (w.st.fan i).failed = f.failed := by unfold Fan.failed; rw [state]
  rw [moveFan_untold w i a, State.moved_of_same state, handed_nil b note.symm, List.append_nil]

/-- The record of a fan whose debounced flow has changed. -/
def Fan.flowed (f : Fan) : Fan := { f with flow := { f.flow with debounced := !f.flow.debounced, timer := none } }

/-- The record of a running fan whose debounced flow has changed (R80). -/
def Fan.losing (f : Fan) (clock : Nat) : Fan :=
  { f.flowed with flowLossTimer := if f.flow.debounced then startTimer clock (seconds f.cfg.lossTolerance) else none }

theorem toggle_debounced (c : Conditioner) : c.toggle.debounced = !c.debounced := rfl

theorem takeFlow_proving (w : Work) (proving : (w.st.fan i).state = .proving) : w.takeFlow i =
    if (w.st.fan i).flow.debounced then w.moveFan i (w.st.fan i).flowed else (w.moveFan i (w.st.fan i).flowed).enterRunning i := by
  unfold Work.takeFlow
  dsimp only
  split
  · rw [toggle_debounced]
    cases (w.st.fan i).flow.debounced <;> rfl
  all_goals
    rename_i other
    rw [proving] at other
    cases other

theorem takeFlow_running (w : Work) (running : (w.st.fan i).state = .running) : w.takeFlow i =
    w.moveFan i ((w.st.fan i).losing w.st.clock) := by
  unfold Work.takeFlow
  dsimp only
  split
  case h_2 =>
    have timer (t : Option Nat) : (if (w.st.fan i).flow.toggle.debounced = true then none else t) =
        if (w.st.fan i).flow.debounced = true then t else none := by
      rw [toggle_debounced]
      cases (w.st.fan i).flow.debounced <;> rfl
    exact congrArg (fun t => w.moveFan i { (w.st.fan i).flowed with flowLossTimer := t }) (timer _)
  all_goals
    rename_i other
    rw [running] at other
    cases other

theorem takeFlow_other (w : Work) (proving : (w.st.fan i).state ≠ .proving) (running : (w.st.fan i).state ≠ .running) :
    w.takeFlow i = w.moveFan i (w.st.fan i).flowed := by
  unfold Work.takeFlow
  dsimp only
  split
  · exact absurd ‹_› proving
  · exact absurd ‹_› running
  all_goals rfl

/-- A proving fan with its flow present enters RUNNING: its notice is queued, and nothing is handed over (R76). -/
theorem enterRunning_quiet (w : Work) (proving : (w.st.fan i).state = .proving) (present : (w.st.fan i).flow.debounced = true) :
    w.enterRunning i = { w with st :=
      (w.st.setFan i { (w.st.fan i).running w.st.clock with noteTimer := none, clearTimer := none }).notice (.fanChange i .running none) } := by
  have a : (w.st.fan i).available w.st.alarm.regime = ((w.st.fan i).running w.st.clock).available w.st.alarm.regime := by
    unfold Fan.available; rw [proving]; rfl
  have b : (w.st.fan i).failed = ((w.st.fan i).running w.st.clock).failed := by unfold Fan.failed; rw [proving]; rfl
  have change_ : ((w.st.fan i).running w.st.clock).state ≠ (w.st.fan i).state := by rw [proving]; exact nofun
  have unmeasured : ((w.st.fan i).running w.st.clock).remeasure (w.st.fan i) w.st.clock =
      { (w.st.fan i).running w.st.clock with noteTimer := none, clearTimer := none } := by
    rw [remeasure_eq]
    have flow : ((w.st.fan i).running w.st.clock).flow.debounced = true := present
    have still : ((w.st.fan i).running w.st.clock).still = false := rfl
    rw [flow, still, Bool.not_true, Bool.and_false]
    rfl
  unfold Work.enterRunning
  rw [moveFan_untold w i a, State.moved_of_change change_, handed_nil b rfl, unmeasured, List.append_nil]
  rfl

theorem flowDebounce_runs (running : (s.fan i).flow.timer = some t) (due_ : t ≤ s.time.clock) :
    exec (.flowDebounce i) s = .next (s.does fun w => w.takeFlow i) := by
  change execFlowDebounce i s = _
  unfold execFlowDebounce
  rw [due_of_le (now := s.clock) running due_]
  rfl

theorem does_of_eq {f : Work → Work} {u : State} (e : f s.begin = { s.begin with st := u }) : s.does f = u := by
  have out : (f s.begin).out = [] := by rw [e]; rfl
  rw [does_quiet s out, e]

/-- A fan in its own state takes a change of its flow: nothing but its record changes. -/
theorem does_flowed {f : Work → Work} {g : Fan} (work : f s.begin = s.begin.moveFan i g) (cfg : g.cfg = (s.fan i).cfg)
    (state : g.state = (s.fan i).state) (note : g.flowNote = (s.fan i).flowNote) :
    s.does f = s.setFan i (g.remeasure (s.fan i) s.time.clock) :=
  does_of_eq (work.trans (takeFlow_quiet s.begin i cfg state note))

theorem keeps_refan {f g : Fan} (h : FanKept f g) : CascadeKeeps (s.setFan i f) (s.setFan i g) := by
  refine ⟨rfl, rfl, rfl, rfl, rfl, rfl, rfl, rfl, rfl, rfl, rfl, rfl, rfl, rfl, rfl, rfl, rfl, rfl, fun _ => .refl _, fun j => ?_, .refl _⟩
  rw [State.setFan_fan, State.setFan_fan]
  split
  · exact h
  · exact .refl _

theorem zonesKept_of_zones {u : State} (h : u.zones = s.zones) : ZonesKept s u :=
  .of_sense fun z => by unfold State.zone; rw [h]; exact .refl _

theorem keeps_notice (s : State) (b : NoticeBody) : CascadeKeeps s (s.notice b) := (calm_notice ({ st := s, out := [] } : Work) b).keeps

/-- FLOW NOTE's measurements over a change of the flow: what measures now did not before (R95). -/
theorem remeasure_flowed {f g : Fan} (state : g.state = f.state) (note : g.flowNote = f.flowNote) (flow : g.flow.debounced = !f.flow.debounced)
    (clock : Nat) : g.remeasure f clock = { g with
      noteTimer := if f.still && !f.flow.debounced then some (clock + 10000) else none
      clearTimer := if f.managed && f.flowNote && f.flow.debounced then some (clock + 10000) else none } := by
  have still : g.still = f.still := by unfold Fan.still; rw [state]
  have managed : g.managed = f.managed := by unfold Fan.managed; rw [state]
  rw [remeasure_eq, still, managed, note, flow]
  cases f.still <;> cases f.managed <;> cases f.flowNote <;> cases f.flow.debounced <;> rfl

/-- A proving fan that gains flow runs (R76). -/
theorem flowDebounce_gains (running : (s.fan i).flow.timer = some t) (due_ : t ≤ s.time.clock) (state : (s.fan i).state = .proving)
    (absent : (s.fan i).flow.debounced = false) : exec (.flowDebounce i) s = .next ((s.setFan i { s.fan i with
      state := .running, flow := { (s.fan i).flow with debounced := true, timer := none }, provingTimer := none
      retriesLeft := (s.fan i).cfg.retries, exerciseOwed := false
      exerciseDue := if (s.fan i).cfg.exInterval = 0 then none
        else some (s.time.clock + 3600000 * (s.fan i).cfg.exInterval)
      manualTimer := if (s.fan i).claims.manual then
        (s.fan i).manualDuration.bind (fun d => startTimer s.time.clock (1000 * d)) else none
      exerciseTimer := if (s.fan i).claims.exercise then
        startTimer s.time.clock (1000 * (s.fan i).cfg.exDuration) else none
      noteTimer := none, clearTimer := none }).notice (.fanChange i .running none)) := by
  rw [flowDebounce_runs running due_]
  have proving : (s.begin.st.fan i).state = .proving := state
  have first := takeFlow_quiet s.begin i (f := (s.fan i).flowed) rfl rfl rfl
  have note : ((s.fan i).flowed.remeasure (s.fan i) s.clock) = { (s.fan i).flowed with noteTimer := none, clearTimer := none } := by
    rw [remeasure_eq]
    have still : (s.fan i).flowed.still = false := still_of_state (f := (s.fan i).flowed) state rfl
    have present : (s.fan i).flowed.flow.debounced = true := by simp [Fan.flowed, absent]
    rw [still, present, Bool.not_true, Bool.and_false]
    rfl
  congr 1
  refine does_of_eq ?_
  rw [takeFlow_proving s.begin proving]
  change (if (s.fan i).flow.debounced = true then _ else _) = _
  rw [absent, if_neg Bool.false_ne_true]
  have went : s.begin.moveFan i (s.begin.st.fan i).flowed =
      { s.begin with st := s.setFan i { (s.fan i).flowed with noteTimer := none, clearTimer := none } } := by rw [← note]; exact first
  rw [went]
  have at_ : (s.setFan i { (s.fan i).flowed with noteTimer := none, clearTimer := none }).fan i =
      { (s.fan i).flowed with noteTimer := none, clearTimer := none } := State.setFan_fan_same ..
  rw [enterRunning_quiet _ (by rw [at_]; exact state) (by rw [at_]; simp [Fan.flowed, absent]), at_, setFan_setFan]
  unfold Fan.running Fan.flowed
  simp only [absent, nextExercise_eq, startTimer_seconds, Bool.not_false]
  rfl

/-- A running fan takes a change of its flow (R80). -/
theorem flowDebounce_runningFan (running : (s.fan i).flow.timer = some t) (due_ : t ≤ s.time.clock) (state : (s.fan i).state = .running) :
    exec (.flowDebounce i) s = .next (s.setFan i { s.fan i with
      flow := { (s.fan i).flow with debounced := !(s.fan i).flow.debounced, timer := none }
      flowLossTimer := if (s.fan i).flow.debounced then
        startTimer s.time.clock (1000 * (s.fan i).cfg.lossTolerance) else none
      noteTimer := none
      clearTimer := if (s.fan i).flowNote && (s.fan i).flow.debounced then some (s.time.clock + 10000) else none }) := by
  rw [flowDebounce_runs running due_]
  congr 1
  have took := does_flowed (g := (s.fan i).losing s.clock) (f := fun w => w.takeFlow i) (takeFlow_running s.begin state) rfl rfl rfl
  have still : (s.fan i).still = false := still_of_state state rfl
  have managed : (s.fan i).managed = true := decide_eq_true (by rw [state]; exact nofun)
  rw [took, remeasure_flowed (f := s.fan i) (g := (s.fan i).losing s.clock) rfl rfl rfl, still, managed, Bool.true_and]
  unfold Fan.losing
  rw [startTimer_seconds]
  rfl

/-- A fan in any other state, or a proving one that loses flow, takes a change of its flow. -/
theorem flowDebounce_other (running : (s.fan i).flow.timer = some t) (due_ : t ≤ s.time.clock) (state : (s.fan i).state ≠ .running)
    (gains : (s.fan i).state = .proving → (s.fan i).flow.debounced = true) :
    exec (.flowDebounce i) s = .next (s.setFan i { s.fan i with
      flow := { (s.fan i).flow with debounced := !(s.fan i).flow.debounced, timer := none }
      noteTimer := if (s.fan i).still && !(s.fan i).flow.debounced then some (s.time.clock + 10000) else none
      clearTimer := if (s.fan i).managed && (s.fan i).flowNote && (s.fan i).flow.debounced then some (s.time.clock + 10000)
        else none }) := by
  rw [flowDebounce_runs running due_]
  congr 1
  have work : s.begin.takeFlow i = s.begin.moveFan i (s.fan i).flowed := by
    by_cases proving : (s.fan i).state = .proving
    · exact (takeFlow_proving s.begin proving).trans (if_pos (gains proving))
    · exact takeFlow_other s.begin proving state
  have took := does_flowed (g := (s.fan i).flowed) (f := fun w => w.takeFlow i) work rfl rfl rfl
  rw [took, remeasure_flowed (f := s.fan i) (g := (s.fan i).flowed) rfl rfl rfl]
  rfl

/-- Every change of the flow leaves all but the fan as it was. -/
theorem flowDebounce_keeps (running : (s.fan i).flow.timer = some t) (due_ : t ≤ s.time.clock) :
    ∃ u, exec (.flowDebounce i) s = .next u ∧ CascadeKeeps (s.setFan i (s.fan i).flowed) u ∧ ZonesKept s u := by
  by_cases runs : (s.fan i).state = .running
  · exact ⟨_, flowDebounce_runningFan running due_ runs, keeps_refan ⟨rfl, rfl, rfl, rfl, rfl, id, id, id⟩, zonesKept_of_zones rfl⟩
  by_cases gains : (s.fan i).state = .proving ∧ (s.fan i).flow.debounced = false
  · refine ⟨_, flowDebounce_gains running due_ gains.1 gains.2, (keeps_refan ?_).trans (keeps_notice ..), zonesKept_of_zones rfl⟩
    exact ⟨rfl, congrArg (fun b => { (s.fan i).flow with debounced := b, timer := none }) (by rw [gains.2]; rfl), rfl, rfl, rfl,
      fun _ => rfl, id, fun _ => rfl⟩
  · have absent (proving : (s.fan i).state = .proving) : (s.fan i).flow.debounced = true := by
      by_contra none_
      exact gains ⟨proving, Bool.eq_false_iff.2 none_⟩
    exact ⟨_, flowDebounce_other running due_ runs absent, keeps_refan ⟨rfl, rfl, rfl, rfl, rfl, id, id, id⟩, zonesKept_of_zones rfl⟩

/-! ## FLOW NOTE comes and goes -/

/-- A fan's change of FLOW NOTE and of its timers, handed over as it changes. -/
theorem flowNoted_moveFan {f : Fan} (cfg : f.cfg = (s.fan i).cfg) (state : f.state = (s.fan i).state) :
    FlowNoted s i (f.remeasure (s.fan i) s.time.clock) (s.does fun w => w.moveFan i f) := by
  have a : (s.fan i).available s.alarm.regime = f.available s.alarm.regime := by unfold Fan.available; rw [cfg, state]
  have b : (s.fan i).failed = f.failed := by unfold Fan.failed; rw [state]
  have moved : s.begin.moveFan i f =
      { st := s.setFan i (f.remeasure (s.fan i) s.time.clock), out := (s.fan i).handed f i } := by
    rw [moveFan_untold s.begin i a]
    exact congrArg₂ Work.mk (State.moved_of_same state) (List.nil_append _)
  have does_ : (s.does fun w => w.moveFan i f) = (s.begin.moveFan i f).finish := rfl
  rw [does_, moved]
  rw [handed_note b]
  refine ⟨?_, fun same => ?_, fun other derived => ?_⟩
  · refine settle_settles_quiet (w := { st := s.setFan i (f.remeasure (s.fan i) s.time.clock), out := _ }) settleLimit ?_
    split
    · exact fun h m => nomatch m
    · exact fun h m => List.mem_singleton.1 m ▸ rfl
  · exact finish_nil (if_pos (show (s.fan i).flowNote = f.flowNote from same.symm))
  · have note : (s.fan i).flowNote ≠ f.flowNote := fun e => other e.symm
    exact finish_flowNote (w := { st := s.setFan i (f.remeasure (s.fan i) s.time.clock), out := _ }) (if_neg note)
      ⟨derived.regime, derived.permit⟩

theorem flowNoteExpiry_runs (running : (s.fan i).noteTimer = some t) (due_ : t ≤ s.time.clock) :
    exec (.flowNoteExpiry i) s = .next (s.does fun w => w.moveFan i { s.fan i with flowNote := true, noteTimer := none }) := by
  change execFlowNoteExpiry i s = _
  unfold execFlowNoteExpiry
  rw [due_of_le (now := s.clock) running due_]
  rfl

theorem flowClearExpiry_runs (running : (s.fan i).clearTimer = some t) (due_ : t ≤ s.time.clock) :
    exec (.flowClearExpiry i) s = .next (s.does fun w => w.moveFan i { s.fan i with flowNote := false, clearTimer := none }) := by
  change execFlowClearExpiry i s = _
  unfold execFlowClearExpiry
  rw [due_of_le (now := s.clock) running due_]
  rfl

/-- A fan whose FLOW NOTE becomes active stops the flow-note timer, and measures for the end where its flow is absent (R95). -/
theorem remeasure_noted (f : Fan) (clock : Nat) : ({ f with flowNote := true, noteTimer := none } : Fan).remeasure f clock = { f with
    flowNote := true, noteTimer := none
    clearTimer := if f.managed && !f.flow.debounced then (if f.flowNote then f.clearTimer else some (clock + 10000)) else none } := by
  rw [remeasure_eq]
  have still : ({ f with flowNote := true, noteTimer := none } : Fan).still = f.still := rfl
  have managed : ({ f with flowNote := true, noteTimer := none } : Fan).managed = f.managed := rfl
  rw [still, managed]
  cases f.still <;> cases f.managed <;> cases f.flowNote <;> cases f.flow.debounced <;> rfl

/-- A fan whose FLOW NOTE becomes inactive stops the flow-clear timer, and goes on measuring for the next (R95). -/
theorem remeasure_cleared (f : Fan) (clock : Nat) : ({ f with flowNote := false, clearTimer := none } : Fan).remeasure f clock = { f with
    flowNote := false, clearTimer := none
    noteTimer := if f.still && f.flow.debounced then f.noteTimer else none } := by
  rw [remeasure_eq]
  have still : ({ f with flowNote := false, clearTimer := none } : Fan).still = f.still := rfl
  rw [still]
  cases f.still <;> cases f.flow.debounced <;> rfl

end

/-- Settles O43, by the fan's state at a change of its flow; FLOW NOTE's hand-over reaches nothing beside its image and its record. -/
theorem flowEventsAct : Obligations.FlowEventsAct := by
  intro i t s due_ still managed
  have still_ : (s.fan i).still = still := still_iff _
  refine ⟨fun running => ⟨flowDebounce_keeps running due_, fun proving absent => flowDebounce_gains running due_ proving absent,
    fun runs => flowDebounce_runningFan running due_ runs, fun runs gains => ?_⟩, fun running => ?_, fun running => ?_⟩
  · rw [flowDebounce_other running due_ runs gains, still_]
    rfl
  · refine ⟨_, flowNoteExpiry_runs running due_, ?_⟩
    have noted := flowNoted_moveFan (s := s) (i := i) (f := { s.fan i with flowNote := true, noteTimer := none }) rfl rfl
    rw [remeasure_noted] at noted
    exact noted
  · refine ⟨_, flowClearExpiry_runs running due_, ?_⟩
    have noted := flowNoted_moveFan (s := s) (i := i) (f := { s.fan i with flowNote := false, clearTimer := none }) rfl rfl
    rw [remeasure_cleared, still_] at noted
    exact noted

end Sys2Proof.Machine
end

section
/-! What a consideration and its grant leave; the statement about the start arbiter. -/

namespace Sys2Proof.Machine

/-! ## The grant, to its end -/

/-- The condition that a granted fan hands over: the end of its FLOW NOTE (R95). -/
def noteEnd (f : Fan) (i : Fin 8) : List Handover := if f.flowNote then [.condition (keyFlowNote i) .inactive] else []

section
variable {w v : Work} {u t : State} {i j : Fin 8}

/-- A waiting fan that nothing inhibits is as available as a proving one. -/
theorem available_proving {f : Fan} {regime : Regime} (waits : f.state = .waiting)
    (free : (decide (regime = .critical) && decide (f.cfg.rating = .ordinary)) = false) (clock : Nat) :
    f.available regime = (f.proving clock).available regime := by
  unfold Fan.available
  rw [waits, free]
  rfl

theorem enterProving_out (waits : (w.st.fan i).state = .waiting)
    (free : (decide (w.st.alarm.regime = .critical) && decide ((w.st.fan i).cfg.rating = .ordinary)) = false) :
    (w.enterProving i).out = w.out ++ noteEnd (w.st.fan i) i := by
  have sound : (w.st.fan i).failed = ((w.st.fan i).proving w.st.clock).failed := by unfold Fan.failed; rw [waits]; rfl
  have first : (w.moveFan i ((w.st.fan i).proving w.st.clock)).out = w.out ++ noteEnd (w.st.fan i) i := by
    rw [moveFan_untold w i (available_proving waits free _), handed_note sound]
    refine congrArg (w.out ++ ·) ?_
    unfold noteEnd
    cases h : (w.st.fan i).flowNote <;> rfl
  unfold Work.enterProving
  dsimp only
  split
  · rename_i present
    have fan := moveFan_fan w i ((w.st.fan i).proving w.st.clock)
    rw [enterRunning_quiet _ (by rw [fan]; rfl) (by rw [fan]; exact present)]
    exact first
  · exact first

theorem grant_out_note (waits : (w.st.fan i).state = .waiting) (free : w.st.inhibited i = false) :
    (w.grant i).out = w.out ++ noteEnd (w.st.fan i) i := by
  have fan := counted_fan w i
  have out := enterProving_out (w := w.counted i) (i := i) (by rw [fan]; exact waits) (by rw [fan]; exact free)
  rw [Work.grant_eq, out, fan]
  rfl

/-- Work that has granted fan `j` a start, and hands over no more than the grant does. -/
structure HasGranted (u : State) (j : Fin 8) (v : Work) : Prop where
  keeps : CascadeKeeps u v.st
  zones : v.st.zones = u.zones
  arb : v.st.arb = u.arb.granted j u.time.clock
  fan : v.st.fan j = (u.fan j).startedAt u.time.clock
  others : ∀ i, i ≠ j → v.st.fan i = u.fan i
  alarm : v.st.alarm = u.alarm
  quiet : ∀ h ∈ v.out, h.quiet = true
  note : (u.fan j).state = .waiting → u.inhibited j = false → v.out = noteEnd (u.fan j) j

theorem startedAt_count (f : Fan) (clock : Nat) : (f.startedAt clock).startCount = min 65535 (f.startCount + 1) := by
  unfold Fan.startedAt
  dsimp only
  split <;> rfl

/-- Work that hands over at most the end of a FLOW NOTE moves neither a fan nor the arbiter any more. -/
theorem finish_noteEnd {f : Fan} (out : v.out = noteEnd f i) (derived : DerivedLaw v.st) : Recorded v.st v.finish := by
  unfold noteEnd at out
  split at out
  · refine ⟨(finish_flowNote out derived).1.trans ?_⟩
    have permit : v.finish.alarm.permit = v.st.alarm.permit := by rw [(finish_flowNote out derived).1]
    rw [permit]
  · rw [finish_nil out]
    exact .refl _

theorem HasGranted.granted (h : HasGranted u j v) (free : u.inhibited j = false) (asked : (u.requestTime j).isSome = true) :
    Granted u j v.finish := by
  have after := settle_settles_quiet settleLimit h.quiet
  have spaced : v.st.arb.spacing.isSome = true := by rw [h.arb]; rfl
  obtain ⟨history, spacing, lastGrant, counts⟩ := after.ungranted spaced
  have count (i : Fin 8) : (v.finish.fan i).startCount = (v.st.fan i).startCount := counts i
  have recorded (law : FanLaw u) (derived : DerivedLaw u) : Recorded v.st v.finish :=
    finish_noteEnd (h.note ((law.waiting j).1 asked) free)
      ⟨by rw [h.alarm]; exact derived.regime, by rw [h.alarm, h.keeps.setup]; exact derived.permit⟩
  refine ⟨h.keeps.trans after.keeps, (zonesKept_of_zones h.zones).trans after.zones, history.trans (by rw [h.arb]; rfl),
    lastGrant.trans (by rw [h.arb]; rfl), spacing.trans (by rw [h.arb, ← seconds_eq]; rfl),
    (count j).trans (by rw [h.fan, startedAt_count]), fun i ne => (count i).trans (by rw [h.others i ne]),
    fun law derived i ne => ⟨?_, ?_⟩, fun law derived => ⟨?_, ?_⟩⟩
  · rw [(recorded law derived).fan, h.others i ne]
  · rw [(recorded law derived).requestTime]
    unfold State.requestTime
    rw [h.arb]
    exact vget_vset_ne _ _ ne.symm
  · rw [(recorded law derived).requestTime]
    unfold State.requestTime
    rw [h.arb]
    exact vget_vset_same ..
  · rw [(recorded law derived).fan, h.fan]

theorem within_grant (w : Work) (i : Fin 8) : Within w.st (w.grant i).st := by
  have granted : Within w.st (w.map fun s => s.setArb (s.arb.granted i s.clock)).st := within_mapArb w ⟨rfl, rfl, rfl⟩
  exact (granted.trans (within_mapFan _ i fun s => { s.fan i with startCount := countStart (s.fan i).startCount })).trans
    (within_enterProving _ i)

theorem hasGranted_grant (out : w.out = []) (j : Fin 8) : HasGranted w.st j (w.grant j) := by
  have calm := calm_grant w j
  obtain ⟨new, grown, quiet⟩ := calm.out
  have within := within_grant w j
  refine ⟨calm.keeps, grant_zones w j, grant_arb w j, grant_fan w j, fun i ne => (same_grant i w ne).1, within.alarm, ?_, fun waits free => ?_⟩
  · rw [grown, out]
    exact quiet
  · rw [grant_out_note waits free, out]
    rfl

/-- What a consideration leaves, where nothing else is left to be handed over (R108, R109). -/
theorem considered (out : w.out = []) : Considered w.st w.consider.finish := by
  refine ⟨fun none_ => ?_, fun j choice => ?_⟩
  · rw [consider_none none_, finish_nil out]
  · obtain ⟨-, -, asked, free⟩ := grantChoice_some choice
    rw [consider_some choice]
    exact (hasGranted_grant out j).granted free asked

/-! ## Class, inhibition and grant order (R106, R107, R109) -/

theorem anyZone_iff (c : Claims) : c.anyZone = true ↔ ∃ z, vget c.zones z = true := by simp [Claims.anyZone]

theorem classRank_eq (s : State) (i : Fin 8) [Decidable (s.alarm.regime = .critical ∨
    ∃ z, vget (s.fan i).claims.zones z = true ∧ (s.zone z).demand = some .purge)] : s.classRank i =
    if s.alarm.regime = .critical ∨ ∃ z, vget (s.fan i).claims.zones z = true ∧ (s.zone z).demand = some .purge then 0
    else if (s.fan i).claims.anyZone then 1 else if (s.fan i).claims.manual then 2 else 3 := by
  unfold State.classRank
  dsimp only
  by_cases critical : s.alarm.regime = .critical
  · rw [if_pos critical, if_pos (.inl critical)]
  · by_cases purge : ∃ z, vget (s.fan i).claims.zones z = true ∧ (s.zone z).demand = some .purge
    · rw [if_neg critical, if_pos (by simpa using purge), if_pos (.inr purge)]
    · rw [if_neg critical, if_neg (by simpa using purge), if_neg (not_or.2 ⟨critical, purge⟩)]

theorem rank_iff {A B C : Prop} [Decidable A] [Decidable B] [Decidable C] {r : Fin 4}
    (h : r = if A then 0 else if B then 1 else if C then 2 else 3) :
    (r = 0 ↔ A) ∧ (r = 1 ↔ ¬A ∧ B) ∧ (r = 2 ↔ ¬A ∧ ¬B ∧ C) ∧ (r = 3 ↔ ¬A ∧ ¬B ∧ ¬C) := by
  subst h
  by_cases a : A
  · simp [a]
  · by_cases b : B
    · simp [a, b]
    · by_cases c : C
      · simp [a, b, c]
      · simp [a, b, c]

theorem grantsBefore_iff (s : State) (i j : Fin 8) : s.grantsBefore i j = true ↔ s.classRank i < s.classRank j ∨
    (s.classRank i = s.classRank j ∧ ((s.requestTime i).getD 0 < (s.requestTime j).getD 0 ∨
      ((s.requestTime i).getD 0 = (s.requestTime j).getD 0 ∧ i < j))) := by
  unfold State.grantsBefore
  split
  next same =>
    rw [same]
    dsimp only
    split
    next e => simp [e]
    next ne => simp [ne]
  next ne => simp [ne]

theorem grantsBefore_trans (s : State) (x y z : Fin 8) (a : s.grantsBefore x y = true) (b : s.grantsBefore y z = true) :
    s.grantsBefore x z = true := by
  rw [grantsBefore_iff] at a b ⊢
  omega

theorem grantsBefore_of_ne (s : State) {i j : Fin 8} (ne : i ≠ j) : s.grantsBefore i j = true ∨ s.grantsBefore j i = true := by
  rw [grantsBefore_iff, grantsBefore_iff]
  omega

theorem grantOrder_sorted (s : State) : s.grantOrder.Pairwise fun i j => s.grantsBefore i j = true :=
  pairwise_sortBy (grantsBefore_trans s) (((List.nodup_finRange 8).filter _).imp (grantsBefore_of_ne s))

theorem mem_grantOrder {s : State} {i : Fin 8} : i ∈ s.grantOrder ↔ (s.requestTime i).isSome = true := by
  unfold State.grantOrder
  rw [mem_sortBy]
  simp [State.waitingFans]

/-- The first of an ordered list to pass a test stands before every other that passes it. -/
theorem find_before {α : Type} {before : α → α → Prop} {test : α → Bool} {xs : List α} {x y : α} (sorted : xs.Pairwise before)
    (found : xs.find? test = some x) (mem : y ∈ xs) (passes : test y = true) (ne : y ≠ x) : before x y := by
  obtain ⟨-, front, back, rfl, fails⟩ := List.find?_eq_some_iff_append.1 found
  rcases List.mem_append.1 mem with mem | mem
  · have := fails y mem
    rw [passes] at this
    cases this
  · rcases List.mem_cons.1 mem with e | mem
    · exact absurd e ne
    · exact (List.pairwise_cons.1 (List.pairwise_append.1 sorted).2.1).1 y mem

/-- The granted fan stands before every other that may be granted (R109). -/
theorem grantChoice_first {s : State} {i j : Fin 8} (choice : s.grantChoice = some i) (ne : j ≠ i)
    (asked : (s.requestTime j).isSome = true) (free : s.inhibited j = false) : s.grantsBefore i j = true := by
  unfold State.grantChoice at choice
  split at choice
  · exact find_before (before := fun i j => s.grantsBefore i j = true) (grantOrder_sorted s) choice (mem_grantOrder.2 asked) (by rw [free]; rfl) ne
  · cases choice

/-! ## The arbiter's expiries -/

/-- A change of the arbiter that leaves the waiting set and the settings has a grant considered. -/
theorem does_arbiter {s : State} {a : Arbiter} {g : State → Arbiter} (set : g s = a) :
    Considered (s.setArb a) (s.does fun w => (w.map fun s => s.setArb (g s)).consider) := by
  subst set
  exact considered (w := s.begin.map fun s => s.setArb (g s)) rfl

theorem agesOut_of {s : State} {t : Nat} {rest : List Nat} (history : s.arb.history = t :: rest) (due_ : t + 1000 * s.arb.w ≤ s.time.clock) :
    s.agesOut = true := by
  unfold State.agesOut
  rw [history]
  dsimp only
  rw [seconds_eq]
  exact decide_eq_true due_

/-- Either expiry of the arbiter considers a grant on the arbiter that it leaves. -/
theorem arbiter_expires {c : Instr} {a : Arbiter} {s : State}
    (h : (∃ t rest, c = .historyAgeOut ∧ s.arb.history = t :: rest ∧ t + 1000 * s.arb.w ≤ s.time.clock ∧
        a = { s.arb with history := rest }) ∨
      (∃ t, c = .spacingExpiry ∧ s.arb.spacing = some t ∧ t ≤ s.time.clock ∧ a = { s.arb with spacing := none })) :
    a.waiting = s.arb.waiting ∧ a.k = s.arb.k ∧ a.w = s.arb.w ∧ a.g = s.arb.g ∧
      ∃ u, exec c s = .next u ∧ Considered (s.setArb a) u := by
  rcases h with ⟨t, rest, rfl, history, due_, rfl⟩ | ⟨t, rfl, spacing, due_, rfl⟩
  · refine ⟨rfl, rfl, rfl, rfl, _, ?_, does_arbiter (g := fun s => { s.arb with history := s.arb.history.drop 1 }) (by rw [history]; rfl)⟩
    change execHistoryAgeOut s = _
    unfold execHistoryAgeOut
    rw [agesOut_of history due_]
    rfl
  · refine ⟨rfl, rfl, rfl, rfl, _, ?_, does_arbiter (g := fun s => { s.arb with spacing := none }) rfl⟩
    change execSpacingExpiry s = _
    unfold execSpacingExpiry
    rw [due_of_le (now := s.clock) spacing due_]
    rfl

theorem fanLaw_setArb {s : State} {a : Arbiter} (law : FanLaw s) (waiting : a.waiting = s.arb.waiting) : FanLaw (s.setArb a) := by
  refine ⟨law.output, fun i => ?_, law.unarmed, law.absent, law.managed, law.failsafe⟩
  have same : (s.setArb a).requestTime i = s.requestTime i := congrArg (vget · i) waiting
  rw [same]
  exact law.waiting i

theorem keeps_setArb (s : State) {a : Arbiter} (k : a.k = s.arb.k) (w : a.w = s.arb.w) (g : a.g = s.arb.g) : CascadeKeeps s (s.setArb a) :=
  (calm_setArb (g := fun _ => a) ({ st := s, out := [] } : Work) k w g).keeps

theorem startedAt_stopped {f : Fan} (absent : f.flow.debounced = false) (clock : Nat) : f.startedAt clock = { f with
    state := .proving, output := true, startCount := min 65535 (f.startCount + 1), stopPending := false
    provingTimer := startTimer clock (1000 * f.cfg.proving), minRunTimer := startTimer clock (1000 * f.cfg.minRun)
    minRunElapsed := decide (f.cfg.minRun = 0), coastTimer := none, retryTimer := none, flowNote := false
    noteTimer := none, clearTimer := none } := by
  unfold Fan.startedAt
  dsimp only
  rw [absent]
  exact if_neg Bool.false_ne_true

theorem startedAt_flowing {f : Fan} (present : f.flow.debounced = true) (clock : Nat) : f.startedAt clock = { f with
    state := .running, output := true, startCount := min 65535 (f.startCount + 1), stopPending := false
    provingTimer := none, minRunTimer := startTimer clock (1000 * f.cfg.minRun)
    minRunElapsed := decide (f.cfg.minRun = 0), coastTimer := none, retryTimer := none, flowNote := false
    noteTimer := none, clearTimer := none
    retriesLeft := f.cfg.retries, exerciseOwed := false
    exerciseDue := if f.cfg.exInterval = 0 then none else some (clock + 3600000 * f.cfg.exInterval)
    manualTimer := if f.claims.manual then f.manualDuration.bind (fun d => startTimer clock (1000 * d)) else none
    exerciseTimer := if f.claims.exercise then startTimer clock (1000 * f.cfg.exDuration) else none } := by
  unfold Fan.startedAt
  dsimp only
  rw [present]
  exact if_pos rfl

end

/-- Settles O44: the choice is the first uninhibited fan of the sorted waiting set, and a grant's cascade ends with its FLOW NOTE. -/
theorem arbiterGrantsTheFirstEligibleFan : Obligations.ArbiterGrantsTheFirstEligibleFan := by
  refine ⟨fun i s => ?_, fun s => ⟨fun i choice => ?_, fun none_ => ?_⟩, fun c a s h => ?_⟩
  · dsimp only
    have ranks := rank_iff (classRank_eq s i)
    rw [anyZone_iff] at ranks
    obtain ⟨urgent, zoned, manual, exercise⟩ := ranks
    refine ⟨urgent, zoned, manual, exercise, ?_⟩
    unfold State.inhibited
    rw [Bool.and_eq_true, decide_eq_true_eq, decide_eq_true_eq]
  · obtain ⟨open_, unspaced, asked, free⟩ := grantChoice_some choice
    exact ⟨open_, unspaced, asked, free, fun j ne asked free => (grantsBefore_iff ..).1 (grantChoice_first choice ne asked free)⟩
  · rcases grantChoice_none none_ with full | spaced | inhibited
    · exact .inl full
    · exact .inr (.inl fun e => by rw [e] at spaced; cases spaced)
    · exact .inr (.inr inhibited)
  · obtain ⟨waiting, k, w, g, u, runs, considered_⟩ := arbiter_expires h
    refine ⟨fun none_ => by rw [runs, considered_.1 none_], fun i choice => ⟨u, runs, ?_⟩⟩
    have granted := considered_.2 i choice
    have zones : ZonesKept s (s.setArb a) := zonesKept_of_zones rfl
    refine ⟨(keeps_setArb s k w g).trans granted.keeps, zones.trans granted.zones, granted.history, granted.lastGrant, ?_, granted.counted,
      granted.uncounted, fun law derived => ?_⟩
    · rw [granted.spacing, ← g]
      rfl
    · obtain ⟨left, placed⟩ := granted.placed (fanLaw_setArb law waiting) ⟨derived.regime, derived.permit⟩
      exact ⟨left, fun absent => placed.trans (startedAt_stopped absent _), fun present => placed.trans (startedAt_flowing present _)⟩

end Sys2Proof.Machine
end

section
/-! Work at one fan, said whole: entering WAITING and IDLE, a claim that comes, an exercise that is tested, a claim that ends. -/

namespace Sys2Proof.Machine

section
variable {w : Work} {s : State} {i : Fin 8} {f : Fan}

/-! ## Entering WAITING and IDLE -/

/-- Fan `i`, at the record `f`, asks for a start: it has entered WAITING at this instant (R74). -/
def State.asking (s : State) (i : Fin 8) (f : Fan) : State :=
  ((s.setFan i { f with
    state := .waiting, coastTimer := none, noteTimer := none
    clearTimer := if f.flowNote && !f.flow.debounced then f.clearTimer else none }).notice (.fanChange i .waiting none)).setArb
    { s.arb with waiting := vset s.arb.waiting i (some s.time.clock) }

/-- Fan `i`, at the record `f`, has entered IDLE from a state in which it did not measure for FLOW NOTE. -/
def State.idling (s : State) (i : Fin 8) (f : Fan) : State :=
  (s.setFan i { f with
    state := .idle, coastTimer := none, retryTimer := none
    noteTimer := if f.flow.debounced then some (s.time.clock + 10000) else none
    clearTimer := if f.flowNote && !f.flow.debounced then f.clearTimer else none }).notice (.fanChange i .idle none)

/-- The states in which a fan is available where CRITICAL does not withhold it, but neither proves nor runs. -/
def FanState.patient : FanState → Bool
  | .idle => true | .waiting => true | .coasting => true
  | .proving => false | .running => false | .unmanaged => false | .fault => false | .lockout _ => false

theorem patient_iff (x : FanState) : x.patient = true ↔ x = .idle ∨ x = .waiting ∨ x = .coasting := by
  cases x <;> simp [FanState.patient]

theorem patient_available (f g : Fan) (cfg : f.cfg = g.cfg) (a : f.state.patient = true) (b : g.state.patient = true) (regime : Regime) :
    f.available regime = g.available regime := by
  unfold Fan.available
  rw [cfg]
  rcases (patient_iff _).1 a with a | a | a <;> rcases (patient_iff _).1 b with b | b | b <;> rw [a, b]

theorem patient_sound {f : Fan} (a : f.state.patient = true) : f.failed = false := by
  unfold Fan.failed
  rcases (patient_iff _).1 a with a | a | a <;> rw [a]

theorem patient_managed {f : Fan} (a : f.state.patient = true) : f.managed = true :=
  decide_eq_true fun e => by rw [e] at a; cases a

/-- Between two such states a fan hands nothing over. -/
theorem moveFan_patient (w : Work) (i : Fin 8) (cfg : f.cfg = (w.st.fan i).cfg) (a : (w.st.fan i).state.patient = true)
    (b : f.state.patient = true) (note : f.flowNote = (w.st.fan i).flowNote) : w.moveFan i f = { w with st := w.st.moved i f } := by
  rw [moveFan_untold w i (patient_available _ _ cfg.symm a b _), handed_nil ((patient_sound a).trans (patient_sound b).symm) note.symm,
    List.append_nil]

/-- The record of a fan that enters WAITING, and of one that enters IDLE, before FLOW NOTE's measurements follow. -/
def Fan.toWaiting (f : Fan) : Fan := { f with state := .waiting, coastTimer := none }
def Fan.toIdle (f : Fan) : Fan := { f with state := .idle, coastTimer := none, retryTimer := none }

theorem remeasure_toWaiting {g : Fan} (a : g.state.patient = true) (clock : Nat) :
    g.toWaiting.remeasure g clock = { g with
      state := .waiting, coastTimer := none, noteTimer := none
      clearTimer := if g.flowNote && !g.flow.debounced then g.clearTimer else none } := by
  have still : g.toWaiting.still = false := rfl
  have managed : g.toWaiting.managed = true := rfl
  rw [remeasure_eq, patient_managed a, still, managed]
  unfold Fan.toWaiting
  cases g.flowNote <;> cases g.flow.debounced <;> rfl

theorem remeasure_toIdle {g : Fan} (a : g.state.patient = true) (moves : g.still = false) (clock : Nat) :
    g.toIdle.remeasure g clock = { g with
      state := .idle, coastTimer := none, retryTimer := none
      noteTimer := if g.flow.debounced then some (clock + 10000) else none
      clearTimer := if g.flowNote && !g.flow.debounced then g.clearTimer else none } := by
  have still : g.toIdle.still = true := rfl
  have managed : g.toIdle.managed = true := rfl
  rw [remeasure_eq, patient_managed a, moves, still, managed]
  unfold Fan.toIdle
  cases g.flowNote <;> cases g.flow.debounced <;> rfl

/-- A fan enters WAITING from IDLE or COASTING: its notice is queued, and nothing is handed over. -/
theorem queued_eq (w : Work) (i : Fin 8) (a : (w.st.fan i).state = .idle ∨ (w.st.fan i).state = .coasting) :
    w.queued i = { w with st := w.st.asking i (w.st.fan i) } := by
  have patient : (w.st.fan i).state.patient = true := by rcases a with a | a <;> rw [a] <;> rfl
  have change_ : (w.st.fan i).toWaiting.state ≠ (w.st.fan i).state := by
    rcases a with a | a <;> rw [a] <;> exact nofun
  have moved := moveFan_patient w i (f := (w.st.fan i).toWaiting) rfl patient rfl rfl
  rw [State.moved_of_change change_, remeasure_toWaiting patient] at moved
  exact congrArg (fun v : Work => v.map fun s => s.setArb { s.arb with waiting := vset s.arb.waiting i (some s.clock) }) moved

theorem asking_setFan (s : State) (i : Fin 8) (f g : Fan) : (s.setFan i f).asking i g = s.asking i g := by
  unfold State.asking
  rw [setFan_setFan]
  rfl

/-- A fan enters IDLE from WAITING or COASTING: its notice is queued, and nothing is handed over. -/
theorem enterIdle_eq (w : Work) (i : Fin 8) (a : (w.st.fan i).state = .waiting ∨ (w.st.fan i).state = .coasting) :
    w.enterIdle i = ({ w with st := w.st.idling i (w.st.fan i) } : Work).testExercise i := by
  have patient : (w.st.fan i).state.patient = true := by rcases a with a | a <;> rw [a] <;> rfl
  have moves : (w.st.fan i).still = false := by rcases a with a | a <;> exact still_of_state a rfl
  have change_ : (w.st.fan i).toIdle.state ≠ (w.st.fan i).state := by
    rcases a with a | a <;> rw [a] <;> exact nofun
  have moved := moveFan_patient w i (f := (w.st.fan i).toIdle) rfl patient rfl rfl
  rw [State.moved_of_change change_, remeasure_toIdle patient moves] at moved
  exact congrArg (fun v : Work => v.testExercise i) moved

/-- A fan in IDLE whose record has come to `f` enters WAITING, and a grant is considered (R74, R108). -/
theorem enterWaiting_idle (w : Work) (i : Fin 8) (a : f.state = .idle ∨ f.state = .coasting) :
    (w.map fun s => s.setFan i f).enterWaiting i = ({ w with st := w.st.asking i f } : Work).consider := by
  have fan : (w.map fun s => s.setFan i f).st.fan i = f := State.setFan_fan_same ..
  rw [enterWaiting_eq, queued_eq _ i (by rw [fan]; exact a), fan]
  exact congrArg (fun t => ({ w with st := t } : Work).consider) (asking_setFan ..)

theorem startAsked_idle {asked : State} (idle : (s.fan i).state = .idle) (h : StartAsked s i f asked) : asked = s.asking i f := by
  rcases h with ⟨-, e⟩ | ⟨waits, -⟩
  · exact e
  · rw [idle] at waits; cases waits

/-! ## A claim that comes -/

theorem addClaim_held {src : Source} (h : (w.st.fan i).claims.has src = true) : w.addClaim i src = w := by
  unfold Work.addClaim
  dsimp only
  rw [h]
  rfl

theorem addClaim_eq {src : Source} (h : (w.st.fan i).claims.has src = false) (takes : (w.st.fan i).takesClaims = true) :
    w.addClaim i src = match (w.st.fan i).state with
      | .idle => (w.map fun s => s.setFan i { s.fan i with claims := (s.fan i).claims.add src }).enterWaiting i
      | .waiting => (w.map fun s => s.setFan i { s.fan i with claims := (s.fan i).claims.add src }).consider
      | .coasting => w.map fun s => s.setFan i { s.fan i with claims := (s.fan i).claims.add src }
      | _ => w.map fun s => s.setFan i { s.fan i with claims := (s.fan i).claims.add src, stopPending := false } := by
  unfold Work.addClaim
  dsimp only
  rw [h, takes]
  have bare : ((false || !true) = true) ↔ False := by simp
  rw [if_neg (bare.not.2 id)]
  have cleared (v : Work) : ((v.map fun s => s.setFan i { s.fan i with claims := (s.fan i).claims.add src }).map fun s =>
      s.setFan i { s.fan i with stopPending := false }) =
      v.map fun s => s.setFan i { s.fan i with claims := (s.fan i).claims.add src, stopPending := false } := by
    unfold Work.map
    dsimp only
    rw [State.setFan_fan_same, setFan_setFan]
  cases state : (w.st.fan i).state with
  | idle => rfl
  | waiting => rfl
  | coasting => rfl
  | proving => exact cleared w
  | running => exact cleared w
  | unmanaged => unfold Fan.takesClaims at takes; rw [state] at takes; cases takes
  | fault => unfold Fan.takesClaims at takes; rw [state] at takes; cases takes
  | lockout c => unfold Fan.takesClaims at takes; rw [state] at takes; cases takes

/-- The record of a fan with a MANUAL claim of `d` seconds, 0 for none (R85). -/
def Fan.manned (f : Fan) (d : Nat) : Fan :=
  { f with claims := { f.claims with manual := true }, manualDuration := if d = 0 then none else some d }

theorem manual_held {c : Claims} (h : c.manual = true) : { c with manual := true } = c := by
  cases c
  cases h
  rfl

/-- The work of FAN START before the manual timer (R85). -/
def Work.manually (w : Work) (i : Fin 8) (d : Nat) : Work :=
  (w.map fun s => s.setFan i { s.fan i with manualDuration := if d = 0 then none else some d }).addClaim i .manual

theorem manually_held {d : Nat} (held : (w.st.fan i).claims.manual = true) :
    w.manually i d = { w with st := w.st.setFan i ((w.st.fan i).manned d) } := by
  have fan : (w.map fun s => s.setFan i { s.fan i with manualDuration := if d = 0 then none else some d }).st.fan i =
      { w.st.fan i with manualDuration := if d = 0 then none else some d } := State.setFan_fan_same ..
  unfold Work.manually
  rw [addClaim_held (by rw [fan]; exact held)]
  unfold Fan.manned
  rw [manual_held held]
  rfl

/-- The record of a fan that a zone's or an operator's claim makes not stop-pending any more (R73, R77). -/
def Fan.kept (f : Fan) (d : Nat) : Fan := { f.manned d with stopPending := f.stopPending && f.claims.manual }

theorem manually_new {d : Nat} (none_ : (w.st.fan i).claims.manual = false) (takes : (w.st.fan i).takesClaims = true) : w.manually i d =
    match (w.st.fan i).state with
    | .idle => ({ w with st := w.st.asking i ((w.st.fan i).manned d) } : Work).consider
    | .waiting => ({ w with st := w.st.setFan i ((w.st.fan i).manned d) } : Work).consider
    | .coasting => { w with st := w.st.setFan i ((w.st.fan i).manned d) }
    | _ => { w with st := w.st.setFan i ((w.st.fan i).kept d) } := by
  have fan : (w.map fun s => s.setFan i { s.fan i with manualDuration := if d = 0 then none else some d }).st.fan i =
      { w.st.fan i with manualDuration := if d = 0 then none else some d } := State.setFan_fan_same ..
  have added : ((w.map fun s => s.setFan i { s.fan i with manualDuration := if d = 0 then none else some d }).map fun s =>
      s.setFan i { s.fan i with claims := (s.fan i).claims.add .manual }) = w.map fun s => s.setFan i ((w.st.fan i).manned d) := by
    unfold Work.map
    dsimp only
    rw [State.setFan_fan_same, setFan_setFan]
    rfl
  have turned : ((w.map fun s => s.setFan i { s.fan i with manualDuration := if d = 0 then none else some d }).map fun s =>
      s.setFan i { s.fan i with claims := (s.fan i).claims.add .manual, stopPending := false }) =
      w.map fun s => s.setFan i ((w.st.fan i).kept d) := by
    unfold Work.map
    dsimp only
    rw [State.setFan_fan_same, setFan_setFan]
    unfold Fan.kept
    rw [none_, Bool.and_false]
    rfl
  unfold Work.manually
  rw [addClaim_eq (by rw [fan]; exact none_) (by rw [fan]; exact takes), fan, added, turned]
  dsimp only
  cases state : (w.st.fan i).state with
  | idle => exact enterWaiting_idle w i (.inl state)
  | _ => rfl

theorem startManual_eq (w : Work) (i : Fin 8) (d : Nat) : w.startManual i d =
    if ((w.manually i d).st.fan i).state = .running then
      (w.manually i d).map fun s => s.setFan i { s.fan i with manualTimer := startTimer s.clock (seconds d) }
    else w.manually i d := rfl

end

end Sys2Proof.Machine
end

section
/-! The work of FAN START by the fan's state; the statement about it. -/

namespace Sys2Proof.Machine

section
variable {w : Work} {s : State} {i : Fin 8} {d : Nat}

/-! ## FAN START's work -/

theorem startManual_settled (moves : ((w.manually i d).st.fan i).state ≠ .running) : w.startManual i d = w.manually i d :=
  (startManual_eq w i d).trans (if_neg moves)

/-- Writing a fan's record, and then a part of it. -/
theorem map_setFan_twice (w : Work) (i : Fin 8) (f : Fan) (g : Fan → Nat → Fan) :
    (({ w with st := w.st.setFan i f } : Work).map fun s => s.setFan i (g (s.fan i) s.clock)) = { w with st := w.st.setFan i (g f w.st.clock) } := by
  unfold Work.map
  dsimp only
  rw [State.setFan_fan_same, setFan_setFan]
  rfl

/-- The record of a running fan with a MANUAL claim of `d` seconds, its timer started or stopped with it (R85). -/
def Fan.timed (f : Fan) (d clock : Nat) : Fan := { f.kept d with manualTimer := startTimer clock (1000 * d) }

/-- A running fan's manual timer starts anew, or stops (R85). -/
theorem startManual_running (running : (w.st.fan i).state = .running) : w.startManual i d =
    { w with st := w.st.setFan i ((w.st.fan i).timed d w.st.time.clock) } := by
  have manual : w.manually i d = { w with st := w.st.setFan i ((w.st.fan i).kept d) } := by
    cases held : (w.st.fan i).claims.manual with
    | true =>
      rw [manually_held held]
      unfold Fan.kept
      rw [held, Bool.and_true]
      rfl
    | false =>
      rw [manually_new held (by unfold Fan.takesClaims; rw [running]), running]
  have state : ((w.st.setFan i ((w.st.fan i).kept d)).fan i).state = .running := by rw [State.setFan_fan_same]; exact running
  rw [startManual_eq, manual, if_pos state]
  unfold Fan.timed
  rw [← startTimer_seconds]
  exact map_setFan_twice w i _ fun f clock => { f with manualTimer := startTimer clock (seconds d) }

theorem startManual_proving (proving : (w.st.fan i).state = .proving) :
    w.startManual i d = { w with st := w.st.setFan i ((w.st.fan i).kept d) } := by
  have manual : w.manually i d = { w with st := w.st.setFan i ((w.st.fan i).kept d) } := by
    cases held : (w.st.fan i).claims.manual with
    | true =>
      rw [manually_held held]
      unfold Fan.kept
      rw [held, Bool.and_true]
      rfl
    | false =>
      rw [manually_new held (by unfold Fan.takesClaims; rw [proving]), proving]
  rw [startManual_settled, manual]
  rw [manual, State.setFan_fan_same]
  exact fun running => by
    have e : (w.st.fan i).state = .running := running
    rw [proving] at e
    cases e

/-- A coasting fan records the claim, and so does an idle or a waiting one that holds it. -/
theorem startManual_recorded (h : (w.st.fan i).state = .coasting ∨
    ((w.st.fan i).claims.manual = true ∧ ((w.st.fan i).state = .idle ∨ (w.st.fan i).state = .waiting))) :
    w.startManual i d = { w with st := w.st.setFan i ((w.st.fan i).manned d) } := by
  have manual : w.manually i d = { w with st := w.st.setFan i ((w.st.fan i).manned d) } := by
    rcases h with coasting | ⟨held, -⟩
    · cases held : (w.st.fan i).claims.manual with
      | true => exact manually_held held
      | false => rw [manually_new held (by unfold Fan.takesClaims; rw [coasting]), coasting]
    · exact manually_held held
  rw [startManual_settled, manual]
  rw [manual, State.setFan_fan_same]
  intro running
  have e : (w.st.fan i).state = .running := running
  rcases h with state | ⟨-, state | state⟩ <;> rw [state] at e <;> cases e

/-- A granted fan runs its manual timer from its claim already. -/
theorem startedAt_manual {f : Fan} (held : f.claims.manual = true) (duration : f.manualDuration = if d = 0 then none else some d)
    {clock : Nat} (running : (f.startedAt clock).state = .running) :
    { f.startedAt clock with manualTimer := startTimer clock (1000 * d) } = f.startedAt clock := by
  cases flow : f.flow.debounced with
  | false => rw [startedAt_stopped flow] at running; cases running
  | true =>
    rw [startedAt_flowing flow, held, duration]
    dsimp only
    by_cases zero : d = 0
    · subst zero; rfl
    · rw [if_neg zero]; rfl

theorem grantChoice_fan {j : Fin 8} (out : w.out = []) (choice : w.st.grantChoice = some j) : HasGranted w.st j w.consider := by
  rw [consider_some choice]
  exact hasGranted_grant out j

/-- A consideration that may grant the fan leaves FAN START nothing to do. -/
theorem startManual_considered {asked : State} (manual : w.manually i d = ({ w with st := asked } : Work).consider)
    (waits : (asked.fan i).state = .waiting) (held : (asked.fan i).claims.manual = true)
    (duration : (asked.fan i).manualDuration = if d = 0 then none else some d) :
    w.startManual i d = ({ w with st := asked } : Work).consider := by
  rw [startManual_eq, manual]
  generalize at_ : ({ w with st := asked } : Work) = v
  have st : v.st = asked := by rw [← at_]
  rw [← st] at waits held duration
  by_cases running : (v.consider.st.fan i).state = .running
  · rw [if_pos running]
    cases choice : v.st.grantChoice with
    | none =>
      rw [consider_none choice, waits] at running
      cases running
    | some j =>
      rw [consider_some choice] at running ⊢
      by_cases e : i = j
      · subst e
        have fan := grant_fan v i
        have clock : (v.grant i).st.clock = v.st.time.clock := by unfold State.clock; rw [(within_grant v i).time]
        rw [fan] at running
        have same : { (v.grant i).st.fan i with manualTimer := startTimer (v.grant i).st.clock (seconds d) } = (v.grant i).st.fan i := by
          rw [fan, clock, startTimer_seconds]
          exact startedAt_manual held duration running
        unfold Work.map
        dsimp only
        rw [same, setFan_self]
      · rw [(same_grant i v e).1, waits] at running
        cases running
  · rw [if_neg running]

/-- A fan in IDLE or WAITING that gains the claim asks for a start (R73, R74, R108). -/
theorem startManual_asks (none_ : (w.st.fan i).claims.manual = false) {asked : State}
    (h : StartAsked w.st i ((w.st.fan i).manned d) asked) : w.startManual i d = ({ w with st := asked } : Work).consider := by
  rcases h with ⟨idle, e⟩ | ⟨waits, e⟩
  · have fan : (asked.fan i) = { (w.st.fan i).manned d with
        state := .waiting, coastTimer := none, noteTimer := none
        clearTimer := if ((w.st.fan i).manned d).flowNote && !((w.st.fan i).manned d).flow.debounced then ((w.st.fan i).manned d).clearTimer
          else none } := by
      rw [e]
      exact State.setFan_fan_same ..
    refine startManual_considered ?_ (by rw [fan]) (by rw [fan]; rfl) (by rw [fan]; rfl)
    rw [manually_new none_ (by unfold Fan.takesClaims; rw [idle]), idle, e]
    rfl
  · have fan : asked.fan i = (w.st.fan i).manned d := by rw [e]; exact State.setFan_fan_same ..
    refine startManual_considered ?_ (by rw [fan]; exact waits) (by rw [fan]; rfl) (by rw [fan]; rfl)
    rw [manually_new none_ (by unfold Fan.takesClaims; rw [waits]), waits, e]

/-! ## What asking for a start leaves alone -/

theorem considered_settles (out : w.out = []) : Settles w.st w.consider.finish := by
  obtain ⟨new, grown, quiet⟩ := (calm_consider w).out
  refine (consider_settles w).trans (settle_settles_quiet _ ?_)
  rw [grown, out]
  exact quiet

theorem keeps_asking (s : State) (i : Fin 8) (f : Fan) : CascadeKeeps (s.setFan i f) (s.asking i f) := by
  have record : FanKept f { f with
      state := .waiting, coastTimer := none, noteTimer := none
      clearTimer := if f.flowNote && !f.flow.debounced then f.clearTimer else none } :=
    ⟨rfl, rfl, rfl, rfl, rfl, fun _ => rfl, id, id⟩
  exact ((keeps_refan record).trans (keeps_notice _ (.fanChange i .waiting none))).trans (keeps_setArb _ rfl rfl rfl)

theorem startAsked_keeps {f : Fan} {asked : State} (h : StartAsked s i f asked) :
    CascadeKeeps (s.setFan i f) asked ∧ ZonesKept s asked := by
  rcases h with ⟨-, e⟩ | ⟨-, e⟩
  · rw [e]
    exact ⟨keeps_asking s i f, zonesKept_of_zones rfl⟩
  · rw [e]
    exact ⟨.refl _, zonesKept_of_zones rfl⟩

/-- A fan in IDLE or WAITING can ask. -/
theorem startAsked_exists (f : Fan) (h : (s.fan i).state = .idle ∨ (s.fan i).state = .waiting) : ∃ asked, StartAsked s i f asked := by
  rcases h with idle | waits
  · exact ⟨_, .inl ⟨idle, rfl⟩⟩
  · exact ⟨_, .inr ⟨waits, rfl⟩⟩

/-! ## The request -/

theorem takesClaims_iff (f : Fan) : f.takesClaims = true ↔
    f.state = .idle ∨ f.state = .waiting ∨ f.state = .proving ∨ f.state = .running ∨ f.state = .coasting := by
  unfold Fan.takesClaims
  cases f.state <;> simp

theorem refused_absent {d : BitVec 24} (absent : (s.fan i).cfg.present = false) : answerFanStart (indexByte i) d s = refuse s .notPresent := by
  unfold answerFanStart
  rw [readIndex_indexByte (by decide)]
  dsimp only
  rw [absent]
  rfl

theorem refused_untaking {d : BitVec 24} (present : (s.fan i).cfg.present = true) (takes : (s.fan i).takesClaims = false) :
    answerFanStart (indexByte i) d s = refuse s .wrongState := by
  unfold answerFanStart
  rw [readIndex_indexByte (by decide)]
  dsimp only
  rw [present, takes]
  rfl

theorem answer_fanStart (d : BitVec 24) (present : (s.fan i).cfg.present = true) (takes : (s.fan i).takesClaims = true) :
    answerFanStart (indexByte i) d s =
      { st := s.does fun w => w.startManual i (min 86400 d.toNat), status := .ok, marks := { clamped := decide (86400 < d.toNat) }
        body := [((s.does fun w => w.startManual i (min 86400 d.toNat)).fan i).state.code] } := by
  unfold answerFanStart
  rw [readIndex_indexByte (by decide)]
  dsimp only
  rw [present, takes]
  rfl

theorem accepted_fanStart {tag : Byte} {d : BitVec 24} {t : State} (free : s.link.outstanding = none) (present : (s.fan i).cfg.present = true)
    (takes : (s.fan i).takesClaims = true) (done : (s.does fun w => w.startManual i (min 86400 d.toNat)) = t) :
    Accepted (.fanStart tag (indexByte i) d) s t 0xA0 tag (if 86400 < d.toNat then 1 else 0) [(t.fan i).state.code] := by
  have answer := answer_fanStart d present takes
  rw [done] at answer
  refine accepted_of (act := answerFanStart (indexByte i) d) (exec_request rfl s) free (congrArg Answer.st answer) rfl
    (congrArg Answer.status answer) ((congrArg (fun a => a.marks.code) answer).trans ?_) (congrArg Answer.body answer)
  by_cases clamped : 86400 < d.toNat
  · rw [if_pos clamped]
    dsimp only
    rw [decide_eq_true clamped]
    rfl
  · rw [if_neg clamped]
    dsimp only
    rw [decide_eq_false clamped]
    rfl

/-- FAN START that writes the fan's record alone. -/
theorem accepted_fanStart_written {tag : Byte} {d : BitVec 24} {f : Fan} {x : FanState} (free : s.link.outstanding = none)
    (present : (s.fan i).cfg.present = true) (takes : (s.fan i).takesClaims = true) (state : f.state = x)
    (done : s.begin.startManual i (min 86400 d.toNat) = { s.begin with st := s.setFan i f }) :
    Accepted (.fanStart tag (indexByte i) d) s (s.setFan i f) 0xA0 tag (if 86400 < d.toNat then 1 else 0) [x.code] := by
  have accepted := accepted_fanStart (tag := tag) free present takes (does_of_eq (f := fun w => w.startManual i (min 86400 d.toNat)) done)
  rw [State.setFan_fan_same, state] at accepted
  exact accepted

theorem manned_clamped (f : Fan) (d : BitVec 24) : f.manned (min 86400 d.toNat) = { f with
    claims := { f.claims with manual := true }, manualDuration := if d = 0 then none else some (min 86400 d.toNat) } := by
  have zero : min 86400 d.toNat = 0 ↔ d = 0 := by
    rw [← BitVec.toNat_inj]
    change min 86400 d.toNat = 0 ↔ d.toNat = 0
    omega
  unfold Fan.manned
  by_cases h : d = 0
  · rw [if_pos h, if_pos (zero.2 h)]
  · rw [if_neg h, if_neg (zero.not.2 h)]

theorem manualTimer_clamped (clock : Nat) (d : BitVec 24) : startTimer clock (1000 * min 86400 d.toNat) =
    if d = 0 then none else some (clock + 1000 * min 86400 d.toNat) := by
  have zero : 1000 * min 86400 d.toNat = 0 ↔ d = 0 := by
    rw [← BitVec.toNat_inj]
    change 1000 * min 86400 d.toNat = 0 ↔ d.toNat = 0
    omega
  unfold startTimer
  simp only [zero]

/-- Whatever FAN START leads to, it leaves alone all but the fans and their grants. -/
theorem startManual_keeps (takes : (s.fan i).takesClaims = true) : CascadeKeeps (s.setFan i ((s.fan i).manned d)) (s.does fun w => w.startManual i d) ∧
    ZonesKept s (s.does fun w => w.startManual i d) := by
  have written {f : Fan} (kept : FanKept ((s.fan i).manned d) f) (e : s.begin.startManual i d = { s.begin with st := s.setFan i f }) :
      CascadeKeeps (s.setFan i ((s.fan i).manned d)) (s.does fun w => w.startManual i d) ∧
      ZonesKept s (s.does fun w => w.startManual i d) := by
    rw [does_of_eq (f := fun w => w.startManual i d) e]
    exact ⟨keeps_refan kept, zonesKept_of_zones rfl⟩
  have asks (h : (s.fan i).state = .idle ∨ (s.fan i).state = .waiting) :
      CascadeKeeps (s.setFan i ((s.fan i).manned d)) (s.does fun w => w.startManual i d) ∧
      ZonesKept s (s.does fun w => w.startManual i d) := by
    cases held : (s.fan i).claims.manual with
    | true => exact written (f := (s.fan i).manned d) ⟨rfl, rfl, rfl, rfl, rfl, id, id, id⟩ (startManual_recorded (w := s.begin) (.inr ⟨held, h⟩))
    | false =>
      obtain ⟨asked, ask⟩ := startAsked_exists ((s.fan i).manned d) h
      obtain ⟨keeps, zones⟩ := startAsked_keeps ask
      have settles := considered_settles (w := { s.begin with st := asked }) rfl
      have done : (s.does fun w => w.startManual i d) = (({ s.begin with st := asked } : Work).consider).finish :=
        congrArg Work.finish (startManual_asks (w := s.begin) held ask)
      rw [done]
      exact ⟨keeps.trans settles.keeps, zones.trans settles.zones⟩
  rcases (takesClaims_iff _).1 takes with idle | waits | proving | running | coasting
  · exact asks (.inl idle)
  · exact asks (.inr waits)
  · exact written (f := (s.fan i).kept d) ⟨rfl, rfl, rfl, rfl, rfl, id, id, id⟩ (startManual_proving (w := s.begin) proving)
  · exact written (f := (s.fan i).timed d s.time.clock) ⟨rfl, rfl, rfl, rfl, rfl, id, id, id⟩ (startManual_running (w := s.begin) running)
  · exact written (f := (s.fan i).manned d) ⟨rfl, rfl, rfl, rfl, rfl, id, id, id⟩ (startManual_recorded (w := s.begin) (.inl coasting))

end

/-- Settles O15, by the fan's state: what FAN START's work leaves in it is said whole. -/
theorem fanStartClaimsTheFan : Obligations.FanStartClaimsTheFan := by
  intro tag i d s free marks claimed
  have manned : (s.fan i).manned (min 86400 d.toNat) = claimed := manned_clamped _ d
  have takes {x : FanState} (state : (s.fan i).state = x) (h : x = .idle ∨ x = .waiting ∨ x = .proving ∨ x = .running ∨ x = .coasting) :
      (s.fan i).takesClaims = true := (takesClaims_iff _).2 (by rw [state]; exact h)
  refine ⟨fun absent => ?_, fun present none_ => ?_, fun present takes => ?_, fun present running => ?_, fun present proving => ?_,
    fun present recorded => ?_, fun present unheld asked ask => ?_⟩
  · exact declined_request (status := .notPresent) rfl free rfl (refused_absent absent)
  · have takes : (s.fan i).takesClaims = false := by
      unfold Fan.takesClaims
      rcases none_ with e | e | ⟨c, e⟩ <;> rw [e]
    exact declined_request (status := .wrongState) rfl free rfl (refused_untaking present takes)
  · have kept := startManual_keeps (d := min 86400 d.toNat) takes
    rw [manned] at kept
    exact ⟨_, accepted_fanStart free present takes rfl, kept⟩
  · have timed : (s.fan i).timed (min 86400 d.toNat) s.time.clock = { claimed with
        manualTimer := if d = 0 then none else some (s.time.clock + 1000 * min 86400 d.toNat)
        stopPending := (s.fan i).stopPending && (s.fan i).claims.manual } := by
      rw [← manned, ← manualTimer_clamped]; rfl
    rw [← timed]
    exact accepted_fanStart_written (f := (s.fan i).timed (min 86400 d.toNat) s.time.clock) free present (takes running (by simp)) running (startManual_running (w := s.begin) running)
  · have kept : (s.fan i).kept (min 86400 d.toNat) = { claimed with stopPending := (s.fan i).stopPending && (s.fan i).claims.manual } := by
      rw [← manned]; rfl
    rw [← kept]
    exact accepted_fanStart_written (f := (s.fan i).kept (min 86400 d.toNat)) free present (takes proving (by simp)) proving (startManual_proving (w := s.begin) proving)
  · rw [← manned]
    exact accepted_fanStart_written (f := (s.fan i).manned (min 86400 d.toNat)) free present (takes rfl (by tauto)) rfl
      (startManual_recorded (w := s.begin) recorded)
  · rw [← manned] at ask
    have state : (s.fan i).state = .idle ∨ (s.fan i).state = .waiting := ask.elim (fun h => .inl h.1) fun h => .inr h.1
    have done : (s.does fun w => w.startManual i (min 86400 d.toNat)) = (({ s.begin with st := asked } : Work).consider).finish :=
      congrArg Work.finish (startManual_asks (w := s.begin) unheld ask)
    have accepted := accepted_fanStart (tag := tag) free present (takes rfl (by tauto)) done
    obtain ⟨none_, some_⟩ := considered (w := { s.begin with st := asked }) rfl
    refine ⟨fun no => ?_, fun j choice => ⟨_, accepted, some_ j choice⟩⟩
    have waits : (asked.fan i).state = .waiting := by
      rcases ask with ⟨-, e⟩ | ⟨waits, e⟩
      · rw [e]; exact congrArg Fan.state (State.setFan_fan_same ..)
      · rw [e]; exact (congrArg Fan.state (State.setFan_fan_same ..)).trans waits
    rw [none_ no] at accepted
    change Accepted _ _ asked _ _ _ [(asked.fan i).state.code] at accepted
    rw [waits] at accepted
    exact accepted

end Sys2Proof.Machine
end

section
/-! Allocations that find nothing to do; an exercise that is tested; a claim that ends. -/

namespace Sys2Proof.Machine

/-! ## Allocations that find nothing to do -/

theorem filter_mem_of_sublist {α : Type} [DecidableEq α] {xs ys : List α} (sub : xs.Sublist ys) (nodup : ys.Nodup) :
    ys.filter (fun y => decide (y ∈ xs)) = xs := by
  have kept : (xs.filter fun y => decide (y ∈ xs)) = xs := List.filter_eq_self.2 fun x m => decide_eq_true m
  have below := sub.filter fun y => decide (y ∈ xs)
  rw [kept] at below
  refine (below.eq_of_length_le ?_).symm
  exact ((nodup.filter _).subperm fun y m => of_decide_eq_true (List.mem_filter.1 m).2).length_le

section
variable {order claims : List (Fin 8)} {n : Nat} {p : Fin 8 → Bool}

/-- A claim list that an allocation leaves as it is: available fans of the order, no more than are needed, and as many as are needed or
all that are available (R57). -/
structure Fulfilled (order claims : List (Fin 8)) (n : Nat) (p : Fin 8 → Bool) : Prop where
  nodup : order.Nodup
  listed : claims.Sublist order
  available : ∀ i ∈ claims, p i = true
  within : claims.length ≤ n
  enough : claims.length < n → ∀ i ∈ order, p i = true → i ∈ claims

theorem Fulfilled.kept (h : Fulfilled order claims n p) : keptClaims claims n p = claims := by
  unfold keptClaims
  rw [List.filter_eq_self.2 h.available]
  exact List.take_of_length_le h.within

theorem Fulfilled.added (h : Fulfilled order claims n p) : addedClaims order claims n p = [] := by
  unfold addedClaims
  dsimp only
  rw [h.kept]
  rcases Nat.eq_or_lt_of_le h.within with full | short
  · rw [full, Nat.sub_self, List.take_zero]
  · have none_ : (order.filter fun f => p f && !claims.contains f) = [] := by
      refine List.filter_eq_nil_iff.2 fun i mem free => ?_
      rw [Bool.and_eq_true, Bool.not_eq_true'] at free
      have := h.enough short i mem free.1
      rw [← List.contains_iff_mem, free.2] at this
      cases this
    rw [none_, List.take_nil]

theorem Fulfilled.released (h : Fulfilled order claims n p) : releasedClaims claims n p = [] := by
  unfold releasedClaims
  have none_ : (claims.filter fun f => !p f) = [] := List.filter_eq_nil_iff.2 fun i mem free => by rw [h.available i mem] at free; cases free
  rw [none_, List.filter_eq_self.2 h.available, List.drop_of_length_le h.within]
  rfl

theorem Fulfilled.allocated (h : Fulfilled order claims n p) : allocated order claims n p = claims := by
  unfold Machine.allocated
  dsimp only
  rw [h.kept, h.added]
  refine Eq.trans (List.filter_congr fun i _ => ?_) (filter_mem_of_sublist h.listed h.nodup)
  rw [List.contains_nil, Bool.or_false]
  by_cases mem : i ∈ claims
  · rw [decide_eq_true mem, List.contains_iff_mem.2 mem]
  · rw [decide_eq_false mem, Bool.eq_false_iff.2 (List.contains_iff_mem.not.2 mem)]

end

/-- A zone whose claim list and SHORTFALL an allocation leaves as they are. -/
structure State.Allotted (s : State) (z : Fin 6) : Prop where
  claims : Fulfilled (s.zone z).cfg.order (s.zone z).claims (s.zone z).needed fun i => (s.fan i).available s.alarm.regime
  shortfall : (s.zone z).shortfall = decide ((s.zone z).claims.length < (s.zone z).needed)

section
variable {w v : Work} {s t : State} {i : Fin 8} {z : Fin 6} {f : Fan}

theorem map_zone_self (w : Work) (z : Fin 6) : (w.map fun s => s.setZone z (w.st.zone z)) = w := by
  unfold Work.map
  dsimp only
  rw [State.setZone, State.zone, vset_vget]

theorem allocate_allotted (h : w.st.Allotted z) : w.allocate z = w := by
  unfold Work.allocate
  dsimp only
  rw [h.claims.released, h.claims.added, h.claims.allocated, ← h.shortfall]
  exact map_zone_self w z

/-- An evaluation that has left the zone's record as it was hands nothing on. -/
theorem endEvaluation_same (w : Work) (z : Fin 6) : w.endEvaluation z (w.st.zone z) = w := by
  have same (k : Fin 82) (x : Image) : changedImage k x x = [] := if_pos rfl
  unfold Work.endEvaluation
  dsimp only
  rw [same, same, same, if_pos rfl, if_pos ⟨rfl, rfl, rfl, rfl⟩]
  unfold Work.postAll
  rw [List.append_nil, List.append_nil, List.append_nil, List.append_nil]

theorem evaluateAllocation_allotted (h : w.st.Allotted z) : w.evaluateAllocation z (w.st.zone z) = w := by
  unfold Work.evaluateAllocation
  rw [map_zone_self, allocate_allotted h, endEvaluation_same]

/-- A zone that is so, told of an availability, does nothing. -/
theorem inert_availability (h : s.Allotted z) : Inert s (.availability z) := by
  rintro w rfl
  change w.ifActive z (fun w => w.evaluateAllocation z (w.st.zone z)) = w
  unfold Work.ifActive
  split
  · exact evaluateAllocation_allotted h
  · rfl

/-! ## An exercise that is tested -/

/-- The record of a fan that takes its owed exercise (R91). -/
def Fan.exercised (f : Fan) : Fan := { f with exerciseOwed := false, claims := { f.claims with exercise := true } }

theorem alarming_iff (r : Regime) : r.alarming = false ↔ r ≠ .gasAlarm ∧ r ≠ .critical := by cases r <;> simp [Regime.alarming]

theorem takesExercise_iff (s : State) (i : Fin 8) : s.takesExercise i = true ↔ (s.fan i).state = .idle ∧ (s.fan i).exerciseOwed = true ∧
    s.alarm.regime ≠ .gasAlarm ∧ s.alarm.regime ≠ .critical ∧ (s.fan i).claims.exercise = false := by
  unfold State.takesExercise
  simp only [Bool.and_eq_true, decide_eq_true_eq, Bool.not_eq_true', alarming_iff, and_assoc]

theorem testExercise_untaken (h : w.st.takesExercise i = false) : w.testExercise i = w := by
  unfold Work.testExercise
  rw [h]
  rfl

theorem testExercise_taken (h : w.st.takesExercise i = true) :
    w.testExercise i = ({ w with st := w.st.asking i (w.st.fan i).exercised } : Work).consider := by
  have idle : (w.st.fan i).state = .idle := ((takesExercise_iff ..).1 h).1
  unfold Work.testExercise
  rw [if_pos h]
  exact enterWaiting_idle w i (f := (w.st.fan i).exercised) (.inl idle)

/-- What the test for an owed exercise leaves, where nothing else is left to be handed over (R91). -/
theorem exerciseTested (out : w.out = []) (i : Fin 8) : ExerciseTested w.st i (w.testExercise i).finish := by
  refine ⟨fun untaken => ?_, fun taken asked ask => ?_⟩
  · rw [testExercise_untaken (Bool.eq_false_iff.2 fun h => untaken ((takesExercise_iff ..).1 h)), finish_nil out]
  · rw [testExercise_taken ((takesExercise_iff ..).2 taken)]
    have e : asked = w.st.asking i (w.st.fan i).exercised := startAsked_idle taken.1 ask
    rw [← e]
    exact considered (w := { w with st := asked }) out

/-! ## A fan that coasts -/

/-- Fan `i`, at the record `f`, has entered COASTING from PROVING or RUNNING (R79). -/
def State.coasted (s : State) (i : Fin 8) (f : Fan) : State :=
  (s.setFan i { f with
    state := .coasting, output := false, stopPending := false, manualTimer := none, provingTimer := none, minRunTimer := none
    retryTimer := none, flowLossTimer := none, exerciseTimer := none
    coastTimer := startTimer s.time.clock (1000 * f.cfg.coast), noteTimer := none
    clearTimer := if f.flowNote && !f.flow.debounced then f.clearTimer else none
    offTime := if f.output then some s.time.clock else f.offTime }).notice (.fanChange i .coasting none)

theorem remeasure_coasting {g : Fan} (managed : g.managed = true) (clock : Nat) : (g.coasting clock).remeasure g clock = { g with
    state := .coasting, output := false, stopPending := false, manualTimer := none, provingTimer := none, minRunTimer := none
    retryTimer := none, flowLossTimer := none, exerciseTimer := none
    coastTimer := startTimer clock (1000 * g.cfg.coast), noteTimer := none
    clearTimer := if g.flowNote && !g.flow.debounced then g.clearTimer else none
    offTime := if g.output then some clock else g.offTime } := by
  have still : (g.coasting clock).still = false := rfl
  have now : (g.coasting clock).managed = true := rfl
  rw [remeasure_eq, managed, still, now, ← startTimer_seconds]
  unfold Fan.coasting Fan.stopTimers Fan.turnOff
  cases g.flowNote <;> cases g.flow.debounced <;> rfl

theorem moved_coasting (runs : (s.fan i).state = .proving ∨ (s.fan i).state = .running) :
    s.moved i ((s.fan i).coasting s.clock) = s.coasted i (s.fan i) := by
  have change_ : ((s.fan i).coasting s.clock).state ≠ (s.fan i).state := by rcases runs with e | e <;> rw [e] <;> exact nofun
  have managed : (s.fan i).managed = true := decide_eq_true (by rcases runs with e | e <;> rw [e] <;> exact nofun)
  rw [State.moved_of_change change_, remeasure_coasting managed]
  rfl

theorem enterCoasting_settles (w : Work) (runs : (w.st.fan i).state = .proving ∨ (w.st.fan i).state = .running) :
    Settles (w.st.coasted i (w.st.fan i)) (w.enterCoasting i).st := by
  rw [← moved_coasting runs]
  exact moveFan_settles w i _

/-- Where CRITICAL does not withhold it, a fan that coasts is as available as before, and nothing is handed over. -/
theorem enterCoasting_free (w : Work) (runs : (w.st.fan i).state = .proving ∨ (w.st.fan i).state = .running)
    (free : w.st.alarm.regime ≠ .critical ∨ (w.st.fan i).cfg.rating ≠ .ordinary) :
    w.enterCoasting i = { w with st := w.st.coasted i (w.st.fan i) } := by
  have unrestricted : (decide (w.st.alarm.regime = .critical) && decide ((w.st.fan i).cfg.rating = .ordinary)) = false := by
    rw [Bool.and_eq_false_iff, decide_eq_false_iff_not, decide_eq_false_iff_not]
    exact free
  have cfg : ((w.st.fan i).coasting w.st.clock).cfg = (w.st.fan i).cfg := rfl
  have state : ((w.st.fan i).coasting w.st.clock).state = .coasting := rfl
  have a : (w.st.fan i).available w.st.alarm.regime = ((w.st.fan i).coasting w.st.clock).available w.st.alarm.regime := by
    unfold Fan.available
    rw [cfg, state, unrestricted]
    rcases runs with e | e <;> rw [e] <;> rfl
  have b : (w.st.fan i).failed = ((w.st.fan i).coasting w.st.clock).failed := by
    unfold Fan.failed
    rw [state]
    rcases runs with e | e <;> rw [e]
  unfold Work.enterCoasting
  rw [moveFan_untold w i a, handed_nil b rfl, moved_coasting runs, List.append_nil]

end

end Sys2Proof.Machine
end

section
/-! A claim that ends, by the fan's state (R73). -/

namespace Sys2Proof.Machine

theorem Fulfilled.mono {order claims : List (Fin 8)} {n : Nat} {p q : Fin 8 → Bool} (h : Fulfilled order claims n p)
    (sub : ∀ i, q i = true → p i = true) (available : ∀ i ∈ claims, q i = true) : Fulfilled order claims n q :=
  ⟨h.nodup, h.listed, available, h.within, fun short i mem free => h.enough short i mem (sub i free)⟩

/-- What the zones and the fans agree on leaves an allocation nothing to do. -/
theorem ClaimLaw.fulfilled {s : State} (law : ClaimLaw s) {z : Fin 6} (active : (s.zone z).active = true) :
    Fulfilled (s.zone z).cfg.order (s.zone z).claims (s.zone z).needed fun i => (s.fan i).available s.alarm.regime := by
  have count := law.enough z active
  refine ⟨law.order z, law.listed z, law.available z, by rw [count]; exact Nat.min_le_left .., fun short i mem free => ?_⟩
  have below : (s.zone z).claims.Sublist ((s.zone z).cfg.order.filter fun i => (s.fan i).available s.alarm.regime) := by
    have := (law.listed z).filter fun i => (s.fan i).available s.alarm.regime
    rwa [List.filter_eq_self.2 (law.available z)] at this
  have all := below.eq_of_length_le (by omega)
  rw [all]
  exact List.mem_filter.2 ⟨mem, free⟩

section
variable {w v : Work} {s t : State} {i : Fin 8} {z : Fin 6} {f g : Fan}

/-- The record of a fan that has lost a MANUAL or an EXERCISE claim, with what goes with it. -/
structure Fan.Unclaimed (f g : Fan) : Prop where
  rest : g = { f with
    claims := g.claims, manualDuration := g.manualDuration, manualTimer := g.manualTimer, exerciseTimer := g.exerciseTimer }
  zones : g.claims.zones = f.claims.zones

theorem Fan.Unclaimed.state (h : f.Unclaimed g) : g.state = f.state := by rw [h.rest]
theorem Fan.Unclaimed.cfg (h : f.Unclaimed g) : g.cfg = f.cfg := by rw [h.rest]

theorem anyZone_of_none {c : Claims} (h : c.none_ = true) (z : Fin 6) : vget c.zones z = false := by
  unfold Claims.none_ at h
  by_contra some_
  have any := (anyZone_iff c).2 ⟨z, Bool.not_eq_false _ ▸ some_⟩
  rw [any] at h
  cases h

/-- A change of availabilities that takes no zone a fan it claims, and makes no fan available, leads to nothing. -/
theorem finish_withdrawn (law : ClaimLaw s) (zones : v.st.zones = s.zones) (regime : v.st.alarm.regime = s.alarm.regime)
    (less : ∀ j, (v.st.fan j).available s.alarm.regime = true → (s.fan j).available s.alarm.regime = true)
    (kept : ∀ z, ∀ j ∈ (s.zone z).claims, (v.st.fan j).available s.alarm.regime = true)
    (out : ∀ h ∈ v.out, ∃ z, h = .availability z ∧ (s.zone z).active = true) : v.finish = v.st := by
  refine settle_inert settleLimit fun h mem => ?_
  obtain ⟨z, rfl, active⟩ := out h mem
  have zone : v.st.zone z = s.zone z := by unfold State.zone; rw [zones]
  refine inert_availability ⟨?_, ?_⟩
  · rw [zone, regime]
    exact (law.fulfilled active).mono less (kept z)
  · rw [zone]
    exact law.shortfall z

theorem present_of_available {f : Fan} {regime : Regime} (h : f.available regime = true) : f.cfg.present = true := by
  unfold Fan.available at h
  exact (Bool.and_eq_true _ _ ▸ h).1

theorem available_of_running {f : Fan} {regime : Regime} (runs : f.state = .proving ∨ f.state = .running) (present : f.cfg.present = true) :
    f.available regime = true := by
  unfold Fan.available
  rw [present]
  rcases runs with e | e <;> rw [e] <;> rfl

/-- A fan that no zone claims coasts without a zone losing it: even under CRITICAL nothing follows (R57, R79). -/
theorem coasts_alone (law : ClaimLaw s) (lost : (s.fan i).Unclaimed f) (none_ : f.claims.none_ = true)
    (runs : f.state = .proving ∨ f.state = .running) :
    ((({ s.begin with st := s.setFan i f } : Work).enterCoasting i).finish).fan i = (s.coasted i f).fan i := by
  have fan : (s.setFan i f).fan i = f := State.setFan_fan_same ..
  have st : (({ s.begin with st := s.setFan i f } : Work).enterCoasting i).st.fan i = (s.coasted i f).fan i := by
    have moved : (({ s.begin with st := s.setFan i f } : Work).enterCoasting i).st.fan i = (f.coasting s.clock).remeasure f s.clock := by
      unfold Work.enterCoasting
      rw [moveFan_fan, fan]
      rfl
    have managed : f.managed = true := decide_eq_true (by rcases runs with e | e <;> rw [e] <;> exact nofun)
    rw [moved, remeasure_coasting managed]
    exact (State.setFan_fan_same ..).symm
  rw [← st]
  have at_ : AtFan i ({ s.begin with st := s.setFan i f } : Work) (({ s.begin with st := s.setFan i f } : Work).enterCoasting i) :=
    atFan_moveFan _ i rfl
  have others (j : Fin 8) (ne : j ≠ i) : (({ s.begin with st := s.setFan i f } : Work).enterCoasting i).st.fan j = s.fan j := by
    rw [(at_.others j ne).1]
    exact (State.setFan_fan ..).trans (if_neg ne.symm)
  have sound : f.failed = (f.coasting s.clock).failed := by
    unfold Fan.failed
    rcases runs with e | e <;> rw [e] <;> rfl
  have out := moveFan_out ({ s.begin with st := s.setFan i f } : Work) i (((s.setFan i f).fan i).coasting s.clock)
  refine congrArg (fun t : State => t.fan i) (finish_withdrawn law at_.zones (congrArg Alarm.regime at_.within.alarm) (fun j free => ?_)
    (fun z j mem => ?_) fun h mem => ?_)
  · by_cases e : j = i
    · subst e
      exact available_of_running (by rw [← lost.state]; exact runs) (by rw [← lost.cfg, ← fan, ← at_.cfg]; exact present_of_available free)
    · rwa [others j e] at free
  · have ne : j ≠ i := by
      rintro rfl
      have held := (law.held z j).2 mem
      rw [← lost.zones, anyZone_of_none none_] at held
      cases held
    rw [others j ne]
    exact law.available z j mem
  · have told := out.symm ▸ mem
    rw [fan, handed_nil sound rfl] at told
    change h ∈ (if _ then [] else _ : List Handover) at told
    split at told
    · cases told
    · obtain ⟨z, listed, rfl⟩ := List.mem_map.1 told
      have active := (mem_zonesUsing.1 ((inOpenOrder_perm ..).mem_iff.1 listed)).1
      exact ⟨z, rfl, active⟩

/-! ## The work of a claim that has ended -/

/-- What follows a claim's removal from a fan's set (R73). -/
def Work.claimLost (w : Work) (i : Fin 8) : Work :=
  if (w.st.fan i).claims.none_ then
    match (w.st.fan i).state with
    | .waiting => (w.map fun s => s.leaveWaiting i).enterIdle i
    | .proving => w.stopOrCoast i
    | .running => w.stopOrCoast i
    | .idle => w | .coasting => w | .unmanaged => w | .fault => w | .lockout _ => w
  else
    match (w.st.fan i).state with
    | .waiting => w.consider
    | .idle => w | .proving => w | .running => w | .coasting => w | .unmanaged => w | .fault => w | .lockout _ => w

theorem removeClaim_unheld {src : Source} (h : (w.st.fan i).claims.has src = false) : w.removeClaim i src = w := by
  unfold Work.removeClaim
  dsimp only
  rw [h]
  rfl

theorem removeClaim_eq {src : Source} (h : (w.st.fan i).claims.has src = true) :
    w.removeClaim i src = (w.map fun s => s.setFan i ((s.fan i).withoutClaim src)).claimLost i := by
  have fan : (w.map fun s => s.setFan i ((s.fan i).withoutClaim src)).st.fan i = (w.st.fan i).withoutClaim src := State.setFan_fan_same ..
  obtain ⟨-, state, -, claims, -, -⟩ := withoutClaim_fields (w.st.fan i) src
  unfold Work.removeClaim Work.claimLost
  dsimp only
  rw [h, fan, state, claims]
  rfl

theorem claimLost_waiting (none_ : (w.st.fan i).claims.none_ = true) (waits : (w.st.fan i).state = .waiting) :
    w.claimLost i = (w.map fun s => s.leaveWaiting i).enterIdle i := by
  unfold Work.claimLost
  rw [if_pos none_, waits]

theorem claimLost_stops (none_ : (w.st.fan i).claims.none_ = true) (runs : (w.st.fan i).state = .proving ∨ (w.st.fan i).state = .running) :
    w.claimLost i = w.stopOrCoast i := by
  unfold Work.claimLost
  rw [if_pos none_]
  rcases runs with e | e <;> rw [e]

theorem claimLost_rests (none_ : (w.st.fan i).claims.none_ = true) (rests : (w.st.fan i).state = .idle ∨ (w.st.fan i).state.resting = true) :
    w.claimLost i = w := by
  unfold Work.claimLost
  rw [if_pos none_]
  cases state : (w.st.fan i).state <;> rw [state] at rests <;> first | rfl | (rcases rests with e | e <;> cases e)

theorem claimLost_asks (some_ : (w.st.fan i).claims.none_ = false) (waits : (w.st.fan i).state = .waiting) : w.claimLost i = w.consider := by
  unfold Work.claimLost
  rw [some_, if_neg Bool.false_ne_true, waits]

theorem claimLost_keeps (some_ : (w.st.fan i).claims.none_ = false) (moves : (w.st.fan i).state ≠ .waiting) : w.claimLost i = w := by
  unfold Work.claimLost
  rw [some_, if_neg Bool.false_ne_true]
  cases state : (w.st.fan i).state with
  | waiting => exact absurd state moves
  | _ => rfl

theorem stopOrCoast_early (early : (w.st.fan i).minRunElapsed = false) :
    w.stopOrCoast i = w.map fun s => s.setFan i { s.fan i with stopPending := true } := by
  unfold Work.stopOrCoast
  rw [early]
  rfl

theorem stopOrCoast_elapsed (elapsed : (w.st.fan i).minRunElapsed = true) : w.stopOrCoast i = w.enterCoasting i := by
  unfold Work.stopOrCoast
  rw [elapsed]
  rfl

/-- A fan leaves the waiting set for IDLE. -/
theorem idling_leave (s : State) (i : Fin 8) (f g : Fan) : ((s.setFan i f).leaveWaiting i).idling i g = ((s.setFan i { g with
      state := .idle, coastTimer := none, retryTimer := none
      noteTimer := if g.flow.debounced then some (s.time.clock + 10000) else none
      clearTimer := if g.flowNote && !g.flow.debounced then g.clearTimer else none }).notice (.fanChange i .idle none)).setArb
      { s.arb with waiting := vset s.arb.waiting i none } := by
  generalize same : ({ g with
      state := .idle, coastTimer := none, retryTimer := none
      noteTimer := if g.flow.debounced then some (s.time.clock + 10000) else none
      clearTimer := if g.flowNote && !g.flow.debounced then g.clearTimer else none } : Fan) = h
  have idle : ((s.setFan i f).leaveWaiting i).idling i g = (((s.setFan i f).leaveWaiting i).setFan i h).notice (.fanChange i .idle none) := by
    rw [← same]; rfl
  have fans : ((s.setFan i f).leaveWaiting i).setFan i h = (s.setFan i h).leaveWaiting i := by
    rw [← setFan_setFan s i f h]; rfl
  rw [idle, fans]
  rfl

/-- What follows a claim's removal: R73, by the fan's state. -/
theorem claimEnded (lost : (s.fan i).Unclaimed f) : ClaimEnded s i f (({ s.begin with st := s.setFan i f } : Work).claimLost i).finish := by
  have fan : (({ s.begin with st := s.setFan i f } : Work)).st.fan i = f := State.setFan_fan_same ..
  have out : (({ s.begin with st := s.setFan i f } : Work)).out = [] := rfl
  have state := lost.state
  generalize at_ : ({ s.begin with st := s.setFan i f } : Work) = w at fan out ⊢
  have st : w.st = s.setFan i f := by rw [← at_]
  refine ⟨fun some_ moves => ?_, fun some_ waits => ?_, fun none_ runs early => ?_, fun none_ runs elapsed => ?_, fun none_ waits => ?_,
    fun none_ rests => ?_⟩
  · rw [claimLost_keeps (by rw [fan]; exact some_) (by rw [fan, state]; exact moves), finish_nil out, st]
  · rw [claimLost_asks (by rw [fan]; exact some_) (by rw [fan, state]; exact waits), ← st]
    exact considered out
  · rw [claimLost_stops (by rw [fan]; exact none_) (by rw [fan, state]; exact runs), stopOrCoast_early (by rw [fan, lost.rest]; exact early), finish_nil]
    · change w.st.setFan i { w.st.fan i with stopPending := true } = _
      rw [fan, st, setFan_setFan]
    · exact out
  · have going : (w.st.fan i).state = .proving ∨ (w.st.fan i).state = .running := by rw [fan, state]; exact runs
    have coasting : w.st.coasted i (w.st.fan i) = (s.setFan i { f with
        state := .coasting, output := false, stopPending := false, manualTimer := none, provingTimer := none, minRunTimer := none
        retryTimer := none, flowLossTimer := none, exerciseTimer := none
        coastTimer := startTimer s.time.clock (1000 * (s.fan i).cfg.coast), noteTimer := none
        clearTimer := if (s.fan i).flowNote && !(s.fan i).flow.debounced then (s.fan i).clearTimer else none
        offTime := if (s.fan i).output then some s.time.clock else (s.fan i).offTime }).notice (.fanChange i .coasting none) := by
      rw [fan, st]
      unfold State.coasted
      rw [setFan_setFan, lost.rest]
      rfl
    rw [claimLost_stops (by rw [fan]; exact none_) going, stopOrCoast_elapsed (by rw [fan, lost.rest]; exact elapsed), ← coasting]
    obtain ⟨new, grown, quiet⟩ := (calm_enterCoasting w i).out
    refine ⟨(enterCoasting_settles w going).trans (settle_settles_quiet _ (by rw [grown, out]; exact quiet)), fun free => ?_,
      fun _ _ law => ?_⟩
    · rw [enterCoasting_free w going (by rw [fan, lost.cfg, st]; exact free)]
      exact finish_nil out
    · rw [← at_]
      have alone := coasts_alone law lost none_ (by rw [state]; exact runs)
      rw [alone]
      have same : (s.setFan i f).coasted i ((s.setFan i f).fan i) = s.coasted i f := by
        rw [State.setFan_fan_same]
        unfold State.coasted
        rw [setFan_setFan]
        rfl
      exact congrArg (fun t : State => t.fan i) same.symm
  · have idling : (w.st.leaveWaiting i).idling i (w.st.fan i) = ((s.setFan i { f with
        state := .idle, coastTimer := none, retryTimer := none
        noteTimer := if (s.fan i).flow.debounced then some (s.time.clock + 10000) else none
        clearTimer := if (s.fan i).flowNote && !(s.fan i).flow.debounced then (s.fan i).clearTimer else none }).notice
        (.fanChange i .idle none)).setArb { s.arb with waiting := vset s.arb.waiting i none } := by
      rw [fan, st, idling_leave, lost.rest]
    rw [claimLost_waiting (by rw [fan]; exact none_) (by rw [fan, state]; exact waits)]
    have stays : ((w.map fun s => s.leaveWaiting i).st.fan i).state = .waiting := (congrArg Fan.state fan).trans (state.trans waits)
    rw [enterIdle_eq (w.map fun s => s.leaveWaiting i) i (.inl stays), ← idling]
    exact exerciseTested (w := { w.map fun s => s.leaveWaiting i with st := (w.st.leaveWaiting i).idling i (w.st.fan i) }) out i
  · rw [claimLost_rests (by rw [fan]; exact none_) (by rw [fan, state]; exact rests), finish_nil out, st]

end

end Sys2Proof.Machine
end

section
/-! The statement about the fan's timers, and the one about FAN STOP. -/

namespace Sys2Proof.Machine

section
variable {w v : Work} {s t : State} {i : Fin 8} {f g : Fan}

/-! ## What a claim's end leaves alone -/

/-- The four things that follow a claim's removal. -/
theorem claimLost_cases (w : Work) (i : Fin 8) : w.claimLost i = w ∨ w.claimLost i = w.consider ∨
    (((w.st.fan i).state = .proving ∨ (w.st.fan i).state = .running) ∧ w.claimLost i = w.stopOrCoast i) ∨
    ((w.st.fan i).state = .waiting ∧ w.claimLost i = (w.map fun s => s.leaveWaiting i).enterIdle i) := by
  cases set : (w.st.fan i).claims.none_ with
  | false =>
    by_cases waits : (w.st.fan i).state = .waiting
    · exact .inr (.inl (claimLost_asks set waits))
    · exact .inl (claimLost_keeps set waits)
  | true =>
    by_cases waits : (w.st.fan i).state = .waiting
    · exact .inr (.inr (.inr ⟨waits, claimLost_waiting set waits⟩))
    by_cases runs : (w.st.fan i).state = .proving ∨ (w.st.fan i).state = .running
    · exact .inr (.inr (.inl ⟨runs, claimLost_stops set runs⟩))
    · refine .inl (claimLost_rests set ?_)
      cases state : (w.st.fan i).state with
      | waiting => exact absurd state waits
      | proving => exact absurd (.inl state) runs
      | running => exact absurd (.inr state) runs
      | idle => exact .inl rfl
      | _ => exact .inr rfl

theorem calm_claimLost (w : Work) (i : Fin 8) : Calm w (w.claimLost i) := by
  rcases claimLost_cases w i with e | e | ⟨-, e⟩ | ⟨-, e⟩ <;> rw [e]
  · exact .refl w
  · exact calm_consider w
  · exact calm_stopOrCoast w i
  · exact (calm_leaveWaiting w i).trans (calm_enterIdle _ i)

theorem moving_rests (moves : (s.fan i).state.resting = false) : FanRests s t i := fun _ rests => by rw [moves] at rests; cases rests

theorem rests_claimLost (w : Work) (i : Fin 8) : CascadeRests w.st (w.claimLost i).st := by
  rcases claimLost_cases w i with e | e | ⟨runs, e⟩ | ⟨waits, e⟩ <;> rw [e] <;> intro j
  · exact .refl _ j
  · exact rests_consider j w
  · by_cases same : j = i
    · subst same
      exact moving_rests (by rcases runs with e | e <;> rw [e] <;> rfl)
    · exact (same_stopOrCoast j w same).rests
  · by_cases same : j = i
    · subst same
      exact moving_rests (by rw [waits]; rfl)
    · exact ((same_setWaiting j w same (x := none) rfl).rests).trans (rests_enterIdle j _ same)

theorem ungranted_claimLost (w : Work) (i : Fin 8) : Ungranted w.st (w.claimLost i).st := by
  rcases claimLost_cases w i with e | e | ⟨-, e⟩ | ⟨-, e⟩ <;> rw [e]
  · exact .refl _
  · exact ungranted_consider w
  · exact (grants_stopOrCoast w i).un
  · exact (grants_setWaiting w (g := fun s => { s.arb with waiting := vset s.arb.waiting i none }) rfl rfl rfl).un.trans
      (ungranted_enterIdle _ i)

theorem claimLost_settles (out : w.out = []) (i : Fin 8) : Settles w.st (w.claimLost i).finish := by
  obtain ⟨new, grown, quiet⟩ := (calm_claimLost w i).out
  have first : Settles w.st (w.claimLost i).st :=
    ⟨(calm_claimLost w i).keeps, rests_claimLost w i, ungranted_claimLost w i, .of_sense (calm_claimLost w i).sense⟩
  refine first.trans (settle_settles_quiet _ ?_)
  rw [grown, out]
  exact quiet

/-! ## The expiries of the claims' timers -/

/-- The end of a claim whose timer has been stopped first: the two writes come to one. -/
theorem removeClaim_written {src : Source} {g : Fan} (held : (s.fan i).claims.has src = true) (claims : g.claims = (s.fan i).claims)
    (gone : g.withoutClaim src = f) :
    (s.begin.map fun s => s.setFan i g).removeClaim i src = ({ s.begin with st := s.setFan i f } : Work).claimLost i := by
  have fan : (s.begin.map fun s => s.setFan i g).st.fan i = g := State.setFan_fan_same ..
  rw [removeClaim_eq (by rw [fan, claims]; exact held)]
  unfold Work.map
  dsimp only
  rw [State.setFan_fan_same, setFan_setFan, gone]
  rfl

theorem manualTimerExpiry_ends {t : Nat} (running : (s.fan i).manualTimer = some t) (due_ : t ≤ s.time.clock)
    (held : (s.fan i).claims.manual = true) : exec (.manualTimerExpiry i) s = .next (({ s.begin with st := s.setFan i { s.fan i with
      claims := { (s.fan i).claims with manual := false }, manualDuration := none, manualTimer := none } } : Work).claimLost i).finish := by
  change execManualTimerExpiry i s = _
  unfold execManualTimerExpiry
  rw [due_of_le (now := s.clock) running due_, if_pos rfl]
  exact congrArg (fun w : Work => goOn w.finish)
    (removeClaim_written (src := .manual) (g := { s.fan i with manualTimer := none, manualDuration := none }) held rfl rfl)

theorem exerciseRunExpiry_ends {t : Nat} (running : (s.fan i).exerciseTimer = some t) (due_ : t ≤ s.time.clock)
    (held : (s.fan i).claims.exercise = true) : exec (.exerciseRunExpiry i) s = .next (({ s.begin with st := s.setFan i { s.fan i with
      claims := { (s.fan i).claims with exercise := false }, exerciseTimer := none } } : Work).claimLost i).finish := by
  change execExerciseRunExpiry i s = _
  unfold execExerciseRunExpiry
  rw [due_of_le (now := s.clock) running due_, if_pos rfl]
  exact congrArg (fun w : Work => goOn w.finish)
    (removeClaim_written (src := .exercise) (g := { s.fan i with exerciseTimer := none }) held rfl rfl)

/-! ## Min-run, coast and exercise -/

/-- The record of a fan whose min-run has elapsed (R78). -/
def Fan.minRunOver (f : Fan) : Fan := { f with minRunTimer := none, minRunElapsed := true }

theorem minRunExpiry_runs {t : Nat} (runs : (s.fan i).state = .proving ∨ (s.fan i).state = .running)
    (running : (s.fan i).minRunTimer = some t) (due_ : t ≤ s.time.clock) : exec (.minRunExpiry i) s = .next (s.does fun w =>
      if (s.fan i).stopPending then w.moveFan i ((s.fan i).minRunOver.coasting s.clock)
      else w.moveFan i (s.fan i).minRunOver) := by
  change execMinRunExpiry i s = _
  unfold execMinRunExpiry
  dsimp only
  rw [if_pos ⟨runs, due_of_le (now := s.clock) running due_⟩]
  rfl

/-- A fan in PROVING or RUNNING goes on measuring the end of its FLOW NOTE (R95). -/
theorem remeasure_going {g : Fan} (runs : f.state = .proving ∨ f.state = .running) (state : g.state = f.state) (note : g.flowNote = f.flowNote)
    (flow : g.flow = f.flow) (clock : Nat) : g.remeasure f clock = { g with
      noteTimer := none, clearTimer := if f.flowNote && !f.flow.debounced then g.clearTimer else none } := by
  have still : g.still = false := by rcases runs with e | e <;> exact still_of_state (state.trans e) rfl
  have managed (h : Fan) (e : h.state = f.state) : h.managed = true := decide_eq_true (by rw [e]; rcases runs with e | e <;> rw [e] <;> exact nofun)
  rw [remeasure_eq, still, managed g state, managed f rfl, note, flow]
  cases f.flowNote <;> cases f.flow.debounced <;> rfl

/-- A stop-pending fan whose min-run has elapsed coasts (R78, R79). -/
theorem minRun_coasts (runs : (s.fan i).state = .proving ∨ (s.fan i).state = .running) :
    s.moved i ((s.fan i).minRunOver.coasting s.clock) =
      s.coasted i { s.fan i with minRunElapsed := true } := by
  generalize elapsed : (s.fan i).minRunOver = g
  have state : g.state = (s.fan i).state := by rw [← elapsed]; rfl
  have change_ : (g.coasting s.clock).state ≠ (s.fan i).state := by rcases runs with e | e <;> rw [e] <;> exact nofun
  have managed : g.managed = true := decide_eq_true (by rw [state]; rcases runs with e | e <;> rw [e] <;> exact nofun)
  have measured : (g.coasting s.clock).remeasure (s.fan i) s.clock = (g.coasting s.clock).remeasure g s.clock := by rw [← elapsed]; rfl
  rw [State.moved_of_change change_, measured, remeasure_coasting managed, ← elapsed]
  rfl

theorem coastExpiry_runs {t : Nat} (coasts : (s.fan i).state = .coasting) (running : (s.fan i).coastTimer = some t) (due_ : t ≤ s.time.clock) :
    exec (.coastExpiry i) s = .next (s.does fun w => if (s.fan i).claims.none_ then w.enterIdle i else w.enterWaiting i) := by
  change execCoastExpiry i s = _
  unfold execCoastExpiry
  rw [if_pos ⟨coasts, due_of_le (now := s.clock) running due_⟩]
  rfl

theorem exerciseDue_runs {t : Nat} (running : (s.fan i).exerciseDue = some t) (due_ : t ≤ s.time.clock) :
    exec (.exerciseDue i) s = .next (s.does fun w => w.exerciseFallsDue i) := by
  change execExerciseDue i s = _
  unfold execExerciseDue
  rw [due_of_le (now := s.clock) running due_]
  rfl

theorem exerciseFallsDue_running (running : (w.st.fan i).state = .running) : w.exerciseFallsDue i =
    w.map fun s => s.setFan i { s.fan i with exerciseDue := (w.st.fan i).nextExercise s.clock } := if_pos running

theorem exerciseFallsDue_owes (moves : (w.st.fan i).state ≠ .running) : w.exerciseFallsDue i =
    (w.map fun s => s.setFan i { s.fan i with exerciseDue := none, exerciseOwed := true }).testExercise i := if_neg moves

end

/-- Settles O42, timer by timer: a claim that ends does what R73 says, and a fan that comes to IDLE tests for its exercise. -/
theorem fanTimersExpire : Obligations.FanTimersExpire := by
  constructor
  · intro i t s due_ noting clearing
    refine ⟨fun runs running => ⟨fun going => ?_, fun stops => ?_⟩, fun coasts running => ⟨fun none_ => ?_, fun some_ => ?_⟩⟩
    · rw [minRunExpiry_runs runs running due_, going]
      congr 1
      have quiet := takeFlow_quiet s.begin i (f := (s.fan i).minRunOver) rfl rfl rfl
      rw [remeasure_going (f := s.begin.st.fan i) (g := (s.fan i).minRunOver) runs rfl rfl rfl] at quiet
      exact does_of_eq (f := fun w => w.moveFan i (s.fan i).minRunOver) quiet
    · refine ⟨_, minRunExpiry_runs runs running due_, ?_⟩
      rw [stops]
      have moved := moveFan_settles s.begin i ((s.fan i).minRunOver.coasting s.clock)
      have quiet := (calm_moveFan s.begin i (f := (s.fan i).minRunOver.coasting s.clock)
        ⟨rfl, rfl, rfl, rfl, rfl, fun _ => rfl, id, id⟩).out
      obtain ⟨new, grown, quiet⟩ := quiet
      rw [← State.moved] at moved
      have coasts := minRun_coasts (s := s) runs
      have settles := moved.trans (settle_settles_quiet settleLimit (by rw [grown]; exact quiet))
      exact (congrArg (fun u => Settles u _) coasts).mp settles
    · refine ⟨_, coastExpiry_runs coasts running due_, ?_⟩
      have enters := enterIdle_eq s.begin i (.inr coasts)
      have tested := exerciseTested (w := { s.begin with st := s.idling i (s.fan i) }) rfl i
      rw [none_]
      exact (congrArg (fun w : Work => ExerciseTested (s.idling i (s.fan i)) i w.finish) enters).mpr tested
    · refine ⟨_, coastExpiry_runs coasts running due_, ?_⟩
      rw [some_]
      have enters : s.begin.enterWaiting i = ({ s.begin with st := s.asking i (s.fan i) } : Work).consider := by
        rw [enterWaiting_eq, queued_eq s.begin i (.inr coasts)]
        rfl
      exact (congrArg (fun w : Work => Considered (s.asking i (s.fan i)) w.finish) enters).mpr
        (considered (w := { s.begin with st := s.asking i (s.fan i) }) rfl)
  · intro i t s due_
    refine ⟨fun running held => ?_, fun running held => ?_, fun running => ⟨fun runs => ?_, fun moves => ?_⟩⟩
    · intro released
      exact ⟨_, manualTimerExpiry_ends running due_ held, claimLost_settles (w := { s.begin with st := s.setFan i released }) rfl i,
        claimEnded ⟨rfl, rfl⟩⟩
    · intro released
      exact ⟨_, exerciseRunExpiry_ends running due_ held, claimLost_settles (w := { s.begin with st := s.setFan i released }) rfl i,
        claimEnded ⟨rfl, rfl⟩⟩
    · rw [exerciseDue_runs running due_, ← nextExercise_eq]
      congr 1
      exact does_of_eq (f := fun w => w.exerciseFallsDue i) (exerciseFallsDue_running (w := s.begin) runs)
    · refine ⟨_, exerciseDue_runs running due_, ?_⟩
      have owes := exerciseFallsDue_owes (w := s.begin) moves
      exact (congrArg (fun w : Work => ExerciseTested (s.setFan i { s.fan i with exerciseDue := none, exerciseOwed := true }) i w.finish) owes).mpr
        (exerciseTested (w := { s.begin with st := s.setFan i { s.fan i with exerciseDue := none, exerciseOwed := true } }) rfl i)

end Sys2Proof.Machine
end

section
/-! The statement about FAN STOP. -/

namespace Sys2Proof.Machine

section
variable {s t : State} {i : Fin 8}

/-- The record of a fan without its MANUAL claim (R72). -/
def Fan.unmanned (f : Fan) : Fan := { f with claims := { f.claims with manual := false }, manualDuration := none, manualTimer := none }

theorem unmanned_lost (f : Fan) : f.Unclaimed f.unmanned := ⟨rfl, rfl⟩

theorem none_unmanned (f : Fan) : f.unmanned.claims.none_ = (!f.claims.anyZone && !f.claims.exercise) := by
  unfold Claims.none_ Fan.unmanned
  dsimp only
  rw [Bool.not_false, Bool.and_true]
  rfl

/-- What FAN STOP leaves of a fan that holds the claim. -/
def State.stopped (s : State) (i : Fin 8) : State := (({ s.begin with st := s.setFan i (s.fan i).unmanned } : Work).claimLost i).finish

theorem does_stop (held : (s.fan i).claims.manual = true) : (s.does fun w => w.removeClaim i .manual) = s.stopped i := by
  have removed := removeClaim_eq (w := s.begin) (i := i) (src := .manual) held
  exact congrArg Work.finish removed

theorem fanStop_absent (absent : (s.fan i).cfg.present = false) : answerFanStop (indexByte i) s = refuse s .notPresent := by
  unfold answerFanStop
  rw [readIndex_indexByte (by decide)]
  dsimp only
  rw [absent]
  rfl

theorem fanStop_answer (present : (s.fan i).cfg.present = true) (done : (s.does fun w => w.removeClaim i .manual) = t) :
    answerFanStop (indexByte i) s =
      { st := t, status := .ok
        marks := { stillClaimed := (s.fan i).claims.manual && !(s.fan i).unmanned.claims.none_, noClaim := !(s.fan i).claims.manual }
        body := (t.fan i).state.code :: listBE (t.fan i).claims.codes } := by
  unfold answerFanStop
  rw [readIndex_indexByte (by decide)]
  dsimp only
  rw [present, done]
  rfl

/-- FAN STOP of a fan without the claim answers NO CLAIM (R87). -/
theorem accepted_unheld {tag : Byte} (free : s.link.outstanding = none) (present : (s.fan i).cfg.present = true)
    (unheld : (s.fan i).claims.manual = false) :
    Accepted (.fanStop tag (indexByte i)) s s 0xA1 tag 4 ((s.fan i).state.code :: listBE (s.fan i).claims.codes) := by
  have nothing : (s.does fun w => w.removeClaim i .manual) = s := by
    have quiet := removeClaim_unheld (w := s.begin) (i := i) (src := .manual) unheld
    exact (congrArg Work.finish quiet).trans (finish_nil rfl)
  have answer := fanStop_answer present nothing
  rw [unheld] at answer
  exact accepted_of (act := answerFanStop (indexByte i)) (exec_request rfl s) free (congrArg Answer.st answer) rfl
    (congrArg Answer.status answer) (congrArg (fun a => a.marks.code) answer) (congrArg Answer.body answer)

/-- FAN STOP of a fan with the claim: STILL CLAIMED where it keeps another (R87). -/
theorem accepted_stopped {tag : Byte} (free : s.link.outstanding = none) (present : (s.fan i).cfg.present = true)
    (held : (s.fan i).claims.manual = true) {m : Byte} (marks : (if (s.fan i).claims.anyZone || (s.fan i).claims.exercise then 2 else 0) = m)
    (left : s.stopped i = t) :
    Accepted (.fanStop tag (indexByte i)) s t 0xA1 tag m ((t.fan i).state.code :: listBE (t.fan i).claims.codes) := by
  have answer := fanStop_answer present ((does_stop held).trans left)
  rw [held, none_unmanned] at answer
  refine accepted_of (act := answerFanStop (indexByte i)) (exec_request rfl s) free (congrArg Answer.st answer) rfl
    (congrArg Answer.status answer) ((congrArg (fun a => a.marks.code) answer).trans ?_) (congrArg Answer.body answer)
  rw [← marks]
  cases (s.fan i).claims.anyZone <;> cases (s.fan i).claims.exercise <;> rfl

theorem stopped_ended (s : State) (i : Fin 8) : ClaimEnded s i (s.fan i).unmanned (s.stopped i) := claimEnded (unmanned_lost _)

/-- A fan that goes on from FAN STOP at the record `f` keeps it through what follows. -/
theorem accepted_written {tag m : Byte} {f : Fan} {x : FanState} {cs : List Byte}
    (accepted : Accepted (.fanStop tag (indexByte i)) s (s.setFan i f) 0xA1 tag m
      (((s.setFan i f).fan i).state.code :: listBE ((s.setFan i f).fan i).claims.codes))
    (state : f.state = x) (codes : listBE f.claims.codes = cs) : Accepted (.fanStop tag (indexByte i)) s (s.setFan i f) 0xA1 tag m (x.code :: cs) := by
  rw [State.setFan_fan_same, state, codes] at accepted
  exact accepted

theorem codes_none {c : Claims} (h : c.none_ = true) : listBE c.codes = [0] := by
  rw [empty_of_none h]
  decide

/-- A coasting fan rests: it has coasted on when the step is done. -/
theorem coasted_rests {f : Fan} (settles : Settles (s.coasted i f) t) (unasked : s.requestTime i = none) :
    (t.fan i).state = .coasting ∧ (t.fan i).output = false ∧
    (t.fan i).offTime = (if f.output then some s.time.clock else f.offTime) ∧
    (t.fan i).coastTimer = startTimer s.time.clock (1000 * f.cfg.coast) := by
  have fan : (s.coasted i f).fan i = _ := State.setFan_fan_same ..
  obtain ⟨-, same, -⟩ := settles.rests i unasked (by rw [fan]; rfl)
  rw [same, fan]
  exact ⟨rfl, rfl, rfl, rfl⟩

end

/-- Settles O16, by the state of the fan that loses its MANUAL claim (R73). -/
theorem fanStopReleasesTheFan : Obligations.FanStopReleasesTheFan := by
  intro tag i s free released
  refine ⟨fun absent => declined_request (status := .notPresent) rfl free rfl (fanStop_absent absent),
    fun present unheld => accepted_unheld free present unheld, fun present held => ?_⟩
  have ended : ClaimEnded s i released (s.stopped i) := stopped_ended s i
  have settles : Settles (s.setFan i released) (s.stopped i) :=
    claimLost_settles (w := { s.begin with st := s.setFan i released }) rfl i
  have zones : ZonesKept s (s.setFan i released) := zonesKept_of_zones rfl
  have emptied : released.claims.none_ = (!(s.fan i).claims.anyZone && !(s.fan i).claims.exercise) := none_unmanned (s.fan i)
  have mark {m : Byte} {t : State} (marks : (if (s.fan i).claims.anyZone || (s.fan i).claims.exercise then 2 else 0) = m)
      (left : s.stopped i = t) := accepted_stopped (tag := tag) free present held marks left
  refine ⟨⟨_, mark rfl rfl, settles.keeps, zones.trans settles.zones, fun runs elapsed unzoned idle unasked => ?_⟩,
    fun unzoned idle => ⟨fun runs early => ?_, fun rests => ?_, fun waits => ?_⟩, fun claimed => ⟨fun moves => ?_, fun waits => ?_⟩⟩
  · have coasts := (ended.coasts (by rw [emptied, unzoned, idle]; rfl) runs elapsed).1
    exact coasted_rests (f := released) coasts unasked
  · have stops := ended.stops (by rw [emptied, unzoned, idle]; rfl) runs early
    exact accepted_written (f := { released with stopPending := true }) (mark (by rw [unzoned, idle]; rfl) stops) rfl
      (codes_none (by rw [emptied, unzoned, idle]; rfl))
  · have none_ : released.claims.none_ = true := by rw [emptied, unzoned, idle]; rfl
    have rests := ended.rests none_ (rests.imp id fun e => by rw [e]; rfl)
    exact accepted_written (f := released) (mark (by rw [unzoned, idle]; rfl) rests) rfl (codes_none none_)
  · have none_ : released.claims.none_ = true := by rw [emptied, unzoned, idle]; rfl
    have tested := ended.leaves none_ waits
    have m : (if (s.fan i).claims.anyZone || (s.fan i).claims.exercise then (2 : Byte) else 0) = 0 := by rw [unzoned, idle]; rfl
    dsimp only at tested
    intro idling taken
    have fan : idling.fan i = _ := State.setFan_fan_same ..
    refine ⟨fun untaken => ?_, fun owes asked ask => ?_⟩
    · have left := tested.1 fun h => untaken ⟨by rw [fan] at h; exact h.2.1, h.2.2.1, h.2.2.2.1⟩
      have accepted := mark m left
      have codes : listBE (idling.fan i).claims.codes = [0] := by rw [fan]; exact codes_none none_
      rw [codes, fan] at accepted
      exact accepted
    · have considered_ := tested.2 ⟨by rw [fan], by rw [fan]; exact owes.1, owes.2.1, owes.2.2, by rw [fan]; exact idle⟩ asked ask
      refine ⟨fun no => ?_, fun j choice => ⟨_, mark m rfl, considered_.2 j choice⟩⟩
      have accepted := mark m (considered_.1 no)
      have asking := startAsked_idle (by rw [fan]) ask
      have at_ : asked.fan i = _ := (congrArg (fun t : State => t.fan i) asking).trans (State.setFan_fan_same ..)
      have codes : listBE (asked.fan i).claims.codes = [1, 7] := by
        rw [at_, fan]
        dsimp only
        rw [empty_of_none none_]
        decide
      rw [codes, at_] at accepted
      exact accepted
  · have some_ : released.claims.none_ = false := by
      rw [emptied]
      rcases claimed with e | e <;> rw [e] <;> simp
    have marks : (if (s.fan i).claims.anyZone || (s.fan i).claims.exercise then (2 : Byte) else 0) = 2 := by
      rcases claimed with e | e <;> rw [e] <;> simp
    exact accepted_written (f := released) (mark marks (ended.kept some_ moves)) rfl rfl
  · have some_ : released.claims.none_ = false := by
      rw [emptied]
      rcases claimed with e | e <;> rw [e] <;> simp
    have marks : (if (s.fan i).claims.anyZone || (s.fan i).claims.exercise then (2 : Byte) else 0) = 2 := by
      rcases claimed with e | e <;> rw [e] <;> simp
    have considered_ := ended.waits some_ waits
    exact ⟨fun none_ => accepted_written (f := released) (mark marks (considered_.1 none_)) waits rfl,
      fun j choice => ⟨_, mark marks rfl, considered_.2 j choice⟩⟩

end Sys2Proof.Machine
end

section
/-! The statement about the zones' timers, EQZ and the gas level. -/

namespace Sys2Proof.Machine

/-! ## The gas level (R48 to R50) -/

section
variable {z : Zone} {clock v : Nat}

theorem settleGas_rises (voted : z.voted = some v) (rises : z.gas < z.cfg.levelMet v) :
    z.settleGas clock = { z with gas := z.cfg.levelMet v, holdTimer := none } := by
  unfold Zone.settleGas
  rw [voted]
  exact if_pos rises

theorem settleGas_stays (voted : z.voted = some v) (stays : ¬z.gas < z.cfg.levelMet v) : z.settleGas clock = { z with
    holdTimer := if z.gas ≠ 0 ∧ z.cfg.below z.gas v = true then
      (if z.holdTimer.isSome then z.holdTimer else startTimer clock (seconds z.cfg.hold)) else none } := by
  unfold Zone.settleGas
  rw [voted]
  refine (if_neg stays).trans ?_
  by_cases zero : z.gas = 0
  · rw [if_pos zero, if_neg (fun h => h.1 zero)]
  · by_cases below : z.cfg.below z.gas v = true
    · rw [if_neg zero, if_pos below, if_pos (show z.gas ≠ 0 ∧ z.cfg.below z.gas v = true from ⟨zero, below⟩)]
    · rw [if_neg zero, if_neg below, if_neg (fun h => below h.2)]

theorem levelMet_val (c : ZoneCfg) (v : Nat) : (c.levelMet v).val =
    if c.t3 ≤ v then 3 else if c.t2 ≤ v then 2 else if c.t1 ≤ v then 1 else 0 := by
  unfold ZoneCfg.levelMet
  split
  · rfl
  · split
    · rfl
    · split <;> rfl

theorem below_iff (c : ZoneCfg) {g : Fin 4} (level : g ≠ 0) (v : Nat) : c.below g v = true ↔
    v + c.hysteresis < if g = 1 then c.t1 else if g = 2 then c.t2 else c.t3 := by
  have threshold : c.threshold g = if g = 1 then c.t1 else if g = 2 then c.t2 else c.t3 := by
    unfold ZoneCfg.threshold
    fin_cases g <;> simp_all
  unfold ZoneCfg.below
  rw [decide_eq_true_eq, threshold]

/-- The gas level of a zone with a voted reading (R48, R49). -/
theorem settleGas_voted (voted : z.voted = some v) (hold : 0 < z.cfg.hold) :
    let met : Nat := if z.cfg.t3 ≤ v then 3 else if z.cfg.t2 ≤ v then 2 else if z.cfg.t1 ≤ v then 1 else 0
    let threshold : Nat := if z.gas = 1 then z.cfg.t1 else if z.gas = 2 then z.cfg.t2 else z.cfg.t3
    (z.gas.val < met → (z.settleGas clock).gas.val = met ∧ (z.settleGas clock).holdTimer = none) ∧
    (met ≤ z.gas.val → (z.settleGas clock).gas = z.gas ∧
      (z.gas = 0 ∨ threshold ≤ v + z.cfg.hysteresis → (z.settleGas clock).holdTimer = none) ∧
      (z.gas ≠ 0 → v + z.cfg.hysteresis < threshold →
        (z.settleGas clock).holdTimer = some (z.holdTimer.getD (clock + 1000 * z.cfg.hold)))) := by
  intro met threshold
  have level := levelMet_val z.cfg v
  refine ⟨fun rises => ?_, fun stays => ?_⟩
  · rw [settleGas_rises voted (Fin.lt_def.2 (by rw [level]; exact rises))]
    exact ⟨level, rfl⟩
  · rw [settleGas_stays voted (fun h => absurd (Fin.lt_def.1 h) (by rw [level]; exact Nat.not_lt.2 stays))]
    refine ⟨rfl, fun ends => if_neg ?_, fun some_ low => (if_pos ⟨some_, (below_iff z.cfg some_ v).2 low⟩).trans ?_⟩
    · rintro ⟨some_, low⟩
      exact ends.elim some_ (Nat.not_le.2 ((below_iff z.cfg some_ v).1 low))
    · cases running : z.holdTimer with
      | some t => rfl
      | none =>
        refine (if_neg (by simp)).trans ?_
        rw [startTimer_seconds]
        unfold startTimer
        exact if_neg (by omega)

theorem settleGas_unvoted (voted : z.voted = none) : z.settleGas clock = { z with holdTimer := none } := by
  unfold Zone.settleGas
  rw [voted]

end

/-! ## The expiries -/

section
variable {s : State} {w : Work} {z : Fin 6} {r : Zone}

/-- An evaluation from the demand, to its end: what the event has made of the zone's senses it keeps. -/
theorem does_evaluateDemand (kept : ZoneKept (s.zone z) r) (always : Bool) :
    CascadeKeeps s (s.does fun w => w.evaluateDemand z r always) ∧
    ∀ y, SenseKept (if z = y then r else s.zone y) ((s.does fun w => w.evaluateDemand z r always).zone y) := by
  have calm := (calm_demandStep (s.begin.map fun s => s.setZone z r) z always).trans (calm_endEvaluation _ z (s.zone z))
  obtain ⟨new, grown, quiet⟩ := calm.out
  have after := settle_calm settleLimit (s.begin.evaluateDemand z r always) (by
    intro h mem
    refine quiet h ?_
    have e : (s.begin.evaluateDemand z r always).out = new := grown.trans (List.nil_append _)
    rwa [e] at mem)
  refine ⟨(keeps_evaluateDemand s.begin z always kept).trans after.1, fun y => ?_⟩
  have sensed := calm.sense y
  rw [Work.map_st, State.setZone_zone] at sensed
  exact sensed.trans (after.2.1 y)

theorem zoneHoldExpiry_runs {t : Nat} (active : (s.zone z).active = true) (running : (s.zone z).holdTimer = some t) (due_ : t ≤ s.time.clock) :
    exec (.zoneHoldExpiry z) s = .next (s.does fun w => w.evaluateDemand z ((s.zone z).fallGas s.clock) false) := by
  change execZoneHoldExpiry z s = _
  unfold execZoneHoldExpiry
  rw [if_pos ⟨active, due_of_le (now := s.clock) running due_⟩]
  rfl

theorem lingerExpiry_runs {t : Nat} (active : (s.zone z).active = true) (running : (s.zone z).lingerTimer = some t) (due_ : t ≤ s.time.clock) :
    exec (.lingerExpiry z) s =
      .next (s.does fun w => w.evaluateDemand z { s.zone z with coupling := false, lingerTimer := none } false) := by
  change execLingerExpiry z s = _
  unfold execLingerExpiry
  rw [if_pos ⟨active, due_of_le (now := s.clock) running due_⟩]
  rfl

theorem fallGas_gas (r : Zone) (clock : Nat) : (r.fallGas clock).gas.val = r.gas.val - 1 := by
  have all (g : Fin 4) : (if g = 3 then (2 : Fin 4) else if g = 2 then 1 else 0).val = g.val - 1 := by revert g; decide
  exact all r.gas

/-- The gas level after a fall (R49). -/
def Zone.fallenTo (r : Zone) : Fin 4 := if r.gas = 3 then 2 else if r.gas = 2 then 1 else 0

theorem fallen_threshold {r : Zone} (some_ : r.fallenTo ≠ 0) :
    (if r.fallenTo = 1 then r.cfg.t1 else if r.fallenTo = 2 then r.cfg.t2 else r.cfg.t3) =
      if r.fallenTo.val = 1 then r.cfg.t1 else r.cfg.t2 := by
  unfold Zone.fallenTo at some_ ⊢
  by_cases three : r.gas = 3
  · rw [if_pos three]; rfl
  · rw [if_neg three] at some_ ⊢
    by_cases two : r.gas = 2
    · rw [if_pos two]; rfl
    · rw [if_neg two] at some_
      exact absurd rfl some_

/-- The hold after a fall of the gas level (R49). -/
theorem fallGas_hold (r : Zone) (clock : Nat) :
    let level := r.gas.val - 1
    let threshold := if level = 1 then r.cfg.t1 else r.cfg.t2
    let below := level ≠ 0 ∧ ∃ v, r.voted = some v ∧ v + r.cfg.hysteresis < threshold
    (below → (r.fallGas clock).holdTimer = startTimer clock (1000 * r.cfg.hold)) ∧ (¬below → (r.fallGas clock).holdTimer = none) := by
  intro level threshold below
  have fallen : r.fallGas clock = { r with
      gas := r.fallenTo
      holdTimer := if (decide (r.fallenTo ≠ 0) && r.voted.any fun v => r.cfg.below r.fallenTo v) = true
        then startTimer clock (seconds r.cfg.hold) else none } := rfl
  have again : (decide (r.fallenTo ≠ 0) && r.voted.any fun v => r.cfg.below r.fallenTo v) = true ↔ below := by
    have val : r.fallenTo.val = level := fallGas_gas r clock
    have some_ : r.fallenTo ≠ 0 ↔ level ≠ 0 := by rw [← val]; exact Fin.val_ne_zero_iff.symm
    rw [Bool.and_eq_true, decide_eq_true_eq, Option.any_eq_true, some_]
    refine and_congr_right fun nonzero => exists_congr fun v => and_congr_right fun _ => ?_
    rw [below_iff r.cfg (some_.2 nonzero), fallen_threshold (some_.2 nonzero), val]
  rw [fallen, startTimer_seconds]
  exact ⟨fun h => if_pos (again.2 h), fun h => if_neg (again.not.2 h)⟩

/-! ## EQZ -/

/-- What EQZ makes of a zone, it makes alike of two records that agree on its coupling (R52). -/
theorem couple_sense {x y : Zone} (cfg : y.cfg = x.cfg) (kept : SenseKept x y) (active : Bool) (clock : Nat) :
    SenseKept (x.couple active clock) (y.couple active clock) := by
  unfold Zone.couple
  rw [cfg]
  split
  · exact ⟨kept.sight, kept.voted, kept.gas, kept.holdTimer, rfl, rfl, kept.spill⟩
  · split
    · exact ⟨kept.sight, kept.voted, kept.gas, kept.holdTimer, rfl, rfl, kept.spill⟩
    · exact ⟨kept.sight, kept.voted, kept.gas, kept.holdTimer, kept.coupling, rfl, kept.spill⟩

theorem couple_ends {r : Zone} {clock : Nat} (none_ : r.cfg.linger = 0) :
    r.couple false clock = { r with coupling := false, lingerTimer := none } := by
  unfold Zone.couple
  rw [if_neg Bool.false_ne_true, none_]
  rfl

theorem couple_lingers {r : Zone} {clock : Nat} (some_ : r.cfg.linger ≠ 0) :
    r.couple false clock = { r with lingerTimer := some (clock + 1000 * r.cfg.linger) } := by
  have started : startTimer clock (seconds r.cfg.linger) = some (clock + 1000 * r.cfg.linger) := by
    rw [startTimer_seconds]
    exact if_neg (by omega)
  unfold Zone.couple
  rw [if_neg Bool.false_ne_true, started]

/-- A zone takes EQZ: its record couples, and no other zone's senses change. -/
theorem takeCoupling_sense (w : Work) (z : Fin 6) (active : Bool) : (w.takeCoupling z active).st.alarm = w.st.alarm ∧
    (∃ new, (w.takeCoupling z active).out = w.out ++ new ∧ ∀ h ∈ new, h.quiet = true) ∧
    ∀ y, SenseKept (if z = y then (w.st.zone z).couple active w.st.clock else w.st.zone y) ((w.takeCoupling z active).st.zone y) := by
  refine ⟨(within_takeCoupling w z active).alarm, ?_⟩
  unfold Work.takeCoupling
  dsimp only
  split
  · refine ⟨⟨[], by simp [Work.map], fun _ m => nomatch m⟩, fun y => ?_⟩
    rw [Work.map_st, State.setZone_zone]
    exact .refl _
  · have calm := (calm_demandStep (w.map fun s => s.setZone z ((w.st.zone z).couple active w.st.clock)) z false).trans
      (calm_endEvaluation _ z (w.st.zone z))
    refine ⟨calm.out, fun y => ?_⟩
    have sensed := calm.sense y
    rw [Work.map_st, State.setZone_zone] at sensed
    exact sensed

/-- The active zones take EQZ one by one; what else is led to reaches neither their senses nor the EQZ image. -/
theorem settle_couplings (zs : List (Fin 6)) (nodup : zs.Nodup) (active : Bool) (fuel : Nat) (enough : zs.length ≤ fuel) (w : Work)
    (more : List Handover) (out : w.out = (zs.map fun z => Handover.coupling z active) ++ more) (quiet : ∀ h ∈ more, h.quiet = true)
    (open_ : ∀ z ∈ zs, (w.st.zone z).active = true) : (w.settle fuel).st.alarm.eqz = w.st.alarm.eqz ∧
      ∀ y, SenseKept (if y ∈ zs then (w.st.zone y).couple active w.st.clock else w.st.zone y) ((w.settle fuel).st.zone y) := by
  induction zs generalizing fuel w more with
  | nil =>
    have calm := settle_calm fuel w (by rw [out]; exact quiet)
    exact ⟨calm.2.2.1, fun y => calm.2.1 y⟩
  | cons z zs ih =>
    obtain ⟨fuel, rfl⟩ : ∃ n, fuel = n + 1 := ⟨fuel - 1, by simp at enough; omega⟩
    obtain ⟨fresh, nodup⟩ := List.nodup_cons.1 nodup
    have step : w.settle (fuel + 1) =
        (({ w with out := (zs.map fun z => Handover.coupling z active) ++ more } : Work).takeCoupling z active).settle fuel := by
      rw [Work.settle, out]
      change Work.settle fuel (Work.ifActive _ z fun w => w.takeCoupling z active) = _
      exact congrArg (Work.settle fuel) (if_pos (open_ z List.mem_cons_self))
    obtain ⟨alarm, ⟨new, grown, quiet'⟩, sensed⟩ :=
      takeCoupling_sense { w with out := (zs.map fun z => Handover.coupling z active) ++ more } z active
    have keeps := keeps_takeCoupling { w with out := (zs.map fun z => Handover.coupling z active) ++ more } z active
    have rest := ih nodup fuel (by simpa using enough) _ (more ++ new) (by rw [grown, List.append_assoc])
      (fun h mem => (List.mem_append.1 mem).elim (quiet h) (quiet' h))
      (fun y mem => ((keeps.zones y).active).trans (open_ y (List.mem_cons_of_mem z mem)))
    rw [step]
    refine ⟨rest.1.trans (congrArg Alarm.eqz alarm), fun y => ?_⟩
    have later := rest.2 y
    have before := sensed y
    have clock : ((({ w with out := (zs.map fun z => Handover.coupling z active) ++ more } : Work).takeCoupling z active).st).clock = w.st.clock :=
      congrArg Timebase.clock keeps.time
    by_cases same : z = y
    · subst same
      rw [if_neg fresh] at later
      rw [if_pos rfl] at before
      rw [if_pos List.mem_cons_self]
      exact before.trans later
    · rw [if_neg same] at before
      have mem : y ∈ z :: zs ↔ y ∈ zs := by rw [List.mem_cons]; exact or_iff_right (Ne.symm same)
      simp only [mem]
      split at later
      · rename_i listed
        rw [if_pos listed]
        rw [clock] at later
        exact (couple_sense (keeps.zones y).cfg before active w.st.clock).trans later
      · rename_i unlisted
        rw [if_neg unlisted]
        exact before.trans later

theorem eqzDebounce_runs {t : Nat} (running : s.eqz.timer = some t) (due_ : t ≤ s.time.clock) : exec .eqzDebounce s = .next (s.does fun w =>
    ((w.map fun s => { s with eqz := s.eqz.toggle }).post (.eqz (!s.eqz.debounced))).forEachOpen s.activeZones
      fun w z => w.post (.coupling z (!s.eqz.debounced))) := by
  change execEqzDebounce s = _
  unfold execEqzDebounce
  rw [due_of_le (now := s.clock) running due_]
  rfl

/-- The work of a change of EQZ. -/
def Work.eqzTurns (w : Work) : Work :=
  ((w.map fun s => { s with eqz := s.eqz.toggle }).post (.eqz (!w.st.eqz.debounced))).forEachOpen w.st.activeZones
    fun v z => v.post (.coupling z (!w.st.eqz.debounced))

theorem mem_activeZones {s : State} {z : Fin 6} : z ∈ s.activeZones ↔ (s.zone z).active = true := by
  unfold State.activeZones
  simp

/-- A change of EQZ, to its end: every active zone couples, the alarm unit holds the new value, and nothing else is sensed. -/
theorem eqzTurns_done (s : State) : (s.does Work.eqzTurns).alarm.eqz = (!s.eqz.debounced) ∧
    CascadeKeeps { s with eqz := s.eqz.toggle } (s.does Work.eqzTurns) ∧
    ∀ y, SenseKept (if (s.zone y).active = true then (s.zone y).couple (!s.eqz.debounced) s.time.clock else s.zone y)
      ((s.does Work.eqzTurns).zone y) := by
  have st : s.begin.eqzTurns.st = { s with eqz := s.eqz.toggle, choices := s.choices + drawsFor s.activeZones } := by
    change (((inOpenOrder _ s.activeZones).foldl (fun (w : Work) z => w.post (.coupling z (!s.eqz.debounced))) _).st) = _
    rw [foldl_post_st]
    rfl
  have out : s.begin.eqzTurns.out =
      Handover.eqz (!s.eqz.debounced) :: (inOpenOrder s.choices s.activeZones).map fun z => .coupling z (!s.eqz.debounced) :=
    forEachOpen_post_out ..
  have perm := inOpenOrder_perm s.choices s.activeZones
  have done : s.does Work.eqzTurns = (s.begin.eqzTurns.settle settleLimit).st := rfl
  generalize s.begin.eqzTurns = v at st out done
  rw [done]
  have zone (y : Fin 6) : v.st.zone y = s.zone y := by unfold State.zone; rw [st]
  have clock : v.st.clock = s.time.clock := by unfold State.clock; rw [st]
  have keeps := settle_keeps settleLimit v
  have first : v.settle settleLimit =
      (({ v with out := (inOpenOrder s.choices s.activeZones).map fun z => .coupling z (!s.eqz.debounced) } : Work).takeEqz
        (!s.eqz.debounced)).settle 4095 := by
    unfold settleLimit
    rw [Work.settle, out]
    rfl
  rw [first] at keeps ⊢
  have calm := calm_alarmPass (({ v with out := (inOpenOrder s.choices s.activeZones).map fun z => .coupling z (!s.eqz.debounced) } : Work).map
    fun r => r.setAlarm { r.alarm with eqz := !s.eqz.debounced }) false []
  obtain ⟨new, grown, quiet⟩ := calm.out
  have nodup : (inOpenOrder s.choices s.activeZones).Nodup := perm.nodup_iff.2 ((List.nodup_finRange 6).filter _)
  have few : (inOpenOrder s.choices s.activeZones).length ≤ 4095 := by
    rw [perm.length_eq]
    exact (filter_finRange_le _).trans (by decide)
  obtain ⟨image, senses⟩ := settle_couplings _ nodup (!s.eqz.debounced) 4095 few _ new grown quiet fun z mem => by
    rw [(calm.keeps.zones z).active]
    exact (congrArg Zone.active (zone z)).trans (mem_activeZones.1 (perm.mem_iff.1 mem))
  have ticks : (({ v with out := (inOpenOrder s.choices s.activeZones).map fun z => .coupling z (!s.eqz.debounced) } : Work).takeEqz
      (!s.eqz.debounced)).st.clock = s.time.clock := (congrArg Timebase.clock calm.keeps.time).trans clock
  refine ⟨image.trans calm.eqzImage, ?_, fun y => ?_⟩
  · have drawn : CascadeKeeps { s with eqz := s.eqz.toggle } v.st := by
      rw [st]
      exact (settles_choices { s with eqz := s.eqz.toggle } _).keeps
    exact drawn.trans keeps
  · have kept := senses y
    have before := calm.sense y
    have own : (({ v with out := (inOpenOrder s.choices s.activeZones).map fun z => .coupling z (!s.eqz.debounced) } : Work).map
      fun r => r.setAlarm { r.alarm with eqz := !s.eqz.debounced }).st.zone y = s.zone y := zone y
    rw [own] at before
    by_cases active : (s.zone y).active = true
    · rw [if_pos (perm.mem_iff.2 (mem_activeZones.2 active))] at kept
      rw [if_pos active]
      have cfg := (calm.keeps.zones y).cfg
      rw [own] at cfg
      have both := couple_sense cfg before (!s.eqz.debounced) s.time.clock
      exact both.trans (ticks ▸ kept)
    · rw [if_neg (perm.mem_iff.not.2 (mem_activeZones.not.2 active))] at kept
      rw [if_neg active]
      exact before.trans kept

end

/-- Settles O39: an evaluation and its cascade keep what the event has made of the zone's senses; the gas level by cases on the reading. -/
theorem zoneTimersEqzAndGasLevel : Obligations.ZoneTimersEqzAndGasLevel := by
  refine ⟨⟨fun z t s active due_ => ⟨fun running => ?_, fun running => ?_⟩, fun t s running due_ => ?_⟩,
    fun z clock v voted _ _ hold => settleGas_voted voted hold, fun z clock voted => settleGas_unvoted voted⟩
  · intro level threshold below
    have kept : ZoneKept (s.zone z) ((s.zone z).fallGas s.clock) := ⟨rfl, rfl⟩
    obtain ⟨keeps, senses⟩ := does_evaluateDemand kept false
    have own := senses z
    rw [if_pos rfl] at own
    obtain ⟨again, ends⟩ := fallGas_hold (s.zone z) s.clock
    refine ⟨_, zoneHoldExpiry_runs active running due_, keeps, by rw [own.gas]; exact fallGas_gas _ _, fun low => own.holdTimer.trans (again low),
      fun high => own.holdTimer.trans (ends high), own.sight, own.voted, own.coupling, own.lingerTimer, own.spill, fun y ne => ?_⟩
    have other := senses y
    rwa [if_neg ne.symm] at other
  · have kept : ZoneKept (s.zone z) { s.zone z with coupling := false, lingerTimer := none } := ⟨rfl, rfl⟩
    obtain ⟨keeps, senses⟩ := does_evaluateDemand kept false
    have own := senses z
    rw [if_pos rfl] at own
    refine ⟨_, lingerExpiry_runs active running due_, keeps, own.coupling, own.lingerTimer, fun y => ?_⟩
    have any := senses y
    by_cases same : z = y
    · subst same
      rw [if_pos rfl, decide_eq_false (fun h => h rfl), Bool.and_false]
      exact own
    · rw [if_neg same] at any
      rw [if_neg (Ne.symm same), decide_eq_true (Ne.symm same), Bool.and_true]
      exact any
  · obtain ⟨image, keeps, senses⟩ := eqzTurns_done s
    refine ⟨_, eqzDebounce_runs running due_, keeps, image, fun z => ?_, fun z idle => ?_, fun z active => ?_⟩
    · have kept := senses z
      split at kept
      · obtain ⟨c, t, coupled⟩ := couple_rest (s.zone z) (!s.eqz.debounced) s.time.clock
        rw [coupled] at kept
        exact ⟨kept.sight, kept.voted, kept.gas, kept.holdTimer, rfl, rfl, kept.spill⟩
      · exact ⟨kept.sight, kept.voted, kept.gas, kept.holdTimer, rfl, rfl, kept.spill⟩
    · have kept := senses z
      rwa [idle, if_neg Bool.false_ne_true] at kept
    · have kept := senses z
      rw [if_pos active] at kept
      refine ⟨fun absent => ?_, fun present none_ => ?_, fun present some_ => ?_⟩
      · rw [absent] at kept
        exact ⟨kept.coupling, kept.lingerTimer⟩
      · rw [present, Bool.not_true, couple_ends none_] at kept
        exact ⟨kept.coupling, kept.lingerTimer⟩
      · rw [present, Bool.not_true, couple_lingers some_] at kept
        exact ⟨kept.coupling, kept.lingerTimer⟩

end Sys2Proof.Machine
end

section
/-! The order of an allocation, the vote, the demand and availability, as the rules give them. -/

namespace Sys2Proof.Machine

/-! ## The order of an allocation (R57) -/

theorem pairwise_idxOf {α : Type} [DecidableEq α] {xs : List α} (nodup : xs.Nodup) :
    xs.Pairwise fun x y => xs.idxOf x < xs.idxOf y := by
  rw [List.pairwise_iff_getElem]
  intro i j hi hj less
  rw [nodup.idxOf_getElem i hi, nodup.idxOf_getElem j hj]
  exact less

section
variable {order claims : List (Fin 8)} {n : Nat} {p : Fin 8 → Bool} {f g : Fin 8}

/-- An added fan stands before every available fan that the allocation leaves out. -/
theorem added_before (nodup : order.Nodup) (listed : claims.Sublist order) (new : f ∈ allocated order claims n p)
    (fresh : f ∉ keptClaims claims n p) (mem : g ∈ order) (free : p g = true) (out : g ∉ allocated order claims n p) :
    order.idxOf f < order.idxOf g := by
  have added : f ∈ addedClaims order claims n p := ((mem_allocated listed).1 new).resolve_left fresh
  have left : g ∉ keptClaims claims n p ∧ g ∉ addedClaims order claims n p := by
    rw [mem_allocated listed, not_or] at out
    exact out
  have candidate : g ∈ order.filter fun f => p f && !(keptClaims claims n p).contains f := by
    refine List.mem_filter.2 ⟨mem, ?_⟩
    rw [free, Bool.true_and, Bool.not_eq_true', Bool.eq_false_iff, ne_eq, List.contains_iff_mem]
    exact left.1
  have later : g ∈ (order.filter fun f => p f && !(keptClaims claims n p).contains f).drop (n - (keptClaims claims n p).length) := by
    rw [← List.take_append_drop (n - (keptClaims claims n p).length) (order.filter _)] at candidate
    exact (List.mem_append.1 candidate).resolve_left left.2
  have sorted := (pairwise_idxOf nodup).sublist (List.filter_sublist (p := fun f => p f && !(keptClaims claims n p).contains f))
  rw [← List.take_append_drop (n - (keptClaims claims n p).length) (order.filter _)] at sorted
  exact (List.pairwise_append.1 sorted).2.2 f added g later

end

/-! ## The vote (R46, R47) -/

theorem highest_cons (x : Nat) (xs : List Nat) : highest (x :: xs) = max x (highest xs) := by
  unfold highest
  rw [List.foldl_cons, Nat.max_comm 0 x, List.foldl_assoc]

theorem le_highest {xs : List Nat} {x : Nat} (mem : x ∈ xs) : x ≤ highest xs := by
  induction xs with
  | nil => cases mem
  | cons y ys ih =>
    rw [highest_cons]
    rcases List.mem_cons.1 mem with rfl | rest
    · exact Nat.le_max_left ..
    · exact (ih rest).trans (Nat.le_max_right ..)

theorem highest_mem {xs : List Nat} (some_ : xs ≠ []) : highest xs ∈ xs := by
  induction xs with
  | nil => exact absurd rfl some_
  | cons y ys ih =>
    rw [highest_cons]
    rcases Nat.le_total (highest ys) y with least | above
    · rw [Nat.max_eq_left least]
      exact List.mem_cons_self
    · rw [Nat.max_eq_right above]
      by_cases none_ : ys = []
      · have zero : y = 0 := by rw [none_] at above; exact Nat.le_zero.1 above
        rw [none_, zero]
        exact List.mem_cons_self
      · exact List.mem_cons_of_mem y (ih none_)

section
variable {s : State} {z : Fin 6}

/-- The members of a zone: the enabled channels whose zone field names it (R43). -/
theorem members_eq (s : State) (z : Fin 6) : s.members z =
    (List.finRange 16).filter fun i => (s.chan i).cfg.enabled && decide ((s.chan i).cfg.zone = some z) := by
  unfold State.members
  refine List.filter_congr fun i _ => ?_
  unfold Channel.memberOf
  cases (s.chan i).cfg.enabled <;> simp

/-- The readings that the vote takes: those of the members in TRACKING that have one (R11, R47). -/
theorem healthyReadings_eq (s : State) (z : Fin 6) : s.healthyReadings z =
    ((s.members z).filter fun i => decide ((s.chan i).state = .tracking)).filterMap fun i => (s.chan i).reading := by
  unfold State.healthyReadings
  rw [List.filterMap_filter]
  refine List.filterMap_congr fun i _ => ?_
  unfold Channel.healthy
  by_cases tracking : (s.chan i).state = .tracking
  · rw [decide_eq_true tracking, Bool.true_and]
    cases (s.chan i).reading <;> rfl
  · rw [decide_eq_false tracking]
    rfl

theorem failed_iff (c : Channel) : c.failed = true ↔ ∃ cause, c.state = .fault cause := by
  unfold Channel.failed
  cases c.state <;> simp

theorem anyFailed_iff (s : State) (z : Fin 6) : ((s.members z).any fun i => (s.chan i).failed) = true ↔
    ∃ i ∈ s.members z, ∃ cause, (s.chan i).state = .fault cause := by
  rw [List.any_eq_true]
  exact exists_congr fun i => and_congr_right fun _ => failed_iff _

theorem sightOf_iff (vote : Vote) (readings : List Nat) (failed : Bool) :
    (sightOf vote readings failed = .seeing ↔ (vote = .max ∧ 1 ≤ readings.length) ∨ (vote = .second ∧ 2 ≤ readings.length)) ∧
    (sightOf vote readings failed = .degraded ↔ vote = .second ∧ readings.length = 1) ∧
    (sightOf vote readings failed = .blind ↔ readings = [] ∧ failed = true) ∧
    (sightOf vote readings failed = .paused ↔ readings = [] ∧ ¬failed = true) := by
  match vote, readings with
  | .max, [] => cases failed <;> simp [sightOf]
  | .second, [] => cases failed <;> simp [sightOf]
  | .max, x :: xs => simp [sightOf]
  | .second, [x] => simp [sightOf]
  | .second, x :: y :: xs => simp [sightOf]

theorem votedOf_max {readings : List Nat} (some_ : readings ≠ []) :
    ∃ v ∈ readings, votedOf .max readings = some v ∧ ∀ x ∈ readings, x ≤ v := by
  match readings with
  | [r] => exact ⟨r, by simp, rfl, by simp⟩
  | r :: q :: rest => exact ⟨_, highest_mem (by simp), rfl, fun x mem => le_highest mem⟩

theorem votedOf_second {readings : List Nat} (two : 2 ≤ readings.length) : ∃ top v rest, readings.Perm (top :: v :: rest) ∧ v ≤ top ∧
    (∀ x ∈ rest, x ≤ v) ∧ votedOf .second readings = some v := by
  match readings with
  | r :: q :: rest =>
    have first := List.perm_cons_erase (highest_mem (xs := r :: q :: rest) (by simp))
    have some_ : (r :: q :: rest).erase (highest (r :: q :: rest)) ≠ [] := by
      intro none_
      have := first.length_eq
      rw [none_] at this
      simp at this
    have second := List.perm_cons_erase (highest_mem some_)
    exact ⟨_, _, _, first.trans (second.cons _), le_highest (List.mem_of_mem_erase (highest_mem some_)),
      fun x mem => le_highest (List.mem_of_mem_erase mem), rfl⟩

end

/-! ## The demand and availability (R54, R56) -/

theorem demandUnder_iff (z : Zone) (regime : Regime) :
    let purge := 2 ≤ z.gas.val ∨ z.sight = some .paused ∨ z.sight = some .blind ∨ regime = .critical
    let boost := 1 ≤ z.gas.val ∨ (z.cfg.coupled = true ∧ z.coupling = true) ∨ z.spill = true
    (z.demandUnder regime = .purge ↔ purge) ∧ (z.demandUnder regime = .boost ↔ ¬purge ∧ boost) ∧
    (z.demandUnder regime = .base ↔ ¬purge ∧ ¬boost ∧ z.cfg.baseFloor = .base) ∧
    (z.demandUnder regime = .idle ↔ ¬purge ∧ ¬boost ∧ z.cfg.baseFloor = .idle) := by
  intro purge boost
  have demand : z.demandUnder regime = if 2 ≤ z.gas ∨ z.sight = some .paused ∨ z.sight = some .blind ∨ regime = .critical then .purge
      else if 1 ≤ z.gas ∨ (z.cfg.coupled = true ∧ z.coupling = true) ∨ z.spill = true then .boost
      else match z.cfg.baseFloor with | .base => .base | .idle => .idle := rfl
  have two : (2 ≤ z.gas ∨ z.sight = some .paused ∨ z.sight = some .blind ∨ regime = .critical) ↔ purge := Iff.rfl
  have one : (1 ≤ z.gas ∨ (z.cfg.coupled = true ∧ z.coupling = true) ∨ z.spill = true) ↔ boost := Iff.rfl
  rw [demand]
  simp only [two, one]
  by_cases p : purge
  · simp [p]
  · by_cases b : boost
    · simp [p, b]
    · cases z.cfg.baseFloor <;> simp [p, b]

theorem available_iff (f : Fan) (regime : Regime) : f.available regime = true ↔
    f.cfg.present = true ∧ (f.state = .proving ∨ f.state = .running ∨
      ((f.state = .idle ∨ f.state = .waiting ∨ f.state = .coasting) ∧ ¬(regime = .critical ∧ f.cfg.rating = .ordinary))) := by
  unfold Fan.available
  rw [Bool.and_eq_true]
  refine and_congr_right fun _ => ?_
  cases f.state <;> simp [imp_iff_not_or]

end Sys2Proof.Machine
end

section
/-! What the work at the fans leaves of the zones and of the claims, in every state, and the statement about the zones' evaluations. -/

namespace Sys2Proof.Machine

/-- Work of the fans that leaves every zone's record, and every zone's claim of a fan but those in `P`. -/
structure ClaimsTurn (P : Fin 8 → Fin 6 → Prop) (w v : Work) : Prop where
  zones : v.st.zones = w.st.zones
  carries : ∀ i z, ¬P i z → v.carries i z = w.carries i z

section
variable {P Q : Fin 8 → Fin 6 → Prop} {u v w : Work} {i : Fin 8}

theorem ClaimsTurn.refl (P : Fin 8 → Fin 6 → Prop) (w : Work) : ClaimsTurn P w w := ⟨rfl, fun _ _ _ => rfl⟩

theorem ClaimsTurn.trans (a : ClaimsTurn P u v) (b : ClaimsTurn P v w) : ClaimsTurn P u w :=
  ⟨b.zones.trans a.zones, fun i z n => (b.carries i z n).trans (a.carries i z n)⟩

theorem ClaimsTurn.mono (a : ClaimsTurn P w v) (sub : ∀ i z, P i z → Q i z) : ClaimsTurn Q w v :=
  ⟨a.zones, fun i z n => a.carries i z fun p => n (sub i z p)⟩

theorem ClaimsTurn.ite {p : Prop} [Decidable p] {a b : Work} (ha : p → ClaimsTurn P w a) (hb : ¬p → ClaimsTurn P w b) :
    ClaimsTurn P w (if p then a else b) := by
  split
  · exact ha ‹_›
  · exact hb ‹_›

/-- One fan takes a record that no zone's claim but those in `P` has changed in. -/
theorem cturn_of_fan (i : Fin 8) {f : Fan} (zones : v.st.zones = w.st.zones) (fan : v.st.fan i = f) (others : ∀ j, i ≠ j → v.st.fan j = w.st.fan j)
    (claims : ∀ z, ¬P i z → vget f.claims.zones z = vget (w.st.fan i).claims.zones z) : ClaimsTurn P w v := by
  refine ⟨zones, fun j z n => ?_⟩
  change vget (v.st.fan j).claims.zones z = vget (w.st.fan j).claims.zones z
  by_cases e : i = j
  · subst e
    rw [fan]
    exact claims z n
  · rw [others j e]

theorem cturn_setFan (w : Work) (i : Fin 8) {g : State → Fan}
    (claims : ∀ z, ¬P i z → vget (g w.st).claims.zones z = vget (w.st.fan i).claims.zones z) :
    ClaimsTurn P w (w.map fun s => s.setFan i (g s)) :=
  cturn_of_fan i (f := g w.st) rfl (State.setFan_fan_same ..) (fun _ ne => (State.setFan_fan ..).trans (if_neg ne)) claims

theorem cturn_setArb (w : Work) (g : State → Arbiter) : ClaimsTurn P w (w.map fun s => s.setArb (g s)) := ⟨rfl, fun _ _ _ => rfl⟩

theorem cturn_moveFan (w : Work) (i : Fin 8) {f : Fan}
    (claims : ∀ z, ¬P i z → vget f.claims.zones z = vget (w.st.fan i).claims.zones z) : ClaimsTurn P w (w.moveFan i f) :=
  cturn_of_fan i (f := f.remeasure (w.st.fan i) w.st.clock) (moveFan_arb w i f).2 (moveFan_fan w i f)
    (fun j ne => (same_moveFan j w ne.symm f).1) claims

theorem cturn_enterProving (w : Work) (i : Fin 8) : ClaimsTurn P w (w.enterProving i) := by
  have proving : ClaimsTurn P w (w.moveFan i ((w.st.fan i).proving w.st.clock)) := cturn_moveFan w i fun _ _ => rfl
  exact .ite (fun _ => proving.trans (cturn_moveFan _ i fun _ _ => rfl)) fun _ => proving

theorem cturn_grant (w : Work) (i : Fin 8) : ClaimsTurn P w (w.grant i) := by
  have granted : ClaimsTurn P w (w.map fun s => s.setArb (s.arb.granted i s.clock)) := cturn_setArb w _
  exact (granted.trans (cturn_setFan _ i fun _ _ => rfl)).trans (cturn_enterProving _ i)

theorem cturn_consider (w : Work) : ClaimsTurn P w w.consider := by
  cases e : w.st.grantChoice with
  | none => rw [consider_none e]; exact .refl P w
  | some i => rw [consider_some e]; exact cturn_grant w i

theorem cturn_enterWaiting (w : Work) (i : Fin 8) : ClaimsTurn P w (w.enterWaiting i) := by
  have moved : ClaimsTurn P w (w.moveFan i { w.st.fan i with state := .waiting, coastTimer := none }) := cturn_moveFan w i fun _ _ => rfl
  exact (moved.trans (cturn_setArb _ _)).trans (cturn_consider _)

theorem cturn_testExercise (w : Work) (i : Fin 8) : ClaimsTurn P w (w.testExercise i) := by
  unfold Work.testExercise
  refine .ite (fun _ => ?_) fun _ => .refl P w
  have claimed : ClaimsTurn P w (w.map fun s => s.setFan i { s.fan i with
      exerciseOwed := false, claims := (s.fan i).claims.add .exercise }) := cturn_setFan w i fun _ _ => rfl
  exact claimed.trans (cturn_enterWaiting _ i)

theorem cturn_enterIdle (w : Work) (i : Fin 8) : ClaimsTurn P w (w.enterIdle i) := by
  have moved : ClaimsTurn P w (w.moveFan i { w.st.fan i with state := .idle, coastTimer := none, retryTimer := none }) :=
    cturn_moveFan w i fun _ _ => rfl
  exact moved.trans (cturn_testExercise _ i)

theorem cturn_stopOrCoast (w : Work) (i : Fin 8) : ClaimsTurn P w (w.stopOrCoast i) :=
  .ite (fun _ => cturn_moveFan w i fun _ _ => rfl) fun _ => cturn_setFan w i fun _ _ => rfl

/-! ## Claims that come and go -/

theorem cturn_claimed (w : Work) (i : Fin 8) (src : Source) : ClaimsTurn (ClaimOf i src) w (w.claimed i src) :=
  cturn_setFan w i fun z n => add_zones _ src z (claimOf_other n)

/-- What follows a claim that a fan takes. -/
theorem cturn_addClaim_after {src : Source} (fresh : (w.st.fan i).claims.has src = false) (takes : (w.st.fan i).takesClaims = true) :
    ClaimsTurn P (w.claimed i src) (w.addClaim i src) := by
  unfold Work.addClaim
  dsimp only
  rw [fresh, takes, if_neg (by decide)]
  split
  · exact cturn_enterWaiting _ i
  · exact cturn_consider _
  · exact cturn_setFan (w.claimed i src) i fun _ _ => rfl
  · exact cturn_setFan (w.claimed i src) i fun _ _ => rfl
  all_goals exact .refl P _

theorem cturn_addClaim (w : Work) (i : Fin 8) (src : Source) : ClaimsTurn (ClaimOf i src) w (w.addClaim i src) := by
  rcases addClaim_cases w i src with stays | ⟨fresh, takes⟩
  · rw [addClaim_stays stays]; exact .refl _ w
  · exact (cturn_claimed w i src).trans (cturn_addClaim_after fresh takes)

/-- A fan that takes claims carries the one that is added. -/
theorem addClaim_carried (z : Fin 6) (takes : (w.st.fan i).takesClaims = true) : (w.addClaim i (.zone z)).carries i z = true := by
  cases has : (w.st.fan i).claims.has (.zone z) with
  | true => rw [addClaim_stays (.inl has)]; exact has
  | false =>
    rw [(cturn_addClaim_after (P := fun _ _ => False) has takes).carries i z id]
    refine (congrArg (fun f : Fan => vget f.claims.zones z) (State.setFan_fan_same ..)).trans ?_
    exact vget_vset_same ..

theorem cturn_unclaimed (w : Work) (i : Fin 8) (src : Source) : ClaimsTurn (ClaimOf i src) w (w.unclaimed i src) := by
  obtain ⟨-, -, -, claims, -⟩ := withoutClaim_fields (w.st.fan i) src
  refine cturn_setFan w i fun z n => ?_
  rw [claims, remove_zones _ src z (claimOf_other n)]

/-- What follows a claim that a fan loses. -/
theorem cturn_removeClaim_after {src : Source} (has : (w.st.fan i).claims.has src = true) :
    ClaimsTurn P (w.unclaimed i src) (w.removeClaim i src) := by
  unfold Work.removeClaim
  dsimp only
  rw [has, if_neg (by decide)]
  refine .ite (fun _ => ?_) fun _ => ?_
  · split
    · have left : ClaimsTurn P (w.unclaimed i src) ((w.unclaimed i src).map fun s => s.leaveWaiting i) := cturn_setArb _ _
      exact left.trans (cturn_enterIdle _ i)
    · exact cturn_stopOrCoast _ i
    · exact cturn_stopOrCoast _ i
    all_goals exact .refl P _
  · split
    · exact cturn_consider _
    all_goals exact .refl P _

theorem cturn_removeClaim (w : Work) (i : Fin 8) (src : Source) : ClaimsTurn (ClaimOf i src) w (w.removeClaim i src) := by
  cases has : (w.st.fan i).claims.has src with
  | false => rw [removeClaim_stays has]; exact .refl _ w
  | true => exact (cturn_unclaimed w i src).trans (cturn_removeClaim_after has)

/-- A fan does not carry the claim that is removed. -/
theorem removeClaim_dropped (w : Work) (i : Fin 8) (z : Fin 6) : (w.removeClaim i (.zone z)).carries i z = false := by
  cases has : (w.st.fan i).claims.has (.zone z) with
  | false => rw [removeClaim_stays has]; exact has
  | true =>
    rw [(cturn_removeClaim_after (P := fun _ _ => False) has).carries i z id]
    refine (congrArg (fun f : Fan => vget f.claims.zones z) (State.setFan_fan_same ..)).trans ?_
    exact vget_vset_same ..

end

/-! ## Allocation (R57, R58) -/

section
variable {w : Work} {z : Fin 6}

/-- The claims of a zone that a list of operations changes: each listed fan's. -/
theorem claimOf_listed {x i : Fin 8} {xs : List (Fin 8)} {z y : Fin 6} (c : ClaimOf x (.zone z) i y) : i ∈ x :: xs ∧ y = z := by
  obtain ⟨rfl, e⟩ := c
  injection e with e
  exact ⟨List.mem_cons_self, e.symm⟩

theorem removeClaims_carried (xs : List (Fin 8)) (z : Fin 6) (w : Work) :
    ClaimsTurn (fun j y => j ∈ xs ∧ y = z) w (xs.foldl (fun w f => w.removeClaim f (.zone z)) w) ∧
    ∀ j ∈ xs, (xs.foldl (fun w f => w.removeClaim f (.zone z)) w).carries j z = false := by
  induction xs generalizing w with
  | nil => exact ⟨.refl _ w, fun _ m => nomatch m⟩
  | cons x xs ih =>
    have first := cturn_removeClaim w x (.zone z)
    obtain ⟨rest, dropped⟩ := ih (w.removeClaim x (.zone z))
    refine ⟨(first.mono fun _ _ c => claimOf_listed c).trans (rest.mono fun j y c => ⟨List.mem_cons_of_mem x c.1, c.2⟩), fun j mem => ?_⟩
    by_cases listed : j ∈ xs
    · exact dropped j listed
    · have e : j = x := (List.mem_cons.1 mem).resolve_right listed
      subst e
      exact (rest.carries j z fun c => listed c.1).trans (removeClaim_dropped w j z)

theorem addClaims_carried (xs : List (Fin 8)) (z : Fin 6) {w : Work} (takes : ∀ j ∈ xs, (w.st.fan j).takesClaims = true) :
    ClaimsTurn (fun j y => j ∈ xs ∧ y = z) w (xs.foldl (fun w f => w.addClaim f (.zone z)) w) ∧
    ∀ j ∈ xs, (xs.foldl (fun w f => w.addClaim f (.zone z)) w).carries j z = true := by
  induction xs generalizing w with
  | nil => exact ⟨.refl _ w, fun _ m => nomatch m⟩
  | cons x xs ih =>
    have first := cturn_addClaim w x (.zone z)
    obtain ⟨rest, carried⟩ := ih fun j m => ((calm_addClaim w x z).keeps.fans j).takesClaims (takes j (List.mem_cons_of_mem x m))
    refine ⟨(first.mono fun _ _ c => claimOf_listed c).trans (rest.mono fun j y c => ⟨List.mem_cons_of_mem x c.1, c.2⟩), fun j mem => ?_⟩
    by_cases listed : j ∈ xs
    · exact carried j listed
    · have e : j = x := (List.mem_cons.1 mem).resolve_right listed
      subst e
      exact (rest.carries j z fun c => listed c.1).trans (addClaim_carried z (takes j mem))

/-- What an allocation leaves of a zone and of the fans' claims, in whatever state it runs. -/
structure Work.AllocatedBy (w v : Work) (z : Fin 6) : Prop where
  zones : v.st.zones = (w.listedFor z).st.zones
  others : ∀ i y, y ≠ z → v.carries i y = w.carries i y
  manual : ∀ i, (v.st.fan i).claims.manual = (w.st.fan i).claims.manual
  gained : ∀ i ∈ addedClaims (w.st.zone z).cfg.order (w.st.zone z).claims (w.st.zone z).needed w.avails, v.carries i z = true
  lost : ∀ i ∈ releasedClaims (w.st.zone z).claims (w.st.zone z).needed w.avails,
    i ∉ addedClaims (w.st.zone z).cfg.order (w.st.zone z).claims (w.st.zone z).needed w.avails → v.carries i z = false
  stayed : ∀ i, i ∉ releasedClaims (w.st.zone z).claims (w.st.zone z).needed w.avails →
    i ∉ addedClaims (w.st.zone z).cfg.order (w.st.zone z).claims (w.st.zone z).needed w.avails → v.carries i z = w.carries i z

theorem allocate_by (w : Work) (z : Fin 6) : w.AllocatedBy (w.allocate z) z := by
  have manual (i) := ((calm_allocate w z).keeps.fans i).manual
  have calm := calm_foldl (fun w f => w.removeClaim f (.zone z)) (fun w f => calm_removeClaim w f z)
    (releasedClaims (w.st.zone z).claims (w.st.zone z).needed w.avails) (w.listedFor z)
  obtain ⟨released, dropped⟩ := removeClaims_carried (releasedClaims (w.st.zone z).claims (w.st.zone z).needed w.avails) z (w.listedFor z)
  rw [allocate_eq] at manual ⊢
  generalize (releasedClaims (w.st.zone z).claims (w.st.zone z).needed w.avails).foldl _ (w.listedFor z) = v at released dropped calm manual ⊢
  obtain ⟨added, carried⟩ := addClaims_carried (addedClaims (w.st.zone z).cfg.order (w.st.zone z).claims (w.st.zone z).needed w.avails) z
    (w := v) fun j mem => (calm.keeps.fans j).takesClaims (takes_of_available (mem_addedClaims mem).2.1)
  refine ⟨added.zones.trans released.zones, fun i y other => ?_, manual, carried, fun i mem out => ?_, fun i kept out => ?_⟩
  · exact (added.carries i y fun c => other c.2).trans (released.carries i y fun c => other c.2)
  · exact (added.carries i z fun c => out c.1).trans (dropped i mem)
  · exact (added.carries i z fun c => out c.1).trans (released.carries i z fun c => kept c.1)

end

end Sys2Proof.Machine
end

section
/-! The statement about the zones' evaluations and the allocation. -/

namespace Sys2Proof.Machine

section
variable {w : Work} {z : Fin 6} {i : Fin 8}

/-- A zone's record as sensed, with the demand that it gives under the regime. -/
def State.demanding (s : State) (z : Fin 6) : Zone :=
  { s.sense z with demand := some ((s.sense z).demandUnder s.alarm.regime) }

/-- The work up to the allocation of an evaluation that starts at sight. -/
def Work.sensed (w : Work) (z : Fin 6) : Work :=
  (w.map fun s => s.setZone z (s.sense z)).map fun s => s.setZone z (w.st.demanding z)

theorem sensed_zone (w : Work) (z : Fin 6) : (w.sensed z).st.zone z = w.st.demanding z := State.setZone_zone_same ..

theorem evaluateSight_eq (w : Work) (z : Fin 6) : w.evaluateSight z =
    (if (w.st.sense z).demand ≠ some ((w.st.sense z).demandUnder w.st.alarm.regime) then (w.sensed z).allocate z
      else w.sensed z).endEvaluation z (w.st.zone z) := by
  have zone : (w.map fun s => s.setZone z (s.sense z)).st.zone z = w.st.sense z := State.setZone_zone_same ..
  unfold Work.evaluateSight Work.demandStep
  dsimp only
  rw [zone, Bool.false_or]
  simp only [decide_eq_true_eq]
  rfl

theorem endEvaluation_blocks (w : Work) (z : Fin 6) (before : Zone) : (w.endEvaluation z before).st.zones = w.st.zones ∧
    (w.endEvaluation z before).st.fans = w.st.fans := by
  obtain ⟨l, st⟩ := endEvaluation_st w z before
  rw [st]
  exact ⟨rfl, rfl⟩

theorem zone_of_zones {s t : State} (h : t.zones = s.zones) (z : Fin 6) : t.zone z = s.zone z := by unfold State.zone; rw [h]
theorem fan_of_fans {s t : State} (h : t.fans = s.fans) (i : Fin 8) : t.fan i = s.fan i := by unfold State.fan; rw [h]

/-- Where the demand is as before, an evaluation is its sensing (R45, R55). -/
theorem evaluateSight_steady (steady : (w.st.sense z).demand = some ((w.st.sense z).demandUnder w.st.alarm.regime)) :
    (w.evaluateSight z).st.zone z = w.st.sense z ∧ ∀ i, (w.evaluateSight z).st.fan i = w.st.fan i := by
  rw [evaluateSight_eq, if_neg (not_not.2 steady)]
  obtain ⟨zones, fans⟩ := endEvaluation_blocks (w.sensed z) z (w.st.zone z)
  refine ⟨?_, fun i => (fan_of_fans fans i).trans rfl⟩
  rw [zone_of_zones zones, sensed_zone]
  unfold State.demanding
  rw [← steady]

/-- The claim list that an evaluation at sight allocates where the demand has changed. -/
def State.allots (s : State) (z : Fin 6) : List (Fin 8) :=
  allocated (s.sense z).cfg.order (s.sense z).claims ((s.sense z).cfg.need ((s.sense z).demandUnder s.alarm.regime))
    fun i => (s.fan i).available s.alarm.regime

theorem sensed_allotted (w : Work) (z : Fin 6) : (w.sensed z).allotted z = w.st.allots z := by
  unfold Work.allotted Zone.needed
  rw [sensed_zone]
  rfl

/-- Where the demand has changed, an evaluation at sight allocates (R45, R55, R57). -/
theorem evaluateSight_allocates (new : (w.st.sense z).demand ≠ some ((w.st.sense z).demandUnder w.st.alarm.regime)) :
    (w.sensed z).AllocatedBy (w.evaluateSight z) z ∧ (w.evaluateSight z).st.zone z = { w.st.demanding z with
      claims := w.st.allots z
      shortfall := decide ((w.st.allots z).length < (w.st.sense z).cfg.need ((w.st.sense z).demandUnder w.st.alarm.regime)) } := by
  rw [evaluateSight_eq, if_pos new]
  obtain ⟨zones, fans⟩ := endEvaluation_blocks ((w.sensed z).allocate z) z (w.st.zone z)
  have fan := fan_of_fans fans
  have h := allocate_by (w.sensed z) z
  constructor
  · have carries (i y) : (((w.sensed z).allocate z).endEvaluation z (w.st.zone z)).carries i y = ((w.sensed z).allocate z).carries i y :=
      congrArg (fun f : Fan => vget f.claims.zones y) (fan i)
    refine ⟨zones.trans h.zones, fun i y other => ?_, fun i => ?_, fun i mem => ?_, fun i mem out => ?_, fun i kept out => ?_⟩
    · rw [carries, h.others i y other]
    · rw [fan, h.manual]
    · rw [carries, h.gained i mem]
    · rw [carries, h.lost i mem out]
    · rw [carries, h.stayed i kept out]
  · rw [zone_of_zones (zones.trans h.zones), listedFor_zone, sensed_allotted, sensed_zone]
    rfl

/-- What an allocation adds, the zone did not have. -/
theorem added_fresh {order claims : List (Fin 8)} {n : Nat} {p : Fin 8 → Bool} {f : Fin 8} (added : f ∈ addedClaims order claims n p) :
    f ∉ claims := by
  obtain ⟨-, free, left⟩ := mem_addedClaims added
  intro had
  have surplus : n < (claims.filter p).length := by
    by_contra few
    refine left ?_
    unfold keptClaims
    rw [List.take_of_length_le (Nat.not_lt.1 few)]
    exact List.mem_filter.2 ⟨had, free⟩
  have none_ : addedClaims order claims n p = [] := by
    have full : (keptClaims claims n p).length = n := by
      unfold keptClaims
      rw [List.length_take, Nat.min_eq_left surplus.le]
    unfold addedClaims
    dsimp only
    rw [full, Nat.sub_self, List.take_zero]
  rw [none_] at added
  cases added

/-- The fans that an allocation by a zone's own list has added carry its claim, those dropped do not, and the others' stay (R58). -/
theorem allocatedBy_claims {v : Work} (h : w.AllocatedBy v z) (nodup : (w.st.zone z).cfg.order.Nodup)
    (listed : (w.st.zone z).claims.Sublist (w.st.zone z).cfg.order) (i : Fin 8) :
    (i ∈ w.allotted z → i ∉ (w.st.zone z).claims → v.carries i z = true) ∧
    (i ∈ (w.st.zone z).claims → i ∉ w.allotted z → v.carries i z = false) ∧
    ((i ∈ w.allotted z ↔ i ∈ (w.st.zone z).claims) → v.carries i z = w.carries i z) := by
  have list : i ∈ w.allotted z ↔ i ∈ keptClaims (w.st.zone z).claims (w.st.zone z).needed w.avails ∨
      i ∈ addedClaims (w.st.zone z).cfg.order (w.st.zone z).claims (w.st.zone z).needed w.avails := mem_allocated listed
  have gone := mem_releasedClaims (f := i) (n := (w.st.zone z).needed) (p := w.avails) (listed.nodup nodup)
  refine ⟨fun new fresh => ?_, fun old dropped => ?_, fun same => ?_⟩
  · exact h.gained i ((list.1 new).resolve_left fun kept => fresh (mem_keptClaims kept).1)
  · rw [list, not_or] at dropped
    exact h.lost i (gone.2 ⟨old, dropped.1⟩) dropped.2
  · refine h.stayed i (fun released => ?_) fun added => added_fresh added (same.1 (list.2 (.inr added)))
    obtain ⟨had, left⟩ := gone.1 released
    exact added_fresh ((list.1 (same.2 had)).resolve_left left) had

end

/-- A zone whose member's recovery limit has ended has sensed anew (R45). -/
theorem recoverLimit_sensed {s : State} {i : Fin 16} {z : Fin 6} {t : Nat} (state : (s.chan i).state = .recover)
    (running : (s.chan i).timer = some t) (due_ : t ≤ s.time.clock) (member : MemberOf s i z) :
    let sensed := (s.setChan i { s.chan i with state := .fault .noRecovery, timer := none }).sense z
    ∃ u, exec (.recoverLimitExpiry i) s = .next u ∧ (u.zone z).sight = sensed.sight ∧ (u.zone z).voted = sensed.voted ∧
      (u.zone z).gas = sensed.gas ∧ (u.zone z).holdTimer = sensed.holdTimer := by
  intro sensed
  obtain ⟨-, -, leads, -⟩ := channelTimersExpire i t s due_
  obtain ⟨u, runs, settles⟩ := leads state running
  exact ⟨u, runs, (settles.zones z).sensed member⟩

theorem sense_of_readings (s : State) (z : Fin 6) (readings : List Nat) (same : s.healthyReadings z = readings) :
    (s.sense z).sight = some (sightOf (s.zone z).cfg.vote readings ((s.members z).any fun i => (s.chan i).failed)) ∧
    (s.sense z).voted = votedOf (s.zone z).cfg.vote readings := by
  subst same
  obtain ⟨g, t, e⟩ := settleGas_rest (s.sightOn z) s.time.clock
  rw [State.sense_eq, e]
  exact ⟨rfl, rfl⟩

/-- Settles O40: the zone's senses by the list of its members, and an evaluation by the list that its allocation leaves. -/
theorem allocationTakesAvailableFansInOrder : Obligations.AllocationTakesAvailableFansInOrder := by
  refine ⟨fun order claims n p nodup listed => ?_, fun z s => ?_, fun i z t s state running due_ enabled zone active =>
    recoverLimit_sensed state running due_ ⟨active, enabled, zone⟩, demandUnder_iff, fun w z => ?_, available_iff⟩
  · exact ⟨allocated_sublist, fun f mem => allocated_available listed mem, allocated_length nodup listed,
      fun f kept => (mem_allocated listed).2 (.inl kept), fun f new fresh g mem free out => added_before nodup listed new fresh mem free out⟩
  · intro members readings failed vote
    have list : s.members z = members := members_eq s z
    have same : s.healthyReadings z = readings := (healthyReadings_eq s z).trans (by rw [list])
    obtain ⟨sight, voted⟩ := sense_of_readings s z readings same
    have some_ (v : Sight) : (s.sense z).sight = some v ↔
        sightOf vote readings ((s.members z).any fun i => (s.chan i).failed) = v := by rw [sight, Option.some_inj]
    have fails := anyFailed_iff s z
    rw [list] at fails
    obtain ⟨seeing, degraded, blind, paused⟩ := sightOf_iff vote readings ((s.members z).any fun i => (s.chan i).failed)
    rw [list] at blind paused
    refine ⟨(some_ _).trans seeing, (some_ _).trans degraded, (some_ _).trans ?_, (some_ _).trans ?_, fun none_ => ?_,
      fun max some_ => ?_, fun r one => ?_, fun second two => ?_⟩
    · rw [list, blind]
      exact and_congr_right fun _ => fails
    · rw [list, paused]
      exact and_congr_right fun _ => not_congr fails
    · rw [voted, none_]
      rfl
    · rw [voted, show (s.zone z).cfg.vote = .max from max]
      exact votedOf_max some_
    · rw [voted, one]
      rfl
    · rw [voted, show (s.zone z).cfg.vote = .second from second]
      exact votedOf_second two
  · intro sensed demand n claims after
    refine ⟨fun steady => evaluateSight_steady steady, fun new => ?_⟩
    have need : n = sensed.cfg.need demand := by
      change (match demand with | .idle => _ | .base => _ | .boost => _ | .purge => _) = _
      cases demand <;> rfl
    have allots : claims = w.st.allots z := by
      change allocated sensed.cfg.order sensed.claims n _ = _
      rw [need]
      rfl
    obtain ⟨by_, zone⟩ := evaluateSight_allocates new
    refine ⟨?_, fun nodup listed i => ?_⟩
    · rw [allots, need]
      exact zone
    · have record := sensed_zone w z
      obtain ⟨gained, lost, stayed⟩ := allocatedBy_claims by_ (by rw [record]; exact nodup) (by rw [record]; exact listed) i
      rw [record, sensed_allotted, ← allots] at gained lost stayed
      exact ⟨gained, lost, stayed, fun y other => by_.others i y other, by_.manual i⟩

end Sys2Proof.Machine
end

section
/-! The rotation of a zone's order, and the statement about ROTATE. -/

namespace Sys2Proof.Machine

theorem rotateOrder_eq (l : List (Fin 8)) : rotateOrder l = l.drop 1 ++ l.take 1 := by cases l <;> rfl

/-- A zone's record with its order rotated and its claim list in the new order (R63). -/
def Zone.rotated (z : Zone) : Zone :=
  { z with
    cfg := { z.cfg with order := rotateOrder z.cfg.order }
    claims := (rotateOrder z.cfg.order).filter fun f => z.claims.contains f }

section
variable {w v : Work} {s t : State} {z : Fin 6}

theorem rotateZone_eq (w : Work) (z : Fin 6) : w.rotateZone z =
    ((w.map fun s => s.setZone z (w.st.zone z).rotated).allocate z).endEvaluation z (w.st.zone z) := rfl

/-- What follows the new order is the fans' and the alarm unit's work. -/
theorem calm_rotateZone (w : Work) (z : Fin 6) : Calm (w.map fun s => s.setZone z (w.st.zone z).rotated) (w.rotateZone z) :=
  (calm_allocate _ z).trans (calm_endEvaluation _ z _)

/-- The state with a zone's order rotated. -/
def State.turned (s : State) (z : Fin 6) : State :=
  s.setZone z { s.zone z with cfg := { (s.zone z).cfg with order := (s.zone z).cfg.order.drop 1 ++ (s.zone z).cfg.order.take 1 } }

theorem keeps_rezone (z : Fin 6) {a b : Zone} (h : ZoneKept a b) : CascadeKeeps (s.setZone z a) (s.setZone z b) := by
  have zone (y) (r : Zone) : (s.setZone z r).zone y = if z = y then r else s.zone y := State.setZone_zone ..
  refine ⟨rfl, rfl, rfl, rfl, rfl, rfl, rfl, rfl, rfl, rfl, rfl, rfl, rfl, rfl, rfl, rfl, rfl, rfl, fun y => ?_, fun _ => .refl _, .refl _⟩
  rw [zone, zone]
  split
  · exact h
  · exact .refl _

theorem rotated_keeps (s : State) (z : Fin 6) : CascadeKeeps (s.turned z) (s.setZone z (s.zone z).rotated) :=
  keeps_rezone z ⟨by unfold Zone.rotated; rw [rotateOrder_eq], rfl⟩

theorem rotated_sense (s : State) (z : Fin 6) : ZonesKept s (s.setZone z (s.zone z).rotated) := by
  refine .of_sense fun y => ?_
  rw [State.setZone_zone]
  split
  · rename_i e; subst e; exact ⟨rfl, rfl, rfl, rfl, rfl, rfl, rfl⟩
  · exact .refl _

/-! ## A rotation under the laws -/

theorem mem_rotated {r : Zone} (listed : r.claims.Sublist r.cfg.order) (i : Fin 8) : i ∈ r.rotated.claims ↔ i ∈ r.claims := by
  unfold Zone.rotated
  rw [List.mem_filter, (rotateOrder_perm r.cfg.order).mem_iff, List.contains_iff_mem]
  exact ⟨And.right, fun m => ⟨listed.subset m, m⟩⟩

theorem rotated_length (law : ClaimLaw s) (z : Fin 6) : (s.zone z).rotated.claims.length = (s.zone z).claims.length := by
  have nodup := (rotateOrder_perm (s.zone z).cfg.order).nodup_iff.2 (law.order z)
  exact ((List.perm_ext_iff_of_nodup (nodup.filter _) ((law.listed z).nodup (law.order z))).2 (mem_rotated (law.listed z))).length_eq

/-- A zone whose claim list is in order has it so in the new order too. -/
theorem ClaimLaw.rotated (law : ClaimLaw s) (active : (s.zone z).active = true) :
    Fulfilled (s.zone z).rotated.cfg.order (s.zone z).rotated.claims (s.zone z).needed fun i => (s.fan i).available s.alarm.regime := by
  have perm := rotateOrder_perm (s.zone z).cfg.order
  have before := law.fulfilled active
  have mem := mem_rotated before.listed
  have nodup : (s.zone z).rotated.cfg.order.Nodup := perm.nodup_iff.2 before.nodup
  have same := rotated_length law z
  refine ⟨nodup, List.filter_sublist, fun i m => before.available i ((mem i).1 m), by rw [same]; exact before.within, fun short i m free => ?_⟩
  rw [same] at short
  exact (mem i).2 (before.enough short i (perm.mem_iff.1 m) free)

theorem rotated_needed (z : Zone) : z.rotated.needed = z.needed := rfl

/-- Under the laws a rotation claims and releases no fan: the zone's record is rotated, and nothing is handed on. -/
theorem rotateZone_lawful (law : ClaimLaw w.st) (active : (w.st.zone z).active = true) :
    w.rotateZone z = w.map fun s => s.setZone z (w.st.zone z).rotated := by
  have zone : (w.map fun s => s.setZone z (w.st.zone z).rotated).st.zone z = (w.st.zone z).rotated := State.setZone_zone_same ..
  have length := rotated_length law z
  have allotted : (w.map fun s => s.setZone z (w.st.zone z).rotated).st.Allotted z := by
    refine ⟨?_, ?_⟩
    · rw [zone]
      exact law.rotated active
    · rw [zone, length, rotated_needed]
      exact law.shortfall z
  rw [rotateZone_eq, allocate_allotted allotted]
  have same (k : Fin 82) {x y : Image} (h : x = y) : changedImage k x y = [] := if_pos h
  have short : (w.st.zone z).shortfallImage = (w.st.zone z).rotated.shortfallImage := by
    unfold Zone.shortfallImage
    rw [length, rotated_needed]
    rfl
  unfold Work.endEvaluation
  dsimp only
  rw [zone, same _ (show (w.st.zone z).gasImage = (w.st.zone z).rotated.gasImage from rfl),
    same _ (show (w.st.zone z).blindImage = (w.st.zone z).rotated.blindImage from rfl), same _ short]
  rw [if_pos (show decide ((w.st.zone z).sight = some .paused) = decide ((w.st.zone z).rotated.sight = some .paused) from rfl),
    if_pos ⟨rfl, rfl, rfl, rfl⟩]
  unfold Work.postAll
  rw [List.append_nil, List.append_nil, List.append_nil, List.append_nil]

/-- The rotated record, with the fans left alone, is what R63 asks for. -/
theorem rotated_rotated (law : ClaimLaw s) (active : (s.zone z).active = true) (zone : t.zone z = (s.zone z).rotated)
    (fans : t.fans = s.fans) : Rotated s z t := by
  unfold Rotated
  intro order needed claims
  have need : needed = (s.zone z).needed := by
    unfold Zone.needed
    change (match (s.zone z).demand with | some .idle => _ | some .base => _ | some .boost => _ | some .purge => _ | none => 0) = _
    cases (s.zone z).demand with
    | none => rfl
    | some d => cases d <;> rfl
  have list : claims = (s.zone z).rotated.claims := by
    have turned : order = (s.zone z).rotated.cfg.order := (rotateOrder_eq _).symm
    have kept : (order.filter fun i => decide (i ∈ (s.zone z).claims)) = (s.zone z).rotated.claims := by
      rw [turned]
      exact List.filter_congr fun i _ => by rw [List.contains_eq_mem]
    change allocated order (order.filter fun i => decide (i ∈ (s.zone z).claims)) needed _ = _
    rw [kept, turned, need]
    exact (law.rotated active).allocated
  have fan (i) : t.fan i = s.fan i := fan_of_fans fans i
  refine ⟨?_, fun i => ?_⟩
  · rw [zone, list, need, rotated_length law z, ← law.shortfall z]
    rw [show order = rotateOrder (s.zone z).cfg.order from (rotateOrder_eq _).symm]
    rfl
  · rw [fan, list]
    refine ⟨?_, fun _ _ => rfl, rfl⟩
    rw [Bool.eq_iff_iff, decide_eq_true_eq, law.held, mem_rotated (law.listed z)]

end

/-! ## ROTATE -/

section
variable {s : State} {z : Fin 6} {tag : Byte}

theorem rotate_answer (armed : s.setup.armed = true) (used : s.used z = true) : answerRotate (indexByte z) s =
    accept (s.does fun w => w.rotateZone z) (fanList ((s.does fun w => w.rotateZone z).zone z).cfg.order ++
      fanList ((s.does fun w => w.rotateZone z).zone z).claims) := by
  unfold answerRotate
  rw [readIndex_indexByte (by decide)]
  dsimp only
  rw [armed, used]
  rfl

end

/-- Settles O18: the work after the new order moves no zone's senses, and under the laws there is none. -/
theorem rotateMovesTheFirstFanLast : Obligations.RotateMovesTheFirstFanLast := by
  intro tag z s free
  have used (h : s.members z ≠ []) : s.used z = true := by
    unfold State.used
    cases e : s.members z with
    | nil => exact absurd e h
    | cons _ _ => rfl
  refine ⟨fun unarmed => declined_request (status := .wrongState) rfl free rfl ?_,
    fun armed none_ => declined_request (status := .notPresent) rfl free rfl ?_, fun armed some_ => ?_⟩
  · change answerRotate (indexByte z) s = _
    unfold answerRotate
    rw [readIndex_indexByte (by decide)]
    dsimp only
    rw [unarmed]
    rfl
  · change answerRotate (indexByte z) s = _
    unfold answerRotate State.used
    rw [readIndex_indexByte (by decide)]
    dsimp only
    rw [armed, none_]
    rfl
  · have quiet : ∀ h ∈ (s.begin.rotateZone z).out, h.quiet = true := by
      obtain ⟨new, grown, quiet⟩ := (calm_rotateZone s.begin z).out
      rw [grown]
      exact quiet
    have after := settle_settles_quiet settleLimit quiet
    have calm := calm_rotateZone s.begin z
    have keeps : CascadeKeeps (s.turned z) (s.does fun w => w.rotateZone z) :=
      ((rotated_keeps s z).trans calm.keeps).trans after.keeps
    have order : ((s.does fun w => w.rotateZone z).zone z).cfg.order = (s.zone z).cfg.order.drop 1 ++ (s.zone z).cfg.order.take 1 := by
      have cfg := (keeps.zones z).cfg
      rw [show (s.turned z).zone z = _ from State.setZone_zone_same ..] at cfg
      rw [cfg]
    refine ⟨_, accepted_request rfl free rfl ((rotate_answer armed (used some_)).trans ?_), keeps,
      ((rotated_sense s z).trans (.of_sense calm.sense)).trans after.zones, fun _ _ law => ?_⟩
    · rw [order]
    · have active : (s.zone z).active = true := by rw [law.active, armed, used some_]; rfl
      have done : (s.does fun w => w.rotateZone z) = s.setZone z (s.zone z).rotated :=
        does_of_eq (f := fun w => w.rotateZone z) (rotateZone_lawful (w := s.begin) law active)
      rw [done]
      exact rotated_rotated law active (State.setZone_zone_same ..) rfl

end Sys2Proof.Machine
end

section
/-! The firing of one slot: its action, its notice, and its next occurrence (R174, R175). -/

namespace Sys2Proof.Machine

section
variable {s t u : State} {v w : Work} {i j : Fin 8} {d : Nat} {k : Fin 8} {q : Option Slot} {b : NoticeBody} {f : Fan}

/-! ## An action's work -/

/-- The record of a fan that owes an exercise. -/
def Fan.owed (f : Fan) : Fan := { f with exerciseOwed := true }

/-- The state with what an action changes of the record that it names, and with nothing that this leads to. -/
def State.named (s : State) : Action → State
  | .rotate z => s.turned z
  | .start i d => s.setFan i ((s.fan i).manned d)
  | .exercise i => s.setFan i (s.fan i).owed
  | .mark _ => s

theorem Calm.of_keeps (keeps : CascadeKeeps w.st v.st) (sense : ∀ z, SenseKept (w.st.zone z) (v.st.zone z))
    (eqz : v.st.alarm.eqz = w.st.alarm.eqz) (index : v.st.link.traceIndex = w.st.link.traceIndex)
    (buffer : v.st.link.traceBuffer = w.st.link.traceBuffer) (out : v.out = w.out) : Calm w v :=
  ⟨keeps, sense, eqz, index, buffer, [], by rw [out, List.append_nil], fun _ m => nomatch m⟩

/-- A fan's record comes to what a cascade may make of it. -/
theorem calm_refan {f g : Fan} (h : FanKept f g) (w : Work) (i : Fin 8) :
    Calm { w with st := w.st.setFan i f } { w with st := w.st.setFan i g } :=
  .of_keeps (keeps_refan h) (fun _ => .refl _) rfl rfl rfl rfl

theorem calm_asking (w : Work) (i : Fin 8) (f : Fan) : Calm { w with st := w.st.setFan i f } { w with st := w.st.asking i f } :=
  .of_keeps (keeps_asking w.st i f) (fun _ => .refl _) rfl rfl rfl rfl

theorem calm_startAsked {asked : State} (h : StartAsked w.st i f asked) :
    Calm { w with st := w.st.setFan i f } ({ w with st := asked } : Work).consider := by
  refine .trans ?_ (calm_consider _)
  rcases h with ⟨-, e⟩ | ⟨-, e⟩
  · rw [e]
    exact calm_asking w i f
  · rw [e]
    exact .refl _

/-- What a claim by hand leads to is the fans' and the arbiter's work. -/
theorem calm_startManual (takes : (w.st.fan i).takesClaims = true) :
    Calm { w with st := w.st.setFan i ((w.st.fan i).manned d) } (w.startManual i d) := by
  have asks (h : (w.st.fan i).state = .idle ∨ (w.st.fan i).state = .waiting) :
      Calm { w with st := w.st.setFan i ((w.st.fan i).manned d) } (w.startManual i d) := by
    cases held : (w.st.fan i).claims.manual with
    | true =>
      rw [startManual_recorded (.inr ⟨held, h⟩)]
      exact .refl _
    | false =>
      obtain ⟨asked, ask⟩ := startAsked_exists ((w.st.fan i).manned d) h
      rw [startManual_asks held ask]
      exact calm_startAsked ask
  rcases (takesClaims_iff _).1 takes with idle | waits | proving | running | coasting
  · exact asks (.inl idle)
  · exact asks (.inr waits)
  · rw [startManual_proving proving]
    exact calm_refan (f := (w.st.fan i).manned d) (g := (w.st.fan i).kept d) ⟨rfl, rfl, rfl, rfl, rfl, id, id, id⟩ w i
  · rw [startManual_running running]
    exact calm_refan (f := (w.st.fan i).manned d) (g := (w.st.fan i).timed d w.st.time.clock) ⟨rfl, rfl, rfl, rfl, rfl, id, id, id⟩ w i
  · rw [startManual_recorded (.inl coasting)]
    exact .refl _

theorem performExercise_eq (w : Work) (i : Fin 8) : w.perform (.exercise i) =
    (w.map fun s => s.setFan i { s.fan i with exerciseDue := some s.clock }).exerciseFallsDue i := rfl

/-- The record of a fan with another exercise due time (R90). -/
def Fan.dueAt (f : Fan) (t : Option Nat) : Fan := { f with exerciseDue := t }

/-- The exercise that a slot makes fall due, of a running fan (R90). -/
theorem performExercise_running (running : (w.st.fan i).state = .running) : w.perform (.exercise i) =
    { w with st := w.st.setFan i ((w.st.fan i).dueAt ((w.st.fan i).nextExercise w.st.time.clock)) } := by
  have fan : (w.map fun s => s.setFan i { s.fan i with exerciseDue := some s.clock }).st.fan i =
      { w.st.fan i with exerciseDue := some w.st.clock } := State.setFan_fan_same ..
  rw [performExercise_eq, exerciseFallsDue_running (by rw [fan]; exact running), fan]
  exact map_setFan_twice w i { w.st.fan i with exerciseDue := some w.st.clock } fun f clock =>
    { f with exerciseDue := startTimer clock (hours (w.st.fan i).cfg.exInterval) }

/-- The record of a fan whose exercise has fallen due and is owed (R90). -/
def Fan.owing (f : Fan) : Fan := { f with exerciseDue := none, exerciseOwed := true }

theorem performExercise_owes (moves : (w.st.fan i).state ≠ .running) : w.perform (.exercise i) =
    ({ w with st := w.st.setFan i (w.st.fan i).owing } : Work).testExercise i := by
  have fan : (w.map fun s => s.setFan i { s.fan i with exerciseDue := some s.clock }).st.fan i =
      { w.st.fan i with exerciseDue := some w.st.clock } := State.setFan_fan_same ..
  rw [performExercise_eq, exerciseFallsDue_owes (by rw [fan]; exact moves)]
  exact congrArg (fun v : Work => v.testExercise i)
    (map_setFan_twice w i { w.st.fan i with exerciseDue := some w.st.clock } fun f _ => f.owing)

theorem owed_dueAt (f : Fan) (t : Option Nat) : FanKept f.owed (f.dueAt t) :=
  ⟨rfl, rfl, rfl, rfl, rfl, id, id, fun e => nomatch e⟩

theorem owed_owing (f : Fan) : FanKept f.owed f.owing := ⟨rfl, rfl, rfl, rfl, rfl, id, id, id⟩

theorem calm_performExercise (w : Work) (i : Fin 8) :
    Calm { w with st := w.st.setFan i (w.st.fan i).owed } (w.perform (.exercise i)) := by
  by_cases running : (w.st.fan i).state = .running
  · rw [performExercise_running running]
    exact calm_refan (owed_dueAt ..) w i
  · rw [performExercise_owes running]
    exact (calm_refan (owed_owing _) w i).trans (calm_testExercise _ i)

theorem calm_turned (w : Work) (z : Fin 6) : Calm { w with st := w.st.turned z } (w.rotateZone z) := by
  refine .trans (.of_keeps (v := w.map fun s => s.setZone z (w.st.zone z).rotated) (rotated_keeps w.st z) (fun y => ?_) rfl rfl rfl rfl)
    (calm_rotateZone w z)
  have turned : (w.st.turned z).zone y = if z = y then _ else w.st.zone y := State.setZone_zone ..
  rw [turned, Work.map_st, State.setZone_zone]
  split
  · exact ⟨rfl, rfl, rfl, rfl, rfl, rfl, rfl⟩
  · exact .refl _

theorem takes_of_performed (performed : s.outcomeOf (.start i d) = .performed) : (s.fan i).takesClaims = true := by
  unfold State.outcomeOf at performed
  dsimp only at performed
  split at performed
  · cases performed
  · split at performed
    · cases performed
    · split at performed
      · assumption
      · cases performed

/-- What an action leads to is the fans', the arbiter's and the alarm unit's work. -/
theorem calm_perform {a : Action} (performed : w.st.outcomeOf a = .performed) : Calm { w with st := w.st.named a } (w.perform a) := by
  cases a with
  | rotate z => exact calm_turned w z
  | start i d => exact calm_startManual (takes_of_performed performed)
  | exercise i => exact calm_performExercise w i
  | mark tag => exact .refl w

/-- What an action changes of the record it names, no zone senses. -/
theorem named_sense (s : State) (a : Action) (z : Fin 6) : SenseKept (s.zone z) ((s.named a).zone z) := by
  cases a with
  | rotate y =>
    have turned : (s.turned y).zone z = if y = z then _ else s.zone z := State.setZone_zone ..
    change SenseKept _ ((s.turned y).zone z)
    rw [turned]
    split
    · rename_i e; subst e; exact ⟨rfl, rfl, rfl, rfl, rfl, rfl, rfl⟩
    · exact .refl _
  | start i d => exact .refl _
  | exercise i => exact .refl _
  | mark tag => exact .refl _

/-! ## What is written after the action -/

/-- The SCHEDULE FIRED notice is queued, and the slot moves on. -/
def State.noted (s : State) (b : NoticeBody) (k : Fin 8) (q : Option Slot) : State := (s.notice b).setSlot k q

def Work.noted (w : Work) (b : NoticeBody) (k : Fin 8) (q : Option Slot) : Work := { w with st := w.st.noted b k q }

theorem act_time (w : Work) (a : Action) : (w.act a).st.time = w.st.time := (within_act w a).time

theorem fired_eq (w : Work) (k : Fin 8) (r : Slot) (jump : Bool) : w.fired k r jump =
    (w.act r.action).noted (.scheduleFired k r.action (w.st.outcomeOf r.action) jump) k (r.movedOn w.st.time.room) := by
  have room : (w.act r.action).st.time.room = w.st.time.room := by rw [act_time]
  unfold Work.fired Work.noted State.noted
  rw [← room]
  rfl

theorem keeps_setSlot (h : CascadeKeeps s t) (k : Fin 8) (q : Option Slot) : CascadeKeeps (s.setSlot k q) (t.setSlot k q) := by
  refine ⟨h.chans, h.profiles, h.eqz, h.probes, ?_, h.setup, h.pending, h.receiver, h.outstanding, h.transmitter, h.service,
    h.traceChannel, h.arbK, h.arbW, h.arbG, h.maskChannelNote, h.maskFlowNote, h.lampTimer, h.zones, h.fans, h.notices⟩
  unfold State.setSlot
  rw [h.time]
  rfl

theorem keeps_noted (h : CascadeKeeps s t) (b : NoticeBody) (k : Fin 8) (q : Option Slot) :
    CascadeKeeps (s.setSlot k q) (t.noted b k q) :=
  keeps_setSlot (h.trans (keeps_notice t b)) k q

/-- A grant, with the notice queued and the slot moved on, is a grant still. -/
theorem HasGranted.noted (h : HasGranted u j v) (b : NoticeBody) (k : Fin 8) (q : Option Slot) :
    HasGranted (u.setSlot k q) j (v.noted b k q) :=
  ⟨keeps_noted h.keeps b k q, h.zones, h.arb, h.fan, h.others, h.alarm, h.quiet, h.note⟩

/-- A consideration with the notice queued and the slot moved on. -/
theorem considered_noted (out : w.out = []) (b : NoticeBody) (k : Fin 8) (q : Option Slot) :
    (w.st.grantChoice = none → (w.consider.noted b k q).finish = w.st.noted b k q) ∧
    ∀ j, w.st.grantChoice = some j → Granted (w.st.setSlot k q) j (w.consider.noted b k q).finish := by
  refine ⟨fun none_ => ?_, fun j choice => ?_⟩
  · rw [consider_none none_]
    exact finish_nil (w := w.noted b k q) out
  · obtain ⟨-, -, asked, free⟩ := grantChoice_some choice
    exact ((grantChoice_fan out choice).noted b k q).granted free asked

end

/-! ## The next occurrence (R174) -/

theorem waitingFor_eq (r : Slot) (t : Nat) : r.waitingFor t =
    if 2 ^ 48 ≤ t then { r with stale := true, fire := (Config.staleFireTime r.anchor r.interval).toNat } else { r with stale := false, fire := t } := by
  unfold Slot.waitingFor lastRoomTime
  exact if_congr (by omega) rfl rfl

/-- The next occurrence is the first that lies after room time. -/
theorem nextOccurrence_first {anchor interval room : Nat} (repeats : interval ≠ 0) : ∃ n : Nat,
    nextOccurrence anchor interval room = anchor + n * (1000 * interval) ∧ room < anchor + n * (1000 * interval) ∧
    ∀ m < n, anchor + m * (1000 * interval) ≤ room := by
  have positive : 0 < 1000 * interval := by omega
  unfold nextOccurrence seconds
  rw [Nat.mul_comm interval 1000]
  generalize 1000 * interval = p at positive
  by_cases ahead : room < anchor
  · exact ⟨0, by rw [if_pos ahead]; simp, by omega, fun m less => absurd less (Nat.not_lt_zero m)⟩
  · refine ⟨(room - anchor) / p + 1, by rw [if_neg ahead], ?_, fun m less => ?_⟩
    · have := Nat.lt_div_mul_add (a := room - anchor) positive
      rw [Nat.succ_mul]
      omega
    · have below : m * p ≤ (room - anchor) / p * p := Nat.mul_le_mul_right p (Nat.lt_succ_iff.1 less)
      have := Nat.div_mul_le_self (room - anchor) p
      omega

theorem movedOn_moves (r : Slot) (room : Nat) : MovesOn r room (r.movedOn room) := by
  refine ⟨fun once => if_pos once, fun repeats => ?_⟩
  obtain ⟨n, next, later, first⟩ := nextOccurrence_first (anchor := r.anchor) (room := room) repeats
  have moved : r.movedOn room = some (r.waitingFor (r.anchor + n * (1000 * r.interval))) := by
    rw [← next]
    exact if_neg repeats
  refine ⟨n, later, first, fun low => ?_, fun high => ⟨(Config.staleFireTime r.anchor r.interval).toNat, ?_⟩⟩
  · rw [moved, waitingFor_eq, if_neg (Nat.not_le.2 low)]
  · rw [moved, waitingFor_eq, if_pos high]

end Sys2Proof.Machine
end

section
/-! What the firing of one slot leaves, by its action (R174, R175). -/

namespace Sys2Proof.Machine

section
variable {s : State} {k : Fin 8} {r : Slot} {jump : Bool}

/-- What the firing of slot `k`, which holds `r`, leaves. -/
def State.fires (s : State) (k : Fin 8) (r : Slot) (jump : Bool) : State :=
  ((s.begin.act r.action).noted (.scheduleFired k r.action (s.outcomeOf r.action) jump) k (r.movedOn s.time.room)).finish

theorem fireSlot_st (slot : s.slot k = some r) : (s.begin.fireSlot k jump).st = s.fires k r jump := by
  rw [fireSlot_some (w := s.begin) slot, fired_eq]
  rfl

theorem act_performed (performed : s.outcomeOf r.action = .performed) : s.begin.act r.action = s.begin.perform r.action := if_pos performed

theorem act_skipped (skipped : s.outcomeOf r.action ≠ .performed) : s.begin.act r.action = s.begin := if_neg skipped

/-- A slot whose action acts on no block, or is skipped. -/
theorem fires_idle (idle : s.begin.act r.action = s.begin) :
    s.fires k r jump = s.noted (.scheduleFired k r.action (s.outcomeOf r.action) jump) k (r.movedOn s.time.room) := by
  unfold State.fires
  rw [idle]
  exact finish_nil (w := s.begin.noted _ k _) rfl

/-- The hand-overs of an action reach no channel and no probe. -/
theorem act_quiet (s : State) (a : Action) : ∀ h ∈ (s.begin.act a).out, h.quiet = true := by
  by_cases performed : s.outcomeOf a = .performed
  · obtain ⟨new, grown, quiet⟩ := (calm_perform (w := s.begin) performed).out
    rw [show s.begin.act a = s.begin.perform a from if_pos performed, grown]
    exact quiet
  · rw [show s.begin.act a = s.begin from if_neg performed]
    exact fun h m => nomatch m

theorem fires_after (s : State) (k : Fin 8) (r : Slot) (jump : Bool) :
    Settles ((s.begin.act r.action).st.noted (.scheduleFired k r.action (s.outcomeOf r.action) jump) k (r.movedOn s.time.room))
      (s.fires k r jump) :=
  settle_settles_quiet settleLimit (w := (s.begin.act r.action).noted _ k _) (act_quiet s r.action)

/-- Whatever a performed action leads to, it leaves alone all but the fans, the claims, the grants and the alarms. -/
theorem fires_keeps (performed : s.outcomeOf r.action = .performed) :
    CascadeKeeps ((s.named r.action).setSlot k (r.movedOn s.time.room)) (s.fires k r jump) := by
  have calm := calm_perform (w := s.begin) performed
  have after := (fires_after s k r jump).keeps
  rw [act_performed performed] at after
  exact (keeps_noted calm.keeps _ k _).trans after

theorem fires_noted (s : State) (k : Fin 8) (r : Slot) (jump : Bool) :
    FiringNoted s.link.notices (s.fires k r jump).link.notices s.time.room k r.action (s.outcomeOf r.action) jump := by
  obtain ⟨before, first⟩ := (within_act s.begin r.action).notices.follows
  obtain ⟨after, last⟩ := (fires_after s k r jump).keeps.notices
  have room : (s.begin.act r.action).st.room = s.time.room := congrArg Timebase.room (act_time s.begin r.action)
  refine ⟨before ++ { time := s.time.room, body := .scheduleFired k r.action (s.outcomeOf r.action) jump, overflow := false } :: after, ?_, ?_⟩
  · change (s.begin.act r.action).st.link.notices = List.foldl enqueue s.link.notices before at first
    rw [last, List.foldl_append, ← first, List.foldl_cons, ← room]
    rfl
  · exact List.mem_append_right _ List.mem_cons_self

theorem fires_slot (s : State) (k : Fin 8) (r : Slot) (jump : Bool) (j : Fin 8) :
    (s.fires k r jump).slot j = if k = j then r.movedOn s.time.room else s.slot j := by
  have after := (fires_after s k r jump).keeps.time
  have acted : (s.begin.act r.action).st.slot j = s.slot j := congrArg (fun t : Timebase => vget t.slots j) (act_time s.begin r.action)
  refine (congrArg (fun t : Timebase => vget t.slots j) after).trans ?_
  refine (State.setSlot_slot ..).trans ?_
  exact if_congr Iff.rfl rfl acted

theorem fires_zones (s : State) (k : Fin 8) (r : Slot) (jump : Bool) : ZonesKept s (s.fires k r jump) := by
  refine .trans (.of_sense fun z => ?_) (fires_after s k r jump).zones
  change SenseKept _ ((s.begin.act r.action).st.zone z)
  by_cases performed : s.outcomeOf r.action = .performed
  · rw [act_performed performed]
    exact (named_sense s r.action z).trans ((calm_perform (w := s.begin) performed).sense z)
  · rw [act_skipped performed]
    exact .refl _

/-- An action that leaves nothing to be handed over. -/
theorem fires_done {u : State} (performed : s.outcomeOf r.action = .performed) (acts : s.begin.perform r.action = { s.begin with st := u }) :
    s.fires k r jump = u.noted (.scheduleFired k r.action .performed jump) k (r.movedOn s.time.room) := by
  unfold State.fires
  rw [act_performed performed, acts, performed]
  exact finish_nil (w := ({ s.begin with st := u } : Work).noted _ k _) rfl

/-- An action that asks for a start. -/
theorem fires_asked {asked : State} (performed : s.outcomeOf r.action = .performed)
    (acts : s.begin.perform r.action = ({ s.begin with st := asked } : Work).consider) :
    (asked.grantChoice = none → s.fires k r jump = asked.noted (.scheduleFired k r.action .performed jump) k (r.movedOn s.time.room)) ∧
    ∀ j, asked.grantChoice = some j → Granted (asked.setSlot k (r.movedOn s.time.room)) j (s.fires k r jump) := by
  have h := considered_noted (w := { s.begin with st := asked }) rfl (.scheduleFired k r.action .performed jump) k (r.movedOn s.time.room)
  unfold State.fires
  rw [act_performed performed, acts, performed]
  exact h

theorem perform_of {a : Action} (action : r.action = a) : s.begin.perform r.action = s.begin.perform a := by rw [action]

theorem hours_eq (n : Nat) : hours n = 3600000 * n := by unfold hours; omega

/-- A slot that fires has done what its action says. -/
theorem slotFired (s : State) (k : Fin 8) (r : Slot) (jump : Bool) : SlotFired s k r jump (s.fires k r jump) := by
  refine ⟨fires_noted s k r jump, ⟨?_, ?_, fun j other => ?_⟩, fires_zones s k r jump, fun idle => fires_idle ?_,
    fun i d action performed => ?_, fun z action performed => ?_, fun i action performed => ?_⟩
  · rw [fires_slot, if_pos rfl]
  · rw [fires_slot, if_pos rfl]
    exact movedOn_moves r s.time.room
  · rw [fires_slot, if_neg (Ne.symm other)]
  · rcases idle with skipped | ⟨tag, mark⟩
    · exact act_skipped skipped
    · rw [mark]
      exact ite_self _
  · intro claimed fired
    have acts : s.begin.perform r.action = s.begin.startManual i d := perform_of action
    have keeps := fires_keeps (k := k) (jump := jump) performed
    rw [show s.named r.action = s.setFan i claimed by rw [action]; rfl] at keeps
    refine ⟨keeps, fun running => ?_, fun proving => ?_, fun recorded => ?_, fun none_ asked ask => ?_⟩
    · exact fires_done performed (acts.trans (startManual_running (w := s.begin) running))
    · exact fires_done performed (acts.trans (startManual_proving (w := s.begin) proving))
    · exact fires_done performed (acts.trans (startManual_recorded (w := s.begin) recorded))
    · exact fires_asked performed (acts.trans (startManual_asks (w := s.begin) none_ ask))
  · have keeps := fires_keeps (k := k) (jump := jump) performed
    rw [show s.named r.action = s.turned z by rw [action]; rfl] at keeps
    refine ⟨keeps, fun _ _ law => ?_⟩
    have active : (s.zone z).active = true := by
      rw [law.active]
      rw [action] at performed
      unfold State.outcomeOf at performed
      dsimp only at performed
      cases armed : s.setup.armed <;> cases used : s.used z <;> rw [armed, used] at performed <;> first | rfl | cases performed
    have done := fires_done (k := k) (jump := jump) performed ((perform_of action).trans (rotateZone_lawful (w := s.begin) law active))
    rw [done]
    exact rotated_rotated law active (State.setZone_zone_same ..) rfl
  · have keeps := fires_keeps (k := k) (jump := jump) performed
    rw [show s.named r.action = s.setFan i (s.fan i).owed by rw [action]; rfl] at keeps
    refine ⟨keeps, fun running => ?_, fun moves still => ?_, fun idle low high fresh => ?_⟩
    · have due_ : (s.fan i).nextExercise s.time.clock = startTimer s.time.clock (3600000 * (s.fan i).cfg.exInterval) := by
        unfold Fan.nextExercise
        rw [hours_eq]
      have done := fires_done (k := k) (jump := jump) performed ((perform_of action).trans (performExercise_running (w := s.begin) running))
      rw [done]
      change State.noted (s.setFan i ((s.fan i).dueAt ((s.fan i).nextExercise s.time.clock))) _ _ _ = _
      rw [due_]
      rfl
    · have owes := performExercise_owes (w := s.begin) moves
      rw [testExercise_untaken ?_] at owes
      · exact fires_done performed ((perform_of action).trans owes)
      · refine Bool.eq_false_iff.2 fun takes => ?_
        obtain ⟨idle, -, low, high, fresh⟩ := (takesExercise_iff ..).1 takes
        rw [show ({ s.begin with st := s.begin.st.setFan i (s.begin.st.fan i).owing } : Work).st.fan i = (s.fan i).owing from
          State.setFan_fan_same ..] at idle fresh
        rcases still with awake | gas | critical | had
        · exact awake idle
        · exact low gas
        · exact high critical
        · have had' : (s.fan i).owing.claims.exercise = true := had
          rw [had'] at fresh
          cases fresh
    · have moves : (s.fan i).state ≠ .running := by rw [idle]; decide
      have takes : ({ s.begin with st := s.setFan i (s.fan i).owing } : Work).st.takesExercise i = true := by
        have fan : ({ s.begin with st := s.setFan i (s.fan i).owing } : Work).st.fan i = (s.fan i).owing := State.setFan_fan_same ..
        refine (takesExercise_iff ..).2 ⟨?_, ?_, low, high, ?_⟩
        · rw [fan]; exact idle
        · rw [fan]; rfl
        · rw [fan]; exact fresh
      have acts : s.begin.perform r.action = ({ s.begin with st := s.asking i (s.fan i).owing.exercised } : Work).consider := by
        refine (perform_of action).trans ((performExercise_owes (w := s.begin) moves).trans ((testExercise_taken takes).trans ?_))
        rw [show ({ s.begin with st := s.setFan i (s.fan i).owing } : Work).st.fan i = (s.fan i).owing from State.setFan_fan_same ..]
        exact congrArg (fun u : State => ({ s.begin with st := u } : Work).consider) (asking_setFan ..)
      have kept := (calm_consider ({ s.begin with st := s.asking i (s.fan i).owing.exercised } : Work)).keeps.fans i
      have later := (fires_after s k r jump).keeps.fans i
      rw [act_performed performed, acts] at later
      have fan : (s.asking i (s.fan i).owing.exercised).fan i = _ := State.setFan_fan_same ..
      change FanKept ((s.asking i (s.fan i).owing.exercised).fan i) _ at kept
      rw [fan] at kept
      refine ⟨later.exercise (kept.exercise rfl), later.exerciseOwed (kept.exerciseOwed rfl), fun asked ask => ?_⟩
      rw [startAsked_idle idle ask]
      exact fires_asked performed acts

/-! ## Slots that come due -/

theorem slotDue_iff (room : Nat) (held : Option Slot) : slotDue room held = true ↔ ∃ r, held = some r ∧ r.stale = false ∧ r.fire ≤ room := by
  cases held with
  | none => exact ⟨fun h => (nomatch h), fun ⟨_, h, _⟩ => (nomatch h)⟩
  | some r =>
    unfold slotDue
    rw [Bool.and_eq_true, Bool.not_eq_true', decide_eq_true_eq]
    exact ⟨fun h => ⟨r, rfl, h⟩, fun ⟨q, e, h⟩ => by cases e; exact h⟩

theorem slotFire_runs (slot : s.slot k = some r) (pending : r.stale = false) (reached : r.fire ≤ s.time.room) :
    exec (.slotFire k) s = .next (s.fires k r false) := by
  change execSlotFire k s = _
  unfold execSlotFire
  rw [if_pos (show slotDue s.room (s.slot k) = true from (slotDue_iff ..).2 ⟨r, slot, pending, reached⟩)]
  have done : (s.does fun w => w.fireSlot k false) = (s.begin.fireSlot k false).st := finish_nil (fireSlot_done rfl k false)
  rw [done, fireSlot_st slot]
  rfl

/-! ## The outcomes (R175) -/

theorem outcomeOf_unarmed (unarmed : s.setup.armed = false) : (∀ z, s.outcomeOf (.rotate z) = .unarmed) ∧
    (∀ i d, s.outcomeOf (.start i d) = .unarmed) ∧ ∀ i, s.outcomeOf (.exercise i) = .unarmed := by
  unfold State.outcomeOf
  rw [unarmed]
  exact ⟨fun _ => rfl, fun _ _ => rfl, fun _ => rfl⟩

theorem outcomeOf_rotate (armed : s.setup.armed = true) (z : Fin 6) :
    s.outcomeOf (.rotate z) = if s.used z = true then .performed else .notPresent := by
  unfold State.outcomeOf
  rw [armed]
  rfl

theorem outcomeOf_exercise (armed : s.setup.armed = true) (i : Fin 8) :
    s.outcomeOf (.exercise i) = if (s.fan i).cfg.present = true then .performed else .notPresent := by
  unfold State.outcomeOf
  rw [armed]
  rfl

theorem outcomeOf_start (armed : s.setup.armed = true) (i : Fin 8) (d : Nat) : s.outcomeOf (.start i d) =
    if (s.fan i).cfg.present = true then if (s.fan i).takesClaims = true then .performed else .wrongState else .notPresent := by
  unfold State.outcomeOf
  dsimp only
  rw [armed]
  cases (s.fan i).cfg.present <;> rfl

/-- What the firing of a slot leaves alone, whatever its action. -/
theorem fires_rest (s : State) (k : Fin 8) (r : Slot) (jump : Bool) : CascadeKeeps
    ((if s.outcomeOf r.action = .performed then s.named r.action else s).setSlot k (r.movedOn s.time.room)) (s.fires k r jump) := by
  split
  · exact fires_keeps ‹_›
  · rename_i skipped
    rw [fires_idle (act_skipped skipped)]
    exact keeps_noted (.refl s) ..

theorem named_blocks (s : State) (a : Action) : ((s.named a).chans = s.chans ∧ (s.named a).probes = s.probes ∧ (s.named a).setup = s.setup) ∧
    (s.named a).time = s.time ∧ (s.named a).link = s.link := by
  cases a <;> exact ⟨⟨rfl, rfl, rfl⟩, rfl, rfl⟩

end

/-- Settles O46: one slot fires, and the table of outcomes. -/
theorem slotFiresWhenItsTimeComes : Obligations.SlotFiresWhenItsTimeComes := by
  refine ⟨fun k r s slot pending reached => ⟨_, slotFire_runs slot pending reached, slotFired s k r false, ?_⟩, fun s z i d mark => ?_⟩
  · have rest := fires_rest s k r false
    have blocks : ∀ u : State, (u = s.named r.action ∨ u = s) → CascadeKeeps (u.setSlot k (r.movedOn s.time.room)) (s.fires k r false) →
        (s.fires k r false).time.room = s.time.room ∧ (s.fires k r false).time.clock = s.time.clock ∧
        (s.fires k r false).chans = s.chans ∧ (s.fires k r false).probes = s.probes ∧ (s.fires k r false).setup = s.setup ∧
        NoticesFollow s.link.notices (s.fires k r false).link.notices := by
      intro u either keeps
      obtain ⟨⟨chans, probes, setup⟩, time, link⟩ := named_blocks s r.action
      have same : (u.chans = s.chans ∧ u.probes = s.probes ∧ u.setup = s.setup) ∧ u.time = s.time ∧ u.link = s.link := by
        rcases either with e | e <;> rw [e]
        · exact ⟨⟨chans, probes, setup⟩, time, link⟩
        · exact ⟨⟨rfl, rfl, rfl⟩, rfl, rfl⟩
      obtain ⟨⟨chans, probes, setup⟩, time, link⟩ := same
      have room : u.time.room = s.time.room := by rw [time]
      have clock : u.time.clock = s.time.clock := by rw [time]
      refine ⟨?_, ?_, keeps.chans.trans chans, keeps.probes.trans probes, keeps.setup.trans setup, ?_⟩
      · exact (congrArg Timebase.room keeps.time).trans room
      · exact (congrArg Timebase.clock keeps.time).trans clock
      · have follows := keeps.notices
        rw [show (u.setSlot k (r.movedOn s.time.room)).link = s.link from link] at follows
        exact follows
    split at rest
    · exact blocks _ (.inl rfl) rest
    · exact blocks _ (.inr rfl) rest
  · intro armed present stopped
    refine ⟨fun unarmed => ?_, fun on unused => ?_, fun on used => ?_, fun on absent => ?_, fun on here => ?_, fun on here stops => ?_,
      fun law on here going => ?_, rfl⟩
    · obtain ⟨rotate, start, exercise⟩ := outcomeOf_unarmed (Bool.eq_false_iff.2 unarmed)
      exact ⟨rotate z, start i d, exercise i⟩
    · rw [outcomeOf_rotate on, if_neg (mt used_iff.1 unused)]
    · rw [outcomeOf_rotate on, if_pos (used_iff.2 used)]
    · rw [outcomeOf_start on, outcomeOf_exercise on, if_neg absent, if_neg absent]
      exact ⟨rfl, rfl⟩
    · rw [outcomeOf_exercise on, if_pos here]
    · rw [outcomeOf_start on, if_pos here, if_neg]
      rw [takesClaims_iff]
      rcases stops with e | ⟨c, e⟩ <;> rw [e] <;> simp
    · rw [outcomeOf_start on, if_pos here, if_pos]
      have managed := law.managed on i here
      rw [takesClaims_iff]
      cases e : (s.fan i).state with
      | fault => exact absurd (.inl e) going
      | lockout c => exact absurd (.inr ⟨c, e⟩) going
      | unmanaged => exact absurd e managed
      | _ => simp

end Sys2Proof.Machine
end

section
/-! Several slots that fire one after another, and the statement about SET TIME. -/

namespace Sys2Proof.Machine

/-! ## Which fans take claims -/

/-- Only fans that take claims ask for a start. -/
def State.Asks (s : State) : Prop := ∀ i, (s.requestTime i).isSome = true → (s.fan i).takesClaims = true

/-- From `s` to `t` the fans that take claims are the same, and only they ask. -/
def SameTakers (s t : State) : Prop := s.Asks → t.Asks ∧ ∀ i, (t.fan i).takesClaims = (s.fan i).takesClaims

section
variable {s t u : State} {w : Work} {i : Fin 8} {z : Fin 6}

theorem SameTakers.refl (s : State) : SameTakers s s := fun h => ⟨h, fun _ => rfl⟩

theorem SameTakers.trans (a : SameTakers s t) (b : SameTakers t u) : SameTakers s u := fun h => by
  obtain ⟨asks, takes⟩ := a h
  obtain ⟨asks', takes'⟩ := b asks
  exact ⟨asks', fun i => (takes' i).trans (takes i)⟩

theorem FansTurn.takers {P : Fin 8 → Fin 6 → Prop} {v : Work} (h : Asked w → FansTurn P w v) : SameTakers w.st v.st :=
  fun asks => ⟨(h asks).asks asks, (h asks).takes⟩

theorem FanLaw.asks (law : FanLaw s) : s.Asks := fun i asked => (takesClaims_iff _).2 (.inr (.inl ((law.waiting i).1 asked)))

theorem resting_of_untaking {f : Fan} (h : f.takesClaims = false) : f.state.resting = true := by
  unfold Fan.takesClaims at h
  cases e : f.state <;> rw [e] at h <;> first | rfl | cases h

/-- A cascade leaves a fan that takes no claims in its state, and any other one taking them. -/
theorem Settles.takers {told spilt : Fin 6 → Prop} (h : Settles s t told spilt) : SameTakers s t := by
  intro asks
  have untaking (i : Fin 8) (none_ : (s.fan i).takesClaims = false) : t.requestTime i = none ∧ (t.fan i).takesClaims = false := by
    have unasked : s.requestTime i = none := by
      rw [← Option.not_isSome_iff_eq_none]
      exact fun asked => by rw [asks i asked] at none_; cases none_
    obtain ⟨still, same, -⟩ := h.rests i unasked (resting_of_untaking none_)
    refine ⟨still, ?_⟩
    rw [same]
    exact none_
  refine ⟨fun i asked => ?_, fun i => ?_⟩
  · cases takes : (s.fan i).takesClaims with
    | true => exact (h.keeps.fans i).takesClaims takes
    | false => rw [(untaking i takes).1] at asked; cases asked
  · cases takes : (s.fan i).takesClaims with
    | true => exact (h.keeps.fans i).takesClaims takes
    | false => exact (untaking i takes).2

theorem takers_allocate (w : Work) (z : Fin 6) : SameTakers w.st (w.allocate z).st := by
  intro asks
  have asked : Asked (w.listedFor z) := asks
  obtain ⟨released, -⟩ := removeClaims_turn (releasedClaims (w.st.zone z).claims (w.st.zone z).needed w.avails) z asked
  rw [allocate_eq]
  generalize (releasedClaims (w.st.zone z).claims (w.st.zone z).needed w.avails).foldl _ (w.listedFor z) = v at released ⊢
  obtain ⟨added, -⟩ := addClaims_turn (addedClaims (w.st.zone z).cfg.order (w.st.zone z).claims (w.st.zone z).needed w.avails) z
    (released.asks asked) fun j mem => by rw [released.takes]; exact takes_of_available (mem_addedClaims mem).2.1
  exact ⟨added.asks (released.asks asked), fun i => (added.takes i).trans (released.takes i)⟩

theorem takers_of_fans (fans : t.fans = s.fans) (arb : t.arb = s.arb) : SameTakers s t := by
  have fan (i) : t.fan i = s.fan i := fan_of_fans fans i
  refine fun asks => ⟨fun i asked => ?_, fun i => by rw [fan]⟩
  unfold State.requestTime at asked
  rw [arb] at asked
  rw [fan]
  exact asks i asked

theorem takers_rotateZone (w : Work) (z : Fin 6) : SameTakers w.st (w.rotateZone z).st := by
  rw [rotateZone_eq]
  have before : SameTakers w.st (w.map fun s => s.setZone z (w.st.zone z).rotated).st := takers_of_fans rfl rfl
  obtain ⟨l, st⟩ := endEvaluation_st ((w.map fun s => s.setZone z (w.st.zone z).rotated).allocate z) z (w.st.zone z)
  refine (before.trans (takers_allocate _ z)).trans ?_
  rw [st]
  exact takers_of_fans rfl rfl

theorem takers_act (s : State) (a : Action) : SameTakers s (s.begin.act a).st := by
  by_cases performed : s.outcomeOf a = .performed
  · rw [show s.begin.act a = s.begin.perform a from if_pos performed]
    cases a with
    | rotate z => exact takers_rotateZone s.begin z
    | start i d => exact FansTurn.takers (w := s.begin) fun asked => fturn_startManual s.begin i d asked
    | exercise i =>
      have due_ : FansTurn (fun _ _ => False) s.begin (s.begin.map fun s => s.setFan i { s.fan i with exerciseDue := some s.clock }) :=
        fturn_write s.begin i rfl rfl rfl rfl fun _ _ => rfl
      exact FansTurn.takers (w := s.begin) fun asked => due_.trans (fturn_exerciseFallsDue _ i (due_.asks asked))
    | mark tag => exact .refl s
  · rw [show s.begin.act a = s.begin from if_neg performed]
    exact .refl s

theorem takers_fires (s : State) (k : Fin 8) (r : Slot) (jump : Bool) : SameTakers s (s.fires k r jump) :=
  ((takers_act s r.action).trans (takers_of_fans rfl rfl)).trans (fires_after s k r jump).takers

end

/-! ## What the firing of slots leaves alone -/

theorem link_of_fields {a b : Link} (receiver : b.receiver = a.receiver) (outstanding : b.outstanding = a.outstanding)
    (transmitter : b.transmitter = a.transmitter) (service : b.service = a.service) (channel : b.traceChannel = a.traceChannel)
    (index : b.traceIndex = a.traceIndex) (buffer : b.traceBuffer = a.traceBuffer) : b = { a with notices := b.notices } := by
  cases a; cases b
  simp_all

/-- From `s` to `t` slots with actions of `P` have fired. -/
structure Passes (P : Action → Prop) (s t : State) : Prop where
  chans : t.chans = s.chans
  profiles : t.profiles = s.profiles
  probes : t.probes = s.probes
  setup : t.setup = s.setup
  eqz : t.eqz = s.eqz
  pending : t.pending = s.pending
  time : t.time = { s.time with slots := t.time.slots }
  arb : t.arb.k = s.arb.k ∧ t.arb.w = s.arb.w ∧ t.arb.g = s.arb.g
  link : t.link = { s.link with notices := t.link.notices }
  notices : NoticesFollow s.link.notices t.link.notices
  zones : ZonesKept s t
  fans : ∀ i, (t.fan i).cfg = (s.fan i).cfg ∧ (t.fan i).flow = (s.fan i).flow
  manual : ∀ i, (∀ d, ¬P (.start i d)) → (t.fan i).claims.manual = (s.fan i).claims.manual ∧
    (t.fan i).manualDuration = (s.fan i).manualDuration
  zoneCfg : ∀ z, ¬P (.rotate z) → (t.zone z).cfg = (s.zone z).cfg

section
variable {P : Action → Prop} {s t u : State} {k : Fin 8} {r : Slot} {jump : Bool}

theorem Passes.refl (P : Action → Prop) (s : State) : Passes P s s :=
  ⟨rfl, rfl, rfl, rfl, rfl, rfl, rfl, ⟨rfl, rfl, rfl⟩, rfl, ⟨[], rfl⟩, .refl s, fun _ => ⟨rfl, rfl⟩, fun _ _ => ⟨rfl, rfl⟩, fun _ _ => rfl⟩

theorem Passes.trans (a : Passes P s t) (b : Passes P t u) : Passes P s u := by
  refine ⟨b.chans.trans a.chans, b.profiles.trans a.profiles, b.probes.trans a.probes, b.setup.trans a.setup, b.eqz.trans a.eqz,
    b.pending.trans a.pending, ?_, ⟨b.arb.1.trans a.arb.1, b.arb.2.1.trans a.arb.2.1, b.arb.2.2.trans a.arb.2.2⟩, ?_,
    a.notices.trans b.notices, a.zones.trans b.zones, fun i => ⟨(b.fans i).1.trans (a.fans i).1, (b.fans i).2.trans (a.fans i).2⟩,
    fun i n => ⟨(b.manual i n).1.trans (a.manual i n).1, (b.manual i n).2.trans (a.manual i n).2⟩,
    fun z n => (b.zoneCfg z n).trans (a.zoneCfg z n)⟩
  · have e := b.time
    rw [a.time] at e
    exact e
  · have e := b.link
    rw [a.link] at e
    exact e

/-- The outcome of an action is the same before and after other slots fire (R175). -/
theorem Passes.outcome (h : Passes P s t) (takes : ∀ i, (t.fan i).takesClaims = (s.fan i).takesClaims) (a : Action) : t.outcomeOf a = s.outcomeOf a := by
  have used (z) : t.used z = s.used z := by
    unfold State.used State.members State.chan
    rw [h.chans]
  unfold State.outcomeOf
  cases a with
  | rotate z => dsimp only; rw [h.setup, used]
  | start i d => dsimp only; rw [h.setup, (h.fans i).1, takes]
  | exercise i => dsimp only; rw [h.setup, (h.fans i).1]
  | mark tag => rfl

theorem passes_setFan {i : Fin 8} {f : Fan} (cfg : f.cfg = (s.fan i).cfg) (flow : f.flow = (s.fan i).flow)
    (manual : (∀ d, ¬P (.start i d)) → f.claims.manual = (s.fan i).claims.manual ∧ f.manualDuration = (s.fan i).manualDuration) :
    Passes P s (s.setFan i f) := by
  have fan (j) : (s.setFan i f).fan j = if i = j then f else s.fan j := State.setFan_fan ..
  refine ⟨rfl, rfl, rfl, rfl, rfl, rfl, rfl, ⟨rfl, rfl, rfl⟩, rfl, ⟨[], rfl⟩, zonesKept_of_zones rfl, fun j => ?_, fun j n => ?_, fun _ _ => rfl⟩
  · rw [fan]
    split
    · rename_i e; subst e; exact ⟨cfg, flow⟩
    · exact ⟨rfl, rfl⟩
  · rw [fan]
    split
    · rename_i e; subst e; exact manual n
    · exact ⟨rfl, rfl⟩

/-- What an action changes of the record that it names. -/
theorem passes_named {a : Action} (named : P a) : Passes P s (s.named a) := by
  cases a with
  | rotate z =>
    have zone (y) : (s.named (.rotate z)).zone y = if z = y then _ else s.zone y := State.setZone_zone ..
    refine ⟨rfl, rfl, rfl, rfl, rfl, rfl, rfl, ⟨rfl, rfl, rfl⟩, rfl, ⟨[], rfl⟩, .of_sense (named_sense s (.rotate z)), fun _ => ⟨rfl, rfl⟩,
      fun _ _ => ⟨rfl, rfl⟩, fun y other => ?_⟩
    rw [zone, if_neg]
    exact fun e => other (e ▸ named)
  | start i d => exact passes_setFan (f := (s.fan i).manned d) rfl rfl fun other => absurd named (other d)
  | exercise i => exact passes_setFan (f := (s.fan i).owed) rfl rfl fun _ => ⟨rfl, rfl⟩
  | mark tag => exact .refl P s

theorem passes_setSlot (s : State) (k : Fin 8) (q : Option Slot) : Passes P s (s.setSlot k q) :=
  ⟨rfl, rfl, rfl, rfl, rfl, rfl, rfl, ⟨rfl, rfl, rfl⟩, rfl, ⟨[], rfl⟩, .refl s, fun _ => ⟨rfl, rfl⟩, fun _ _ => ⟨rfl, rfl⟩, fun _ _ => rfl⟩

/-- A cascade that reaches no zone's senses. -/
theorem passes_of_keeps (keeps : CascadeKeeps s t) (zones : ZonesKept s t) (index : t.link.traceIndex = s.link.traceIndex)
    (buffer : t.link.traceBuffer = s.link.traceBuffer) : Passes P s t :=
  ⟨keeps.chans, keeps.profiles, keeps.probes, keeps.setup, keeps.eqz, keeps.pending, by rw [keeps.time],
    ⟨keeps.arbK, keeps.arbW, keeps.arbG⟩,
    link_of_fields keeps.receiver keeps.outstanding keeps.transmitter keeps.service keeps.traceChannel index buffer, keeps.notices, zones,
    fun i => ⟨(keeps.fans i).cfg, (keeps.fans i).flow⟩, fun i _ => ⟨(keeps.fans i).manual, (keeps.fans i).manualDuration⟩,
    fun z _ => (keeps.zones z).cfg⟩

theorem passes_notice (s : State) (b : NoticeBody) : Passes P s (s.notice b) :=
  passes_of_keeps (keeps_notice s b) (.of_sense fun _ => .refl _) rfl rfl

theorem passes_settle {w : Work} (quiet : ∀ h ∈ w.out, h.quiet = true) : Passes P w.st w.finish := by
  have after := settle_settles_quiet settleLimit quiet
  obtain ⟨-, -, -, index, buffer, -⟩ := settle_calm settleLimit w quiet
  exact passes_of_keeps after.keeps after.zones index buffer

theorem passes_act {a : Action} (named : P a) : Passes P s (s.begin.act a).st := by
  by_cases performed : s.outcomeOf a = .performed
  · rw [show s.begin.act a = s.begin.perform a from if_pos performed]
    have calm := calm_perform (w := s.begin) performed
    exact (passes_named named).trans (passes_of_keeps calm.keeps (.of_sense calm.sense) calm.traceIndex calm.traceBuffer)
  · rw [show s.begin.act a = s.begin from if_neg performed]
    exact .refl P s

theorem passes_fires (named : P r.action) : Passes P s (s.fires k r jump) := by
  have after := passes_settle (P := P) (w := (s.begin.act r.action).noted (.scheduleFired k r.action (s.outcomeOf r.action) jump) k
    (r.movedOn s.time.room)) (act_quiet s r.action)
  exact (((passes_act named).trans (passes_notice _ _)).trans (passes_setSlot _ k _)).trans after

/-! ## Several slots -/

/-- Slot `k` fires where it holds something. -/
def State.fireAt (s : State) (jump : Bool) (k : Fin 8) : State :=
  match s.slot k with
  | some r => s.fires k r jump
  | none => s

theorem fireAt_some (slot : s.slot k = some r) : s.fireAt jump k = s.fires k r jump := by
  unfold State.fireAt
  rw [slot]

theorem begin_of {w : Work} (out : w.out = []) (st : w.st = t) : w = t.begin := by
  obtain ⟨v, l⟩ := w
  subst st
  exact congrArg (Work.mk v) out

theorem fireSlot_begin (s : State) (k : Fin 8) (jump : Bool) : s.begin.fireSlot k jump = (s.fireAt jump k).begin := by
  have out : (s.begin.fireSlot k jump).out = [] := fireSlot_done rfl k jump
  have st : (s.begin.fireSlot k jump).st = s.fireAt jump k := by
    cases slot : s.slot k with
    | some r => rw [fireSlot_st slot, fireAt_some slot]
    | none =>
      rw [fireSlot_none (w := s.begin) slot]
      unfold State.fireAt
      rw [slot]
      rfl
  exact begin_of out st

theorem foldl_fireSlot (ks : List (Fin 8)) (s : State) (jump : Bool) :
    ks.foldl (fun w k => w.fireSlot k jump) s.begin = (ks.foldl (State.fireAt · jump) s).begin := by
  induction ks generalizing s with
  | nil => rfl
  | cons k ks ih => rw [List.foldl_cons, fireSlot_begin, ih]; rfl

theorem NoticesFollow.noted {q r : List Notice} {room : Nat} {k : Fin 8} {a : Action} {o : SlotOutcome} {jump : Bool} {p : List Notice}
    (before : NoticesFollow p q) (h : FiringNoted q r room k a o jump) : FiringNoted p r room k a o jump := by
  obtain ⟨first, rfl⟩ := before
  obtain ⟨more, rfl, mem⟩ := h
  exact ⟨first ++ more, by rw [List.foldl_append], List.mem_append_right _ mem⟩

theorem FiringNoted.followed {q r : List Notice} {room : Nat} {k : Fin 8} {a : Action} {o : SlotOutcome} {jump : Bool} {p : List Notice}
    (h : FiringNoted q r room k a o jump) (after : NoticesFollow r p) : FiringNoted q p room k a o jump := by
  obtain ⟨more, rfl, mem⟩ := h
  obtain ⟨last, rfl⟩ := after
  exact ⟨more ++ last, by rw [List.foldl_append], List.mem_append_left _ mem⟩

/-- What the firing of a list of slots, each of which holds something, leaves. -/
structure AllFired (P : Action → Prop) (ks : List (Fin 8)) (jump : Bool) (s t : State) : Prop where
  passes : Passes P s t
  takers : SameTakers s t
  slot : ∀ k, t.slot k = if k ∈ ks then (s.slot k).bind fun r => r.movedOn s.time.room else s.slot k
  noted : ∀ k ∈ ks, ∀ r, s.slot k = some r → ∃ o, FiringNoted s.link.notices t.link.notices s.time.room k r.action o jump ∧
    (s.Asks → o = s.outcomeOf r.action)

theorem allFired (ks : List (Fin 8)) (nodup : ks.Nodup) (jump : Bool) (s : State) (held : ∀ k ∈ ks, ∃ r, s.slot k = some r ∧ P r.action) :
    AllFired P ks jump s (ks.foldl (State.fireAt · jump) s) := by
  induction ks generalizing s with
  | nil => exact ⟨.refl P s, .refl s, fun _ => (if_neg (fun m => nomatch m)).symm, fun _ m => nomatch m⟩
  | cons k ks ih =>
    obtain ⟨r, slot, named⟩ := held k List.mem_cons_self
    obtain ⟨fresh, rest⟩ := List.nodup_cons.1 nodup
    have other {j : Fin 8} (mem : j ∈ ks) : k ≠ j := fun e => fresh (e ▸ mem)
    have first := passes_fires (P := P) (s := s) (k := k) (jump := jump) named
    have takers := takers_fires s k r jump
    have slots := fires_slot s k r jump
    have room : (s.fires k r jump).time.room = s.time.room := by rw [first.time]
    rw [List.foldl_cons, fireAt_some slot]
    obtain ⟨passes, takers', slot', noted⟩ := ih rest (s.fires k r jump) fun j mem => by
      rw [slots, if_neg (other mem)]
      exact held j (List.mem_cons_of_mem k mem)
    refine ⟨first.trans passes, takers.trans takers', fun j => ?_, fun j mem q holds => ?_⟩
    · rw [slot', slots, room]
      by_cases e : k = j
      · subst e
        rw [if_neg fresh, if_pos rfl, if_pos List.mem_cons_self, slot]
        rfl
      · rw [if_neg e]
        exact if_congr ⟨List.mem_cons_of_mem k, fun m => (List.mem_cons.1 m).resolve_left (Ne.symm e)⟩ rfl rfl
    · rcases List.mem_cons.1 mem with e | later
      · subst e
        rw [slot, Option.some_inj] at holds
        subst holds
        exact ⟨_, (fires_noted s j r jump).followed passes.notices, fun _ => rfl⟩
      · obtain ⟨o, firing, outcome⟩ := noted j later q (by rw [slots, if_neg (other later)]; exact holds)
        rw [room] at firing
        refine ⟨o, first.notices.noted firing, fun asks => ?_⟩
        obtain ⟨asks', takes⟩ := takers asks
        rw [outcome asks', first.outcome takes]

end

/-! ## SET TIME -/

section
variable {s : State} {tag : Byte} {time : BitVec 48} {k : Fin 8}

/-- The part with room time set (R169). -/
def State.roomSet (s : State) (room : Nat) : State := s.setTime { s.time with room := room }

/-- What SET TIME leaves: the slots that its room time has reached have fired, in some order. -/
def State.timeSet (s : State) (room : Nat) : State :=
  (inOpenOrder s.choices (s.roomSet room).dueSlots).foldl (State.fireAt · true)
    { s.roomSet room with choices := s.choices + drawsFor (s.roomSet room).dueSlots }

theorem setTime_answer (service : s.link.service.debounced = true) : answerSetTime time s =
    accept (s.timeSet time.toNat) (bytesBE 6 s.time.room ++ bytesBE 6 time.toNat ++ bytesBE 1 (s.roomSet time.toNat).dueSlots.length) := by
  have active : s.serviceActive = true := service
  have fold : ((s.roomSet time.toNat).begin.forEachOpen (s.roomSet time.toNat).dueSlots fun w k => w.fireSlot k true) =
      (s.timeSet time.toNat).begin := foldl_fireSlot _ { s.roomSet time.toNat with choices := s.choices + drawsFor (s.roomSet time.toNat).dueSlots } true
  unfold answerSetTime
  rw [active]
  change accept ((s.roomSet time.toNat).begin.forEachOpen (s.roomSet time.toNat).dueSlots fun w k => w.fireSlot k true).finish _ = _
  rw [fold]
  rfl

theorem accepted_setTime (free : s.link.outstanding = none) (service : s.link.service.debounced = true) :
    Accepted (.setTime tag time) s (s.timeSet time.toNat) 0xC0 tag 0 (bytesBE 6 s.time.room ++ bytesBE 6 time.toNat ++
      [BitVec.ofNat 8 ((List.finRange 8).filter fun k => slotDue time.toNat (s.slot k)).length]) :=
  accepted_request rfl free rfl ((setTime_answer service).trans (by rw [bytesBE_one]; rfl))

theorem mem_dueSlots (s : State) (room : Nat) (k : Fin 8) : k ∈ (s.roomSet room).dueSlots ↔ slotDue room (s.slot k) = true :=
  List.mem_filter.trans (and_iff_right (List.mem_finRange k))

theorem timeSet_fired (s : State) (room : Nat) : AllFired (fun a => ∃ k r, s.slot k = some r ∧ r.action = a)
    (inOpenOrder s.choices (s.roomSet room).dueSlots) true { s.roomSet room with choices := s.choices + drawsFor (s.roomSet room).dueSlots }
    (s.timeSet room) := by
  have perm := inOpenOrder_perm s.choices (s.roomSet room).dueSlots
  refine allFired _ (perm.nodup_iff.2 ((List.nodup_finRange 8).filter _)) true _ fun k mem => ?_
  obtain ⟨r, slot, -⟩ := (slotDue_iff ..).1 ((mem_dueSlots s room k).1 (perm.mem_iff.1 mem))
  exact ⟨r, slot, k, r, slot, rfl⟩

theorem timeSet_none {room : Nat} (none_ : ∀ k, slotDue room (s.slot k) = false) : s.timeSet room = s.roomSet room := by
  have empty : (s.roomSet room).dueSlots = [] := List.filter_eq_nil_iff.2 fun k _ => by
    rw [show slotDue (s.roomSet room).room ((s.roomSet room).slot k) = slotDue room (s.slot k) from rfl, none_ k]
    decide
  unfold State.timeSet
  rw [empty]
  rfl

theorem timeSet_one {room : Nat} {r : Slot} (slot : s.slot k = some r) (due_ : slotDue room (some r) = true)
    (others : ∀ j, j ≠ k → slotDue room (s.slot j) = false) : s.timeSet room = (s.roomSet room).fires k r true := by
  have one : (s.roomSet room).dueSlots = [k] := by
    refine List.perm_singleton.1 ((List.perm_ext_iff_of_nodup ((List.nodup_finRange 8).filter _) (List.nodup_singleton k)).2 fun j => ?_)
    rw [List.mem_singleton]
    refine (mem_dueSlots s room j).trans ⟨fun h => ?_, fun e => by rw [e, slot]; exact due_⟩
    by_contra other
    rw [others j other] at h
    cases h
  unfold State.timeSet
  rw [one]
  exact fireAt_some slot

end

/-- Settles O22: the slots that room time has passed fire one by one, and each leaves the others to fire as they would have. -/
theorem setTimeFiresThePassedSlots : Obligations.SetTimeFiresThePassedSlots := by
  refine ⟨fun tag time s free service => ?_, slotDue_iff⟩
  have accepted := accepted_setTime (tag := tag) (time := time) free service
  intro set body
  refine ⟨⟨_, accepted, ?_⟩, fun k r slot due_ others => ⟨_, accepted, ?_⟩, fun none_ => ?_⟩
  · obtain ⟨passes, takers, slots, noted⟩ := timeSet_fired s time.toNat
    have perm := inOpenOrder_perm s.choices (s.roomSet time.toNat).dueSlots
    have listed (k) : k ∈ inOpenOrder s.choices (s.roomSet time.toNat).dueSlots ↔ slotDue time.toNat (s.slot k) = true :=
      perm.mem_iff.trans (mem_dueSlots s time.toNat k)
    have slot (k) : (s.timeSet time.toNat).slot k =
        if slotDue time.toNat (s.slot k) then (s.slot k).bind fun r => r.movedOn time.toNat else s.slot k :=
      (slots k).trans (if_congr (listed k) rfl rfl)
    have timed : ZonesKept s { s.roomSet time.toNat with choices := s.choices + drawsFor (s.roomSet time.toNat).dueSlots } :=
      zonesKept_of_zones rfl
    refine ⟨by rw [passes.time]; rfl, by rw [passes.time]; rfl, by rw [passes.time]; rfl, by rw [passes.time]; rfl, by rw [passes.time]; rfl,
      slot, fun k r holds due_ => ?_, fun k r holds due_ => ?_, passes.chans, passes.profiles, passes.probes, passes.setup, passes.eqz,
      timed.trans passes.zones, passes.fans, fun i unnamed => ?_, fun z unnamed => ?_, passes.arb.1, passes.arb.2.1, passes.arb.2.2, passes.pending,
      passes.link, passes.notices⟩
    · rw [slot, holds, if_pos due_]
      exact movedOn_moves r time.toNat
    · obtain ⟨o, firing, outcome⟩ := noted k ((listed k).2 (by rw [holds]; exact due_)) r holds
      exact ⟨o, firing, fun law => outcome law.asks⟩
    · exact passes.manual i fun d ⟨k, r, holds, action⟩ => unnamed k r d holds action
    · exact passes.zoneCfg z fun ⟨k, r, holds, action⟩ => unnamed k r holds action
  · rw [timeSet_one slot due_ others]
    exact slotFired set k r true
  · rw [timeSet_none none_] at accepted
    exact accepted

end Sys2Proof.Machine
end

section
/-! A fan that has come to IDLE from FAULT or LOCKOUT: what its claims make of it, and of the fans that a grant reaches. -/

namespace Sys2Proof.Machine

/-- The record of a fan that has come to IDLE at `f`, with the claims it carries since (R91). -/
def Fan.held (f : Fan) (c : Claims) : Fan := { f with claims := c, exerciseOwed := f.exerciseOwed && !c.exercise }

/-- The record of such a fan in WAITING. -/
def Fan.queuedWith (f : Fan) (c : Claims) : Fan := { f.held c with
  state := .waiting, coastTimer := none, noteTimer := none
  clearTimer := if f.flowNote && !f.flow.debounced then f.clearTimer else none }

section
variable {u s t : State} {i j k : Fin 8} {v w : Work} {f : Fan} {c : Claims}

theorem startedAt_claims (f : Fan) (clock : Nat) : (f.startedAt clock).claims = f.claims ∧ (f.startedAt clock).cfg = f.cfg ∧
    (f.startedAt clock).stopPending = false ∧ ((f.startedAt clock).state = .proving ∨ (f.startedAt clock).state = .running) := by
  cases flow : f.flow.debounced with
  | false => rw [startedAt_stopped flow]; exact ⟨rfl, rfl, rfl, .inl rfl⟩
  | true => rw [startedAt_flowing flow]; exact ⟨rfl, rfl, rfl, .inr rfl⟩

/-- A grant makes the same of a fan in WAITING as of one that has not asked yet. -/
theorem startedAt_queued (f : Fan) (c : Claims) (clock : Nat) : (f.queuedWith c).startedAt clock = (f.held c).startedAt clock := by
  cases flow : f.flow.debounced with
  | false => rw [startedAt_stopped (f := f.queuedWith c) flow, startedAt_stopped (f := f.held c) flow]; rfl
  | true => rw [startedAt_flowing (f := f.queuedWith c) flow, startedAt_flowing (f := f.held c) flow]; rfl

/-- A zone's claim changes nothing else of a fan that a grant has started. -/
theorem startedAt_claimed (f : Fan) (c : Claims) (z : Fin 6) (clock : Nat) :
    { (f.held c).startedAt clock with claims := c.add (.zone z), stopPending := false } = (f.held (c.add (.zone z))).startedAt clock := by
  cases flow : f.flow.debounced with
  | false => rw [startedAt_stopped (f := f.held c) flow, startedAt_stopped (f := f.held _) flow]; rfl
  | true => rw [startedAt_flowing (f := f.held c) flow, startedAt_flowing (f := f.held _) flow]; rfl

theorem startedAt_available (f : Fan) (clock : Nat) (regime : Regime) : (f.startedAt clock).available regime = f.cfg.present := by
  obtain ⟨-, cfg, -, state⟩ := startedAt_claims f clock
  unfold Fan.available
  rw [cfg]
  rcases state with e | e <;> rw [e] <;> exact Bool.and_true _

theorem available_waiting {regime : Regime} (waits : f.state = .waiting) (free : ¬(regime = .critical ∧ f.cfg.rating = .ordinary)) :
    f.available regime = f.cfg.present := by
  have open_ : (decide (regime = .critical) && decide (f.cfg.rating = .ordinary)) = false := by
    rw [Bool.eq_false_iff, ne_eq, Bool.and_eq_true, decide_eq_true_eq, decide_eq_true_eq]
    exact free
  unfold Fan.available
  dsimp only
  rw [open_, waits]
  exact Bool.and_true _

theorem inhibited_iff (s : State) (i : Fin 8) : s.inhibited i = true ↔ s.alarm.regime = .critical ∧ (s.fan i).cfg.rating = .ordinary := by
  unfold State.inhibited
  simp

theorem grantChoice_spaced (h : s.arb.spacing.isSome = true) : s.grantChoice = none := by
  cases choice : s.grantChoice with
  | none => rfl
  | some i =>
    rw [(grantChoice_some choice).2.1] at h
    cases h

/-- The choice of a grant does not see the alarm table, nor the notices. -/
theorem grantChoice_recorded (h : Recorded s t) : t.grantChoice = s.grantChoice := by
  rw [h.rest]
  rfl

/-! ## The state that the fan has come to -/

/-- Fan `i` has come to IDLE in `u`, from FAULT or LOCKOUT, and the zones have not been told of it. -/
structure State.Came (u : State) (i : Fin 8) : Prop where
  idle : (u.fan i).state = .idle
  empty : (u.fan i).claims = .empty
  unasked : u.requestTime i = none
  present : (u.fan i).cfg.present = true
  waits : ∀ j, (u.requestTime j).isSome = true → (u.fan j).state = .waiting ∧ (u.fan j).cfg.present = true
  fulfilled : ∀ z, (u.zone z).active = true → Fulfilled (u.zone z).cfg.order (u.zone z).claims (u.zone z).needed
    fun j => (u.fan j).available u.alarm.regime && decide (j ≠ i)
  shortfall : ∀ z, (u.zone z).shortfall = decide ((u.zone z).claims.length < (u.zone z).needed)

/-- Another fan than `i` has not moved since `u`, or has been granted a start. -/
def Stands (u t : State) (j : Fin 8) : Prop := (t.fan j = u.fan j ∧ t.requestTime j = u.requestTime j) ∨
  (t.arb.lastGrant = some (j, u.time.clock) ∧ t.arb.spacing.isSome = true ∧
    (t.fan j).available u.alarm.regime = (u.fan j).available u.alarm.regime)

/-- Fan `i`, which came to IDLE in `u`, waits in `t` with the claims `c`, and a grant is still to be considered. -/
structure Queued (u : State) (i : Fin 8) (c : Claims) (t : State) : Prop where
  time : t.time = u.time
  regime : t.alarm.regime = u.alarm.regime
  request : t.requestTime i = some u.time.clock
  fan : t.fan i = (u.fan i).queuedWith c
  others : ∀ j, j ≠ i → Stands u t j

/-- Fan `i`, which came to IDLE in `u`, carries the claims `c` in `t`, and no grant is left to be made: it waits, or has been granted a
start. -/
structure Claimed (u : State) (i : Fin 8) (c : Claims) (t : State) : Prop where
  time : t.time = u.time
  regime : t.alarm.regime = u.alarm.regime
  none_ : t.grantChoice = none
  fan : (t.requestTime i = some u.time.clock ∧ t.fan i = (u.fan i).queuedWith c) ∨
    (t.requestTime i = none ∧ t.arb.lastGrant = some (i, u.time.clock) ∧ t.arb.spacing.isSome = true ∧
      t.fan i = ((u.fan i).held c).startedAt u.time.clock)
  others : ∀ j, j ≠ i → Stands u t j

theorem Claimed.claims (h : Claimed u i c t) : (t.fan i).claims = c := by
  rcases h.fan with ⟨-, fan⟩ | ⟨-, -, -, fan⟩
  · rw [fan]; rfl
  · rw [fan, (startedAt_claims ..).1]; rfl

/-- A consideration leaves the fan waiting, or it, or another fan, with a grant. -/
theorem Queued.considered (h : Queued u i c v.st) (came : u.Came i) :
    Claimed u i c v.consider.st ∧ v.consider.st.zones = v.st.zones ∧ v.consider.st.alarm = v.st.alarm ∧
    ∃ new, v.consider.out = v.out ++ new ∧ ∀ h ∈ new, ∃ k x, h = .condition (keyFlowNote k) x := by
  cases choice : v.st.grantChoice with
  | none =>
    rw [consider_none choice]
    exact ⟨⟨h.time, h.regime, choice, .inl ⟨h.request, h.fan⟩, h.others⟩, rfl, rfl, [], by rw [List.append_nil], fun _ m => nomatch m⟩
  | some k =>
    obtain ⟨-, spacing, asked, free⟩ := grantChoice_some choice
    have still (j) (ne : j ≠ i) : v.st.fan j = u.fan j ∧ v.st.requestTime j = u.requestTime j :=
      (h.others j ne).resolve_right fun granted => by rw [spacing] at granted; cases granted.2.1
    have waits : (v.st.fan k).state = .waiting := by
      by_cases e : k = i
      · rw [e, h.fan]; rfl
      · rw [(still k e).1]
        exact (came.waits k (by rw [← (still k e).2]; exact asked)).1
    rw [consider_some choice]
    have within := within_grant v k
    have arb := grant_arb v k
    have fan := grant_fan v k
    have clock : v.st.time.clock = u.time.clock := by rw [h.time]
    have spaced : (v.grant k).st.arb.spacing.isSome = true := by rw [arb]; rfl
    have last : (v.grant k).st.arb.lastGrant = some (k, u.time.clock) := by rw [arb, ← clock]; rfl
    have request (j) : (v.grant k).st.requestTime j = if k = j then none else v.st.requestTime j := by
      unfold State.requestTime
      rw [arb]
      exact vget_vset ..
    have same (j) (ne : j ≠ k) : (v.grant k).st.fan j = v.st.fan j := (same_grant j v ne).1
    refine ⟨⟨within.time.trans h.time, by rw [within.alarm]; exact h.regime, grantChoice_spaced spaced, ?_, fun j ne => ?_⟩,
      grant_zones v k, within.alarm, noteEnd (v.st.fan k) k, grant_out_note waits free, fun x mem => ?_⟩
    · by_cases e : k = i
      · subst e
        refine .inr ⟨by rw [request, if_pos rfl], last, spaced, ?_⟩
        rw [fan, h.fan, startedAt_queued, clock]
      · exact .inl ⟨by rw [request, if_neg e]; exact h.request, by rw [same i (Ne.symm e)]; exact h.fan⟩
    · by_cases e : k = j
      · subst e
        refine .inr ⟨last, spaced, ?_⟩
        have unheld : ¬(u.alarm.regime = .critical ∧ (u.fan k).cfg.rating = .ordinary) := by
          rw [← h.regime, ← (still k ne).1, ← inhibited_iff, free]
          exact Bool.false_ne_true
        rw [fan, startedAt_available, (still k ne).1, available_waiting (came.waits k (by rw [← (still k ne).2]; exact asked)).1 unheld]
      · refine .inl ?_
        rw [request, if_neg e, same j (Ne.symm e)]
        exact still j ne
    · unfold noteEnd at mem
      split at mem
      · exact ⟨_, _, List.mem_singleton.1 mem⟩
      · cases mem

end

end Sys2Proof.Machine
end

section
/-! The zones that miss a fan which has come to IDLE take it, one by one (R57, R84). -/

namespace Sys2Proof.Machine

section
variable {u s t : State} {i j : Fin 8} {v w : Work} {z y : Fin 6} {c : Claims}

/-! ## A zone's claim of the fan -/

/-- A zone's claim of a fan that nobody claims has it wait (R73, R74). -/
theorem addClaim_came (came : u.Came i) (fan : w.st.fan i = u.fan i) : w.addClaim i (.zone z) =
    ({ w with st := w.st.asking i ((u.fan i).held ((u.fan i).claims.add (.zone z))) } : Work).consider := by
  have fresh : (w.st.fan i).claims.has (.zone z) = false := by
    rw [fan, came.empty]
    exact vget_replicate ..
  have takes : (w.st.fan i).takesClaims = true := takes_of_idle (by rw [fan]; exact came.idle)
  rw [addClaim_eq fresh takes, show (w.st.fan i).state = .idle by rw [fan]; exact came.idle]
  have unexercised : ((u.fan i).claims.add (.zone z)).exercise = false := by rw [came.empty]; rfl
  have record : { w.st.fan i with claims := (w.st.fan i).claims.add (.zone z) } = (u.fan i).held ((u.fan i).claims.add (.zone z)) := by
    unfold Fan.held
    rw [unexercised, fan, Bool.not_false, Bool.and_true]
  have written : (w.map fun s => s.setFan i { s.fan i with claims := (s.fan i).claims.add (.zone z) }) =
      w.map fun s => s.setFan i ((u.fan i).held ((u.fan i).claims.add (.zone z))) := by
    rw [← record]
    rfl
  dsimp only
  rw [written]
  exact enterWaiting_idle w i (.inl came.idle)

/-- A zone's claim of a waiting fan has a grant considered, and of a started one is recorded (R73). -/
theorem addClaim_claimed (h : Claimed u i c w.st) (fresh : vget c.zones z = false) : w.addClaim i (.zone z) =
    if (w.st.requestTime i).isSome then ({ w with st := w.st.setFan i ((u.fan i).queuedWith (c.add (.zone z))) } : Work).consider
    else { w with st := w.st.setFan i (((u.fan i).held (c.add (.zone z))).startedAt u.time.clock) } := by
  have new : (w.st.fan i).claims.has (.zone z) = false := by rw [h.claims]; exact fresh
  rcases h.fan with ⟨request, fan⟩ | ⟨request, -, -, fan⟩
  · have waits : (w.st.fan i).state = .waiting := by rw [fan]; rfl
    refine Eq.trans ?_ (if_pos (by rw [request]; rfl)).symm
    rw [addClaim_eq new (by unfold Fan.takesClaims; rw [waits]), waits]
    have record : { w.st.fan i with claims := (w.st.fan i).claims.add (.zone z) } = (u.fan i).queuedWith (c.add (.zone z)) := by
      rw [fan]
      rfl
    rw [← record]
    rfl
  · obtain ⟨claims, -, -, state⟩ := startedAt_claims ((u.fan i).held c) u.time.clock
    have record : { w.st.fan i with claims := (w.st.fan i).claims.add (.zone z), stopPending := false } =
        ((u.fan i).held (c.add (.zone z))).startedAt u.time.clock := by
      rw [← startedAt_claimed, fan, claims]
      rfl
    have stays : w.addClaim i (.zone z) =
        w.map fun s => s.setFan i { s.fan i with claims := (s.fan i).claims.add (.zone z), stopPending := false } := by
      rw [← fan] at state
      rw [addClaim_eq new ((takesClaims_iff _).2 (state.elim (fun e => .inr (.inr (.inl e))) fun e => .inr (.inr (.inr (.inl e)))))]
      rcases state with e | e <;> rw [e]
    refine Eq.trans ?_ (if_neg (by rw [request]; exact Bool.false_ne_true)).symm
    rw [stays, ← record]
    rfl

theorem Stands.of_same (h : Stands u s j) (fan : t.fan j = s.fan j) (arb : t.arb.lastGrant = s.arb.lastGrant ∧ t.arb.spacing = s.arb.spacing)
    (request : t.requestTime j = s.requestTime j) : Stands u t j := by
  unfold Stands at h ⊢
  rw [fan, request, arb.1, arb.2]
  exact h

theorem add_carries (c : Claims) (z y : Fin 6) : vget (c.add (.zone z)).zones y = if z = y then true else vget c.zones y := vget_vset ..

/-- Fan `i`, which came to IDLE in `u`, has not been claimed, and nothing has moved. -/
structure Idles (u : State) (i : Fin 8) (t : State) : Prop where
  time : t.time = u.time
  regime : t.alarm.regime = u.alarm.regime
  fan : t.fan i = u.fan i
  request : t.requestTime i = none
  others : ∀ j, j ≠ i → t.fan j = u.fan j ∧ t.requestTime j = u.requestTime j

/-- What the claims `c` have made of fan `i`, which came to IDLE in `u`. -/
def Goes (u : State) (i : Fin 8) (c : Claims) (t : State) : Prop := (Idles u i t ∧ c = .empty) ∨ (c.none_ = false ∧ Claimed u i c t)

theorem none_add (c : Claims) (z : Fin 6) : (c.add (.zone z)).none_ = false := by
  have any : (c.add (.zone z)).anyZone = true := (anyZone_iff _).2 ⟨z, vget_vset_same ..⟩
  unfold Claims.none_
  rw [any]
  rfl

/-- A zone's claim of the fan: a grant has been considered where it waits, and only the end of a FLOW NOTE is handed over. -/
theorem Goes.claimed (h : Goes u i c w.st) (came : u.Came i) (fresh : vget c.zones z = false) :
    Claimed u i (c.add (.zone z)) (w.addClaim i (.zone z)).st ∧ (w.addClaim i (.zone z)).st.zones = w.st.zones ∧
    (w.addClaim i (.zone z)).st.alarm = w.st.alarm ∧
    ∃ new, (w.addClaim i (.zone z)).out = w.out ++ new ∧ ∀ h ∈ new, ∃ k x, h = .condition (keyFlowNote k) x := by
  have other (s : State) (f : Fan) {j : Fin 8} (ne : j ≠ i) : (s.setFan i f).fan j = s.fan j := (State.setFan_fan ..).trans (if_neg ne.symm)
  rcases h with ⟨idles, rfl⟩ | ⟨-, claimed⟩
  · rw [addClaim_came came idles.fan, came.empty]
    refine Queued.considered (v := { w with st := w.st.asking i ((u.fan i).held (Claims.empty.add (.zone z))) })
      ⟨idles.time, idles.regime, ?_, State.setFan_fan_same .., fun j ne => .inl ⟨?_, ?_⟩⟩ came
    · refine (vget_vset_same ..).trans ?_
      rw [idles.time]
    · exact (other w.st _ ne).trans (idles.others j ne).1
    · exact (vget_vset_ne _ _ ne.symm).trans (idles.others j ne).2
  · have still {f : Fan} (j) (ne : j ≠ i) : Stands u (w.st.setFan i f) j := (claimed.others j ne).of_same (other w.st f ne) ⟨rfl, rfl⟩ rfl
    rw [addClaim_claimed claimed fresh]
    rcases claimed.fan with ⟨request, -⟩ | ⟨request, last, spaced, -⟩
    · rw [if_pos (show (w.st.requestTime i).isSome = true by rw [request]; rfl)]
      exact Queued.considered (v := { w with st := w.st.setFan i _ }) ⟨claimed.time, claimed.regime, request, State.setFan_fan_same .., still⟩ came
    · rw [if_neg (show ¬(w.st.requestTime i).isSome = true by rw [request]; exact Bool.false_ne_true)]
      exact ⟨⟨claimed.time, claimed.regime, grantChoice_spaced spaced, .inr ⟨request, last, spaced, State.setFan_fan_same ..⟩, still⟩,
        rfl, rfl, [], by rw [List.append_nil], fun _ m => nomatch m⟩

/-! ## A zone that misses the fan -/

/-- The zone's record once it has claimed the fan (R57). -/
def State.served (u : State) (i : Fin 8) (z : Fin 6) : Zone :=
  { u.zone z with
    claims := (u.zone z).cfg.order.filter fun j => decide (j ∈ (u.zone z).claims ∨ j = i)
    shortfall := decide ((u.zone z).claims.length + 1 < (u.zone z).needed) }

/-- What a missing zone's allocation does once the fan is available: it adds it, and releases none. -/
theorem allots_missed {order claims : List (Fin 8)} {n : Nat} {p : Fin 8 → Bool}
    (h : Fulfilled order claims n fun j => p j && decide (j ≠ i)) (short : claims.length < n) (listed : i ∈ order) (free : p i = true) :
    addedClaims order claims n p = [i] ∧ releasedClaims claims n p = [] ∧
    allocated order claims n p = order.filter (fun j => decide (j ∈ claims ∨ j = i)) ∧
    (allocated order claims n p).length = claims.length + 1 := by
  have apart {j} (mem : j ∈ claims) : p j = true ∧ j ≠ i := by
    have := h.available j mem
    rwa [Bool.and_eq_true, decide_eq_true_eq] at this
  have fresh : i ∉ claims := fun mem => (apart mem).2 rfl
  have all : claims.filter p = claims := List.filter_eq_self.2 fun j mem => (apart mem).1
  have kept : keptClaims claims n p = claims := by
    unfold keptClaims
    rw [all]
    exact List.take_of_length_le h.within
  have left : (order.filter fun f => p f && !claims.contains f) = [i] := by
    refine List.perm_singleton.1 ((List.perm_ext_iff_of_nodup (h.nodup.filter _) (List.nodup_singleton i)).2 fun j => ?_)
    rw [List.mem_singleton, List.mem_filter, Bool.and_eq_true, Bool.not_eq_true', Bool.eq_false_iff, ne_eq, List.contains_iff_mem]
    refine ⟨fun ⟨mem, open_, out⟩ => ?_, fun e => by rw [e]; exact ⟨listed, free, fresh⟩⟩
    by_contra other
    exact out (h.enough short j mem (by rw [open_, decide_eq_true other]; rfl))
  have added : addedClaims order claims n p = [i] := by
    unfold addedClaims
    dsimp only
    rw [kept, left]
    exact List.take_of_length_le (by simp; omega)
  have result : allocated order claims n p = order.filter fun j => decide (j ∈ claims ∨ j = i) := by
    unfold allocated
    dsimp only
    rw [kept, added]
    refine List.filter_congr fun j _ => ?_
    rw [Bool.eq_iff_iff, Bool.or_eq_true, List.contains_iff_mem, List.contains_iff_mem, List.mem_singleton, decide_eq_true_eq]
  refine ⟨added, ?_, result, ?_⟩
  · unfold releasedClaims
    rw [all, List.drop_of_length_le h.within, List.filter_eq_nil_iff.2 fun j mem => by rw [(apart mem).1]; decide]
    rfl
  · have perm : (allocated order claims n p).Perm (i :: claims) := by
      rw [result]
      refine (List.perm_ext_iff_of_nodup (h.nodup.filter _) (List.nodup_cons.2 ⟨fresh, h.listed.nodup h.nodup⟩)).2 fun j => ?_
      rw [List.mem_filter, decide_eq_true_eq, List.mem_cons]
      exact ⟨fun m => m.2.symm, fun m => ⟨m.elim (fun e => e ▸ listed) fun mem => h.listed.subset mem, m.symm⟩⟩
    rw [perm.length_eq, List.length_cons]

end

end Sys2Proof.Machine
end

section
/-! The cascade of a fan that has come to IDLE: what holds of it after each hand-over, and at its end. -/

namespace Sys2Proof.Machine

/-- The hand-overs of such a cascade: conditions that no regime is derived from, and the fan's availability. -/
def Handover.frees : Handover → Prop
  | .condition k _ => (classOf k).ruling = false
  | .availability _ => True
  | .member _ => False | .completion _ => False | .paused .. => False | .eqz _ => False | .coupling .. => False | .spill _ => False
  | .critical _ => False | .toArbiter => False | .toFans _ => False

/-- In the state `s`, the zones whose claims stand in `c` have been told of fan `i`, which came to IDLE in `u`, and have claimed it. -/
structure Freeing (u : State) (i : Fin 8) (c : Claims) (s : State) : Prop where
  fan : Goes u i c s
  low : c.exercise = true → u.alarm.regime ≠ .critical
  manual : c.manual = false
  derived : s.alarm.regime = regimeOf s.alarm
  zones : ∀ z, s.zone z = if vget c.zones z then u.served i z else u.zone z
  carried : ∀ z, vget c.zones z = true → Misses u z i

/-- Every other zone that misses it is still to be told. -/
structure Frees (u : State) (i : Fin 8) (c : Claims) (w : Work) : Prop extends Freeing u i c w.st where
  pending : ∀ z, Misses u z i → vget c.zones z = true ∨ .availability z ∈ w.out
  out : ∀ h ∈ w.out, h.frees

section
variable {u s t : State} {i j : Fin 8} {v w : Work} {z y : Fin 6} {c : Claims}

theorem Goes.settled (h : Goes u i c s) : s.time = u.time ∧ s.alarm.regime = u.alarm.regime := by
  rcases h with ⟨idles, -⟩ | ⟨-, claimed⟩
  · exact ⟨idles.time, idles.regime⟩
  · exact ⟨claimed.time, claimed.regime⟩

theorem Goes.others (h : Goes u i c s) (ne : j ≠ i) : Stands u s j := by
  rcases h with ⟨idles, -⟩ | ⟨-, claimed⟩
  · exact .inl (idles.others j ne)
  · exact claimed.others j ne

theorem Goes.of_recorded (h : Goes u i c s) (r : Recorded s t) : Goes u i c t := by
  have fan := r.fan
  have request := r.requestTime
  rcases h with ⟨idles, empty⟩ | ⟨some_, claimed⟩
  · exact .inl ⟨⟨r.time.trans idles.time, r.regime.trans idles.regime, (fan i).trans idles.fan, (request i).trans idles.request,
      fun j ne => ⟨(fan j).trans (idles.others j ne).1, (request j).trans (idles.others j ne).2⟩⟩, empty⟩
  · refine .inr ⟨some_, r.time.trans claimed.time, r.regime.trans claimed.regime, (grantChoice_recorded r).trans claimed.none_, ?_, fun j ne => ?_⟩
    · rw [request, fan, r.arb]
      exact claimed.fan
    · exact (claimed.others j ne).of_same (fan j) (by rw [r.arb]; exact ⟨rfl, rfl⟩) (request j)

/-- A fan that somebody has claimed is not withheld by CRITICAL. -/
theorem Freeing.unheld (h : Freeing u i c s) (some_ : c.none_ = false) : ¬(u.alarm.regime = .critical ∧ (u.fan i).cfg.rating = .ordinary) := by
  cases any : c.anyZone with
  | true =>
    obtain ⟨z, carried⟩ := (anyZone_iff c).1 any
    exact (h.carried z carried).2.2.2
  | false =>
    have exercise : c.exercise = true := by
      unfold Claims.none_ at some_
      rw [any, h.manual] at some_
      cases e : c.exercise with
      | true => rfl
      | false => rw [e] at some_; cases some_
    exact fun critical => h.low exercise critical.1

/-- No fan's availability has changed since the fan came to IDLE. -/
theorem Freeing.available (h : Freeing u i c s) (came : u.Came i) (j : Fin 8) :
    (s.fan j).available u.alarm.regime = (u.fan j).available u.alarm.regime := by
  by_cases e : j = i
  · subst e
    rcases h.fan with ⟨idles, -⟩ | ⟨some_, claimed⟩
    · rw [idles.fan]
    · have patient : ((u.fan j).queuedWith c).available u.alarm.regime = (u.fan j).available u.alarm.regime :=
        patient_available ((u.fan j).queuedWith c) (u.fan j) rfl rfl (by rw [came.idle]; rfl) _
      rcases claimed.fan with ⟨-, fan⟩ | ⟨-, -, -, fan⟩
      · rw [fan, patient]
      · rw [fan, startedAt_available, ← patient, available_waiting (f := (u.fan j).queuedWith c) rfl (h.unheld some_)]
        rfl
  · rcases h.fan.others e with ⟨same, -⟩ | ⟨-, -, same⟩
    · rw [same]
    · exact same

/-! ## The hand-overs -/

theorem Frees.rest {x : Handover} {rest : List Handover} (h : Frees u i c w) (out : w.out = x :: rest)
    (told : ∀ z, x = .availability z → Misses u z i → vget c.zones z = true) : Frees u i c { w with out := rest } := by
  refine ⟨h.toFreeing, fun z misses => ?_, fun y mem => h.out y (by rw [out]; exact List.mem_cons_of_mem x mem)⟩
  rcases h.pending z misses with carried | mem
  · exact .inl carried
  · rw [out] at mem
    rcases List.mem_cons.1 mem with e | later
    · exact .inl (told z e.symm misses)
    · exact .inr later

/-- The alarm unit takes a condition. -/
theorem Frees.condition {k : Fin 82} {image : Image} (h : Frees u i c w) (mute : (classOf k).ruling = false) :
    Frees u i c (w.takeCondition k image) := by
  obtain ⟨recorded, derived, out⟩ := takeCondition_recorded w image mute h.derived
  refine ⟨⟨h.fan.of_recorded recorded, h.low, h.manual, derived, fun z => (recorded.zone z).trans (h.zones z), h.carried⟩, ?_, ?_⟩
  · rw [out]; exact h.pending
  · rw [out]; exact h.out

theorem misses_iff (u : State) (z : Fin 6) (i : Fin 8) (came : u.Came i) : Misses u z i ↔
    (u.zone z).active = true ∧ (u.zone z).claims.length < (u.zone z).needed ∧ i ∈ (u.zone z).cfg.order ∧
      (u.fan i).available u.alarm.regime = true := by
  have available : (u.fan i).available u.alarm.regime = true ↔ ¬(u.alarm.regime = .critical ∧ (u.fan i).cfg.rating = .ordinary) := by
    rw [available_iff]
    simp [came.present, came.idle]
  unfold Misses
  rw [available, came.shortfall, decide_eq_true_eq]

/-- The zone's claims in the state the fan came to, where it does not miss the fan. -/
theorem State.Came.fulfilled_unmissed (came : u.Came i) (active : (u.zone z).active = true) (unmissed : ¬Misses u z i) :
    Fulfilled (u.zone z).cfg.order (u.zone z).claims (u.zone z).needed fun j => (u.fan j).available u.alarm.regime := by
  have h := came.fulfilled z active
  refine ⟨h.nodup, h.listed, fun j mem => (Bool.and_eq_true_iff.1 (h.available j mem)).1, h.within, fun short j mem free => ?_⟩
  refine h.enough short j mem ?_
  rw [free, Bool.true_and, decide_eq_true_eq]
  rintro rfl
  exact unmissed ((misses_iff u z j came).2 ⟨active, short, mem, free⟩)

theorem served_fulfilled (came : u.Came i) (misses : Misses u z i) : Fulfilled (u.served i z).cfg.order (u.served i z).claims (u.served i z).needed
    (fun j => (u.fan j).available u.alarm.regime) ∧ (u.served i z).claims.length = (u.zone z).claims.length + 1 := by
  obtain ⟨active, short, listed, free⟩ := (misses_iff u z i came).1 misses
  have h := came.fulfilled z active
  obtain ⟨-, -, result, length⟩ := allots_missed h short listed free
  rw [result] at length
  have mem (j) : j ∈ (u.served i z).claims ↔ j ∈ (u.zone z).cfg.order ∧ (j ∈ (u.zone z).claims ∨ j = i) := by
    change j ∈ List.filter _ _ ↔ _
    rw [List.mem_filter, decide_eq_true_eq]
  have less : (u.served i z).claims.length = (u.zone z).claims.length + 1 := length
  refine ⟨⟨h.nodup, List.filter_sublist, fun j m => ?_, by rw [less]; exact short, fun _ j m open_ => (mem j).2 ⟨m, ?_⟩⟩, less⟩
  · rcases ((mem j).1 m).2 with old | e
    · exact (Bool.and_eq_true_iff.1 (h.available j old)).1
    · rw [e]; exact free
  · by_cases e : j = i
    · exact .inr e
    · exact .inl (h.enough short j m (by rw [open_, decide_eq_true e]; rfl))

/-- A zone that has claimed the fan, or that does not miss it, finds nothing to allocate. -/
theorem Freeing.allotted (h : Freeing u i c s) (came : u.Came i) (active : (s.zone z).active = true)
    (told : Misses u z i → vget c.zones z = true) : s.Allotted z := by
  have regime := h.fan.settled.2
  have avail : (fun j => (s.fan j).available s.alarm.regime) = fun j => (u.fan j).available u.alarm.regime := by
    funext j
    rw [regime]
    exact h.available came j
  have zone := h.zones z
  cases carried : vget c.zones z with
  | true =>
    rw [carried, if_pos rfl] at zone
    have misses := h.carried z carried
    obtain ⟨fulfilled, length⟩ := served_fulfilled came misses
    refine ⟨?_, ?_⟩
    · rw [zone, avail]; exact fulfilled
    · rw [zone, length]; rfl
  | false =>
    rw [carried, if_neg (by decide)] at zone
    rw [zone] at active
    have unmissed : ¬Misses u z i := fun misses => by rw [told misses] at carried; cases carried
    refine ⟨?_, ?_⟩
    · rw [zone, avail]; exact came.fulfilled_unmissed active unmissed
    · rw [zone]; exact came.shortfall z

/-- The choice of a grant sees no more of a zone than its demand. -/
theorem grantChoice_setZone {r : Zone} (demand : r.demand = (s.zone z).demand) : (s.setZone z r).grantChoice = s.grantChoice := by
  have each (y) : ((s.setZone z r).zone y).demand = (s.zone y).demand := by
    rw [State.setZone_zone]
    split
    · rename_i e; subst e; exact demand
    · rfl
  have rank (j) : (s.setZone z r).classRank j = s.classRank j := by
    unfold State.classRank
    simp only [each]
    rfl
  have before : (s.setZone z r).grantsBefore = s.grantsBefore := by
    funext j k
    unfold State.grantsBefore
    rw [rank, rank]
    rfl
  unfold State.grantChoice State.grantOrder
  rw [before]
  rfl

/-- A zone that misses the fan claims it. -/
theorem Freeing.serves (h : Freeing u i c w.st) (came : u.Came i) (misses : Misses u z i) (fresh : vget c.zones z = false) :
    (w.allocate z).st.zones = (w.st.setZone z (u.served i z)).zones ∧ Claimed u i (c.add (.zone z)) (w.allocate z).st ∧
    (w.allocate z).st.alarm = w.st.alarm ∧
    ∃ new, (w.allocate z).out = w.out ++ new ∧ ∀ h ∈ new, ∃ k x, h = .condition (keyFlowNote k) x := by
  obtain ⟨active, short, listed, free⟩ := (misses_iff u z i came).1 misses
  have zone := h.zones z
  rw [fresh, if_neg (by decide)] at zone
  have avail : w.avails = fun j => (u.fan j).available u.alarm.regime := by
    funext j
    unfold Work.avails
    rw [h.fan.settled.2]
    exact h.available came j
  obtain ⟨added, released, result, length⟩ := allots_missed (came.fulfilled z active) short listed free
  have lists : w.listedFor z = { w with st := w.st.setZone z (u.served i z) } := by
    unfold Work.listedFor Work.allotted Work.map
    rw [zone, avail, length, result]
    rfl
  rw [allocate_eq, zone, avail, added, released, lists]
  have goes : Goes u i c (w.st.setZone z (u.served i z)) := by
    rcases h.fan with ⟨idles, empty⟩ | ⟨some_, claimed⟩
    · exact .inl ⟨⟨idles.time, idles.regime, idles.fan, idles.request, idles.others⟩, empty⟩
    · refine .inr ⟨some_, claimed.time, claimed.regime, (grantChoice_setZone ?_).trans claimed.none_, claimed.fan, claimed.others⟩
      rw [zone]
      rfl
  obtain ⟨claimed, zones, alarm, out⟩ := goes.claimed (w := { w with st := w.st.setZone z (u.served i z) }) came fresh
  exact ⟨zones, claimed, alarm, out⟩

/-- The end of the evaluation hands SHORTFALL on, and nothing else. -/
theorem served_handovers (u : State) (i : Fin 8) (z : Fin 6) : ∀ h ∈ (u.zone z).handovers (u.served i z) z, h.frees := by
  intro h mem
  unfold Zone.handovers at mem
  rw [show changedImage (keyGas z) (u.zone z).gasImage (u.served i z).gasImage = [] from if_pos rfl,
    show changedImage (keyBlind z) (u.zone z).blindImage (u.served i z).blindImage = [] from if_pos rfl,
    if_pos (show decide ((u.zone z).sight = some .paused) = decide ((u.served i z).sight = some .paused) from rfl),
    List.append_nil, List.nil_append, List.nil_append] at mem
  obtain ⟨-, rfl⟩ := mem_changedImage.1 mem
  change (classOf (keyShortfall z)).ruling = false
  rw [classOf_keyShortfall]
  rfl

theorem frees_note {x : Handover} (h : ∃ k image, x = .condition (keyFlowNote k) image) : x.frees := by
  obtain ⟨k, image, rfl⟩ := h
  exact (noteKey_mute k).1

/-- A zone that misses the fan is told of it. -/
theorem Frees.told (h : Frees u i c w) (came : u.Came i) (misses : Misses u z i) (fresh : vget c.zones z = false)
    {rest : List Handover} (out : w.out = .availability z :: rest) :
    Frees u i (c.add (.zone z)) (({ w with out := rest } : Work).evaluateAllocation z (w.st.zone z)) := by
  have zone := h.zones z
  rw [fresh, if_neg (by decide)] at zone
  have evaluates : ({ w with out := rest } : Work).evaluateAllocation z (w.st.zone z) =
      (({ w with out := rest } : Work).allocate z).endEvaluation z (w.st.zone z) := by
    unfold Work.evaluateAllocation
    rw [map_zone_self { w with out := rest } z]
  obtain ⟨zones, claimed, alarm, new, grown, notes⟩ := Freeing.serves (w := { w with out := rest }) h.toFreeing came misses fresh
  rw [evaluates]
  generalize ({ w with out := rest } : Work).allocate z = v at zones claimed alarm grown
  have record : v.st.zone z = u.served i z := (zone_of_zones zones z).trans (State.setZone_zone_same ..)
  obtain ⟨bodies, -, st, ends⟩ := endEvaluation_eq v z (w.st.zone z)
  have recorded : Recorded v.st (v.endEvaluation z (w.st.zone z)).st := by
    rw [st, noticeAll_st, foldl_notice]
    exact ⟨rfl⟩
  refine ⟨⟨(show Goes u i _ v.st from .inr ⟨none_add c z, claimed⟩).of_recorded recorded, h.low, h.manual, ?_, fun y => ?_, fun y carried => ?_⟩,
    fun y missed => ?_, fun x mem => ?_⟩
  · have kept : (v.endEvaluation z (w.st.zone z)).st.alarm = w.st.alarm := by
      rw [st, noticeAll_st, foldl_notice]
      exact alarm
    rw [kept]
    exact h.derived
  · rw [recorded.zone, zone_of_zones zones, add_carries]
    refine (State.setZone_zone ..).trans ?_
    by_cases e : z = y
    · rw [if_pos e, if_pos e, if_pos rfl, e]
    · rw [if_neg e, if_neg e]
      exact h.zones y
  · rw [add_carries] at carried
    split at carried
    · rename_i e; exact e ▸ misses
    · exact h.carried y carried
  · rw [add_carries]
    by_cases e : z = y
    · exact .inl (if_pos e)
    · rw [if_neg e]
      refine (h.pending y missed).imp_right fun mem => ?_
      rw [out] at mem
      rw [ends, grown]
      refine List.mem_append_left _ (List.mem_append_left _ ((List.mem_cons.1 mem).resolve_left fun same => ?_))
      injection same with same
      exact e same.symm
  · rw [ends, grown, record, zone] at mem
    rcases List.mem_append.1 mem with before | handed
    · rcases List.mem_append.1 before with old | note
      · exact h.out x (by rw [out]; exact List.mem_cons_of_mem _ old)
      · exact frees_note (notes x note)
    · exact served_handovers u i z x handed

/-- Each hand-over of the cascade. -/
theorem Frees.take (h : Frees u i c w) (came : u.Came i) {x : Handover} {rest : List Handover} (out : w.out = x :: rest) :
    ∃ d, d.exercise = c.exercise ∧ Frees u i d (({ w with out := rest } : Work).take x) := by
  have frees := h.out x (by rw [out]; exact List.mem_cons_self)
  cases x with
  | condition k image =>
    exact ⟨c, rfl, (h.rest out fun z e => nomatch e).condition frees⟩
  | availability z =>
    by_cases new : Misses u z i ∧ vget c.zones z = false
    · refine ⟨c.add (.zone z), rfl, ?_⟩
      have active : (w.st.zone z).active = true := by
        have zone := h.zones z
        rw [new.2, if_neg (by decide)] at zone
        rw [zone]
        exact new.1.1
      rw [show ({ w with out := rest } : Work).take (.availability z) = ({ w with out := rest } : Work).evaluateAllocation z (w.st.zone z) from
        if_pos active]
      exact h.told came new.1 new.2 out
    · have told : Misses u z i → vget c.zones z = true := fun misses => by
        cases carried : vget c.zones z with
        | true => rfl
        | false => exact absurd ⟨misses, carried⟩ new
      have left : Frees u i c { w with out := rest } := h.rest out fun y e misses => by
        injection e with e
        subst e
        exact told misses
      refine ⟨c, rfl, ?_⟩
      cases active : (w.st.zone z).active with
      | true => rw [inert_availability (h.allotted came active told) { w with out := rest } rfl]; exact left
      | false => rw [show ({ w with out := rest } : Work).take (.availability z) = { w with out := rest } from if_neg (by rw [active]; decide)]; exact left
  | _ => exact frees.elim

theorem Frees.settle (h : Frees u i c w) (came : u.Came i) (fuel : Nat) : ∃ d, d.exercise = c.exercise ∧ Frees u i d (w.settle fuel) := by
  induction fuel generalizing w c with
  | zero => exact ⟨c, rfl, h⟩
  | succ fuel ih =>
    unfold Work.settle
    split
    · exact ⟨c, rfl, h⟩
    · rename_i x rest out
      obtain ⟨d, same, taken⟩ := h.take came out
      obtain ⟨e, same', after⟩ := ih taken
      exact ⟨e, same'.trans same, after⟩

end

end Sys2Proof.Machine
end

section
/-! A fan comes to IDLE from FAULT or LOCKOUT, and what that leads to (R84). -/

namespace Sys2Proof.Machine

section
variable {u s t : State} {i j : Fin 8} {v w : Work} {z y : Fin 6} {c : Claims} {f : Fan}

/-- A fan's change of record, but for the count of orders drawn. -/
theorem moveFan_moved (w : Work) (i : Fin 8) (f : Fan) : ∃ n, (w.moveFan i f).st = { w.st.moved i f with choices := n } := by
  have put : ((if (f.remeasure (w.st.fan i) w.st.clock).state = (w.st.fan i).state then
        w.map fun s => s.setFan i (f.remeasure (w.st.fan i) w.st.clock)
      else (w.map fun s => s.setFan i (f.remeasure (w.st.fan i) w.st.clock)).notice
        (.fanChange i (f.remeasure (w.st.fan i) w.st.clock).state (f.remeasure (w.st.fan i) w.st.clock).reportedDetail)) : Work).st =
      w.st.moved i f := by
    unfold State.moved
    change (if f.state = (w.st.fan i).state then _ else _ : Work).st = _
    split <;> rfl
  unfold Work.moveFan
  dsimp only
  split
  · refine ⟨(w.st.moved i f).choices, ?_⟩
    rw [handCondition_st, handCondition_st, put]
  · unfold Work.forEachOpen
    rw [foldl_post_st, Work.map_st, handCondition_st, handCondition_st, put]
    exact ⟨_, rfl⟩

/-- A fan that takes no claims comes to IDLE at the record `f`, which keeps what the claims and the exercise depend on. -/
structure Fan.Comes (before f : Fan) : Prop where
  stopped : before.takesClaims = false
  managed : before.state ≠ .unmanaged
  state : f.state = .idle
  cfg : f.cfg = before.cfg
  claims : f.claims = before.claims

theorem Fan.Comes.moved (h : (s.fan i).Comes f) : s.moved i f =
    (s.setFan i (f.remeasure (s.fan i) s.clock)).notice (.fanChange i f.state f.reportedDetail) := by
  refine State.moved_of_change fun e => ?_
  have := takes_of_idle (e.symm.trans h.state)
  rw [h.stopped] at this
  cases this

theorem Fan.Comes.fan (h : (s.fan i).Comes f) : (s.moved i f).fan i = f.remeasure (s.fan i) s.clock := by
  rw [h.moved]
  exact State.setFan_fan_same ..

/-- The state that the fan has come to. -/
theorem came_of_laws (h : (s.fan i).Comes f) (fans : FanLaw s) (claims : ClaimLaw s) : (s.moved i f).Came i := by
  rw [h.moved]
  have fan : ((s.setFan i (f.remeasure (s.fan i) s.clock)).notice (.fanChange i f.state f.reportedDetail)).fan i = f.remeasure (s.fan i) s.clock :=
    State.setFan_fan_same ..
  have other (j) (ne : j ≠ i) : ((s.setFan i (f.remeasure (s.fan i) s.clock)).notice (.fanChange i f.state f.reportedDetail)).fan j = s.fan j :=
    (State.setFan_fan ..).trans (if_neg ne.symm)
  have unasked : s.requestTime i = none := by
    rw [← Option.not_isSome_iff_eq_none, fans.waiting]
    intro waits
    have := h.stopped
    unfold Fan.takesClaims at this
    rw [waits] at this
    cases this
  have present : (s.fan i).cfg.present = true := by
    cases there : (s.fan i).cfg.present with
    | true => rfl
    | false => exact absurd (fans.absent i there) h.managed
  refine ⟨by rw [fan]; exact h.state, by rw [fan]; exact h.claims.trans (claims.unclaimed i (.inr h.stopped)), unasked,
    by rw [fan]; exact (congrArg FanCfg.present h.cfg).trans present, fun j asked => ?_, fun z active => ?_, claims.shortfall⟩
  · have ne : j ≠ i := by
      rintro rfl
      have asked' : (s.requestTime j).isSome = true := asked
      rw [unasked] at asked'
      cases asked'
    have waits : (s.fan j).state = .waiting := (fans.waiting j).1 asked
    rw [other j ne]
    refine ⟨waits, ?_⟩
    cases there : (s.fan j).cfg.present with
    | true => rfl
    | false => rw [fans.absent j there] at waits; cases waits
  · have same : (fun j => (((s.setFan i (f.remeasure (s.fan i) s.clock)).notice (.fanChange i f.state f.reportedDetail)).fan j).available
        s.alarm.regime && decide (j ≠ i)) = fun j => (s.fan j).available s.alarm.regime := by
      funext j
      by_cases e : j = i
      · subst e
        rw [decide_eq_false (not_not.2 rfl), Bool.and_false]
        refine (Bool.eq_false_iff.2 fun open_ => ?_).symm
        have := takes_of_available open_
        rw [h.stopped] at this
        cases this
      · rw [other j e, decide_eq_true e, Bool.and_true]
    have fulfilled := claims.fulfilled (z := z) active
    rw [← same] at fulfilled
    exact fulfilled

/-- The zones that miss the fan are told of it. -/
theorem moveFan_tells (h : (s.fan i).Comes f) (came : (s.moved i f).Came i) (misses : Misses (s.moved i f) z i) :
    .availability z ∈ (s.begin.moveFan i f).out := by
  obtain ⟨active, -, listed, free⟩ := (misses_iff _ z i came).1 misses
  rw [h.moved] at active listed
  have before : (s.fan i).available s.alarm.regime = false := Bool.eq_false_iff.2 fun open_ => by
    have := takes_of_available open_
    rw [h.stopped] at this
    cases this
  have after : f.available s.alarm.regime = true := by
    rw [h.fan, h.moved] at free
    exact free
  have using_ : z ∈ s.zonesUsing i := by
    unfold State.zonesUsing State.activeZones
    rw [List.mem_filter, List.mem_filter, List.contains_iff_mem]
    exact ⟨⟨List.mem_finRange z, active⟩, listed⟩
  have changes : ¬(s.begin.st.fan i).available s.begin.st.alarm.regime = f.available s.begin.st.alarm.regime := by
    rw [show (s.begin.st.fan i).available s.begin.st.alarm.regime = false from before, show f.available s.begin.st.alarm.regime = true from after]
    decide
  rw [moveFan_out, if_neg changes]
  exact List.mem_append_right _ (availability_mem using_)

theorem moveFan_frees (s : State) (i : Fin 8) (f : Fan) : ∀ h ∈ (s.begin.moveFan i f).out, h.frees := by
  intro x mem
  rw [moveFan_out] at mem
  have handed : ∀ y ∈ (s.fan i).handed f i, y.frees := by
    intro y m
    unfold Fan.handed at m
    rcases List.mem_append.1 m with fail | note
    · split at fail
      · cases fail
      · rw [List.mem_singleton.1 fail]
        change (classOf (keyFanFail i)).ruling = false
        rw [classOf_keyFanFail]
        rfl
    · split at note
      · cases note
      · exact frees_note ⟨i, _, List.mem_singleton.1 note⟩
  rcases List.mem_append.1 mem with first | told
  · exact handed x first
  · split at told
    · cases told
    · obtain ⟨z, -, rfl⟩ := List.mem_map.1 told
      trivial

/-- What the fan's own test for an owed exercise leaves, before any zone is told of it. -/
theorem frees_begins (h : (s.fan i).Comes f) (came : (s.moved i f).Came i) (derived : DerivedLaw s) :
    ∃ c, Frees (s.moved i f) i c ((s.begin.moveFan i f).testExercise i) ∧
      (c.exercise = true ↔ f.exerciseOwed = true ∧ s.alarm.regime ≠ .gasAlarm ∧ s.alarm.regime ≠ .critical) := by
  have tells (z) (misses : Misses (s.moved i f) z i) := moveFan_tells h came misses
  have frees := moveFan_frees s i f
  obtain ⟨n, st⟩ := moveFan_moved s.begin i f
  have alarm : (s.moved i f).alarm = s.alarm := by rw [h.moved]; rfl
  have owed : ((s.moved i f).fan i).exerciseOwed = f.exerciseOwed := by rw [h.fan]; rfl
  change (s.begin.moveFan i f).st = { s.moved i f with choices := n } at st
  generalize s.begin.moveFan i f = v at tells frees st
  generalize s.moved i f = u at came tells st alarm owed
  rw [← alarm, ← owed]
  have derived' : v.st.alarm.regime = regimeOf v.st.alarm := by rw [st, alarm]; exact derived.regime
  have idles : Idles u i v.st := by
    rw [st]
    exact ⟨rfl, rfl, rfl, came.unasked, fun _ _ => ⟨rfl, rfl⟩⟩
  have unclaimed (c : Claims) (zones : c.zones = Claims.empty.zones) (z : Fin 6) : vget c.zones z = false := by
    rw [zones]
    exact vget_replicate ..
  have takes : v.st.takesExercise i = true ↔
      (u.fan i).exerciseOwed = true ∧ u.alarm.regime ≠ .gasAlarm ∧ u.alarm.regime ≠ .critical := by
    rw [takesExercise_iff, idles.fan, idles.regime, came.empty]
    exact ⟨fun t => ⟨t.2.1, t.2.2.1, t.2.2.2.1⟩, fun t => ⟨came.idle, t.1, t.2.1, t.2.2, rfl⟩⟩
  cases taken : v.st.takesExercise i with
  | false =>
    rw [testExercise_untaken taken]
    refine ⟨.empty, ⟨⟨.inl ⟨idles, rfl⟩, fun e => (nomatch e), rfl, derived', fun z => ?_, fun z m => ?_⟩, fun z misses => .inr (tells z misses), frees⟩, ?_⟩
    · rw [unclaimed .empty rfl z, if_neg (by decide), st]
      rfl
    · rw [unclaimed .empty rfl z] at m
      cases m
    · rw [← takes, taken]
      exact Iff.rfl
  | true =>
    have exercised : (u.fan i).exercised = (u.fan i).held { Claims.empty with exercise := true } := by
      unfold Fan.exercised Fan.held
      rw [came.empty, Bool.not_true, Bool.and_false]
    have low := takes.1 taken
    rw [testExercise_taken taken, idles.fan, exercised]
    have queued : Queued u i { Claims.empty with exercise := true }
        (v.st.asking i ((u.fan i).held { Claims.empty with exercise := true })) := by
      refine ⟨idles.time, idles.regime, ?_, State.setFan_fan_same .., fun j ne => .inl ⟨?_, ?_⟩⟩
      · refine (vget_vset_same ..).trans ?_
        rw [idles.time]
      · exact ((State.setFan_fan ..).trans (if_neg ne.symm)).trans (idles.others j ne).1
      · exact (vget_vset_ne _ _ ne.symm).trans (idles.others j ne).2
    obtain ⟨claimed, zones, alarm', new, grown, notes⟩ :=
      Queued.considered (v := { v with st := v.st.asking i ((u.fan i).held { Claims.empty with exercise := true }) }) queued came
    refine ⟨{ Claims.empty with exercise := true }, ⟨⟨.inr ⟨by decide, claimed⟩, fun _ => low.2.2, rfl, ?_, fun z => ?_, fun z m => ?_⟩,
      fun z misses => .inr ?_, fun x mem => ?_⟩, ?_⟩
    · rw [alarm']
      exact derived'
    · rw [unclaimed _ rfl z, if_neg (by decide), zone_of_zones zones]
      change v.st.zone z = u.zone z
      rw [st]
      rfl
    · rw [unclaimed _ rfl z] at m
      cases m
    · rw [grown]
      exact List.mem_append_left _ (tells z misses)
    · rw [grown] at mem
      rcases List.mem_append.1 mem with old | note
      · exact frees x old
      · exact frees_note (notes x note)
    · exact ⟨fun _ => low, fun _ => rfl⟩

/-- At the end of the cascade every zone that misses the fan has claimed it. -/
theorem Frees.freed (h : Frees u i c w) (came : u.Came i) (done : w.out = [])
    (exercise : c.exercise = true ↔ (u.fan i).exerciseOwed = true ∧ u.alarm.regime ≠ .gasAlarm ∧ u.alarm.regime ≠ .critical) :
    Freed u i w.st := by
  have claims : (w.st.fan i).claims = c := by
    rcases h.fan with ⟨idles, empty⟩ | ⟨-, claimed⟩
    · rw [idles.fan, came.empty, empty]
    · exact claimed.claims
  have carried (z) : vget c.zones z = true ↔ Misses u z i :=
    ⟨h.carried z, fun misses => (h.pending z misses).resolve_right fun mem => by rw [done] at mem; cases mem⟩
  have need (z : Fin 6) : (u.zone z).needed = match (u.zone z).demand with
      | some .idle => (u.zone z).cfg.needIdle
      | some .base => (u.zone z).cfg.needBase
      | some .boost => (u.zone z).cfg.needBoost
      | some .purge => (u.zone z).cfg.needPurge
      | none => 0 := by
    unfold Zone.needed
    cases (u.zone z).demand with
    | none => rfl
    | some d => cases d <;> rfl
  refine ⟨fun z misses => ?_, fun z unmissed => ?_, fun z => ?_, ?_, ?_, fun none_ => ?_, fun some_ => ?_, fun j ne => ?_⟩
  · intro needed
    have e : needed = (u.zone z).needed := (need z).symm
    rw [h.zones z, if_pos ((carried z).2 misses), e]
    rfl
  · rw [h.zones z, if_neg (mt (carried z).1 unmissed)]
  · rw [claims]; exact carried z
  · rw [claims]; exact exercise
  · rw [claims]; exact h.manual
  · rw [claims] at none_
    rcases h.fan with ⟨idles, -⟩ | ⟨some_, -⟩
    · exact ⟨idles.fan, idles.request⟩
    · rw [some_] at none_; cases none_
  · rw [claims] at some_ ⊢
    rcases h.fan with ⟨-, empty⟩ | ⟨-, claimed⟩
    · rw [empty] at some_
      exact absurd some_ (by decide)
    · intro held
      refine ⟨claimed.none_, ?_⟩
      rcases claimed.fan with waits | ⟨request, last, -, fan⟩
      · exact .inl waits
      · exact .inr ⟨request, last, fan⟩
  · rcases h.fan.others ne with same | ⟨last, -⟩
    · exact .inl same
    · exact .inr last

/-- A fan that comes to IDLE from FAULT or LOCKOUT: the cascade ends with it claimed by just the zones that miss it. -/
theorem freed (h : (s.fan i).Comes f) (fans : FanLaw s) (derived : DerivedLaw s) (claims : ClaimLaw s)
    (ends : (((s.begin.moveFan i f).testExercise i).settle settleLimit).out = []) :
    Freed (s.moved i f) i ((s.begin.moveFan i f).testExercise i).finish := by
  have came := came_of_laws h fans claims
  obtain ⟨c, begins, exercise⟩ := frees_begins h came derived
  obtain ⟨d, same, after⟩ := begins.settle came settleLimit
  refine after.freed came ends ?_
  rw [same, exercise, h.fan, h.moved]
  exact Iff.rfl

end

end Sys2Proof.Machine
end

section
/-! The statements about a fan's faults and retries, and about FAN LOCK and FAN RELEASE. -/

namespace Sys2Proof.Machine

section
variable {s t : State} {i : Fin 8} {w : Work} {f g : Fan} {n : Nat}

/-! ## A fan's change of state, and what it leads to -/

theorem quiet_of_frees {h : Handover} (frees : h.frees) : h.quiet = true := by
  cases h <;> first | rfl | exact frees.elim

/-- A fan's new record, and the hand-overs that it makes. -/
theorem moved_settles (s : State) (i : Fin 8) (f : Fan) : Settles (s.moved i f) (s.begin.moveFan i f).finish :=
  (moveFan_settles s.begin i f).trans (settle_settles_quiet settleLimit fun h mem => quiet_of_frees (moveFan_frees s i f h mem))

/-- The same, with the fan's test for an owed exercise. -/
theorem moved_tested (s : State) (i : Fin 8) (f : Fan) : Settles (s.moved i f) ((s.begin.moveFan i f).testExercise i).finish := by
  obtain ⟨new, grown, quiet⟩ := (calm_testExercise (s.begin.moveFan i f) i).out
  refine ((moveFan_settles s.begin i f).trans (testExercise_settles _ i)).trans (settle_settles_quiet settleLimit fun h mem => ?_)
  rw [grown] at mem
  exact (List.mem_append.1 mem).elim (fun old => quiet_of_frees (moveFan_frees s i f h old)) (quiet h)

/-! ## Records by FLOW NOTE's measurements (R95) -/

/-- Between managed states the flow-clear timer runs on; the flow-note timer stops. -/
theorem remeasure_moving (before : g.managed = true) (after : f.managed = true) (moves : f.still = false)
    (note : f.flowNote = g.flowNote) (flow : f.flow = g.flow) (clock : Nat) : f.remeasure g clock = { f with
      noteTimer := none
      clearTimer := if g.flowNote && !g.flow.debounced then f.clearTimer else none } := by
  rw [remeasure_eq, before, after, moves, note, flow]
  cases g.flowNote <;> cases g.flow.debounced <;> rfl

/-- Into IDLE or LOCKOUT from another managed state the flow-note timer starts where the flow is present. -/
theorem remeasure_stilled (before : g.managed = true) (after : f.managed = true) (moved : g.still = false) (stands : f.still = true)
    (note : f.flowNote = g.flowNote) (flow : f.flow = g.flow) (clock : Nat) : f.remeasure g clock = { f with
      noteTimer := if g.flow.debounced then some (clock + 10000) else none
      clearTimer := if g.flowNote && !g.flow.debounced then f.clearTimer else none } := by
  rw [remeasure_eq, before, after, moved, stands, note, flow]
  cases g.flowNote <;> cases g.flow.debounced <;> rfl

/-- Between LOCKOUT and IDLE both run on. -/
theorem remeasure_still (before : g.managed = true) (after : f.managed = true) (stood : g.still = true) (stands : f.still = true)
    (note : f.flowNote = g.flowNote) (flow : f.flow = g.flow) (clock : Nat) : f.remeasure g clock = { f with
      noteTimer := if g.flow.debounced then f.noteTimer else none
      clearTimer := if g.flowNote && !g.flow.debounced then f.clearTimer else none } := by
  rw [remeasure_eq, before, after, stood, stands, note, flow]
  cases g.flowNote <;> cases g.flow.debounced <;> rfl

theorem managed_of_state {x : FanState} (state : f.state = x) (managed : x ≠ .unmanaged) : f.managed = true :=
  decide_eq_true (by rw [state]; exact managed)

/-! ## Faults and retries -/

theorem provingExpiry_runs {t : Nat} (proving : (s.fan i).state = .proving) (running : (s.fan i).provingTimer = some t) (due_ : t ≤ s.time.clock) :
    exec (.provingExpiry i) s = .next (s.begin.moveFan i ((s.fan i).faulted s.clock .noProof)).finish := by
  change execProvingExpiry i s = _
  unfold execProvingExpiry
  rw [if_pos ⟨proving, due_of_le (now := s.clock) running due_⟩]
  rfl

theorem flowLossExpiry_runs {t : Nat} (state : (s.fan i).state = .running) (running : (s.fan i).flowLossTimer = some t) (due_ : t ≤ s.time.clock) :
    exec (.flowLossExpiry i) s = .next (s.begin.moveFan i ((s.fan i).faulted s.clock .flowLost)).finish := by
  change execFlowLossExpiry i s = _
  unfold execFlowLossExpiry
  rw [if_pos ⟨state, due_of_le (now := s.clock) running due_⟩]
  rfl

theorem retryExpiry_runs {t : Nat} (state : (s.fan i).state = .fault) (running : (s.fan i).retryTimer = some t) (due_ : t ≤ s.time.clock) :
    exec (.retryExpiry i) s = .next (s.begin.retryFan i).finish := by
  change execRetryExpiry i s = _
  unfold execRetryExpiry
  rw [if_pos ⟨state, due_of_le (now := s.clock) running due_⟩]
  rfl

/-- The record of a fan that enters FAULT from PROVING or RUNNING (R81). -/
theorem moved_faulted (runs : (s.fan i).state = .proving ∨ (s.fan i).state = .running) (detail : FanFault) :
    s.moved i ((s.fan i).faulted s.clock detail) = (s.setFan i { s.fan i with
      state := .fault, output := false, lastFault := some detail, claims := .empty, manualDuration := none
      stopPending := false, manualTimer := none, provingTimer := none, minRunTimer := none, coastTimer := none
      flowLossTimer := none, exerciseTimer := none, noteTimer := none
      clearTimer := if (s.fan i).flowNote && !(s.fan i).flow.debounced then (s.fan i).clearTimer else none
      retryTimer := startTimer s.time.clock (1000 * (s.fan i).cfg.coast)
      offTime := if (s.fan i).output then some s.time.clock else (s.fan i).offTime }).notice
      (.fanChange i .fault (some detail)) := by
  have change_ : ((s.fan i).faulted s.clock detail).state ≠ (s.fan i).state := by rcases runs with e | e <;> rw [e] <;> exact nofun
  have managed : (s.fan i).managed = true := by rcases runs with e | e <;> exact managed_of_state e nofun
  rw [State.moved_of_change change_, remeasure_moving (f := (s.fan i).faulted s.clock detail) managed rfl rfl rfl rfl, ← startTimer_seconds]
  rfl

/-- The record of a fan that enters LOCKOUT from FAULT (R82). -/
theorem moved_locked (fault : (s.fan i).state = .fault) :
    s.moved i ((s.fan i).locked s.clock .retries) = (s.setFan i { s.fan i with
      state := .lockout .retries, output := false, claims := .empty, manualDuration := none, stopPending := false
      manualTimer := none, provingTimer := none, minRunTimer := none, coastTimer := none, retryTimer := none
      flowLossTimer := none, exerciseTimer := none
      noteTimer := if (s.fan i).flow.debounced then some (s.time.clock + 10000) else none
      clearTimer := if (s.fan i).flowNote && !(s.fan i).flow.debounced then (s.fan i).clearTimer else none
      offTime := if (s.fan i).output then some s.time.clock else (s.fan i).offTime }).notice
      (.fanChange i (.lockout .retries) none) := by
  have change_ : ((s.fan i).locked s.clock .retries).state ≠ (s.fan i).state := by rw [fault]; exact nofun
  have moved : (s.fan i).still = false := still_of_state fault rfl
  rw [State.moved_of_change change_, remeasure_stilled (f := (s.fan i).locked s.clock .retries) (managed_of_state fault nofun) rfl moved rfl rfl rfl]
  rfl

/-- The record of a fan that spends a retry (R82). -/
def Fan.retrying (f : Fan) (n : Nat) : Fan := { f with state := .idle, retryTimer := none, retriesLeft := n }

theorem moved_retrying (fault : (s.fan i).state = .fault) (n : Nat) :
    s.moved i ((s.fan i).retrying n) = (s.setFan i { s.fan i with
      state := .idle, retryTimer := none, retriesLeft := n
      noteTimer := if (s.fan i).flow.debounced then some (s.time.clock + 10000) else none
      clearTimer := if (s.fan i).flowNote && !(s.fan i).flow.debounced then (s.fan i).clearTimer else none }).notice
      (.fanChange i .idle none) := by
  have change_ : ((s.fan i).retrying n).state ≠ (s.fan i).state := by rw [fault]; exact nofun
  have moved : (s.fan i).still = false := still_of_state fault rfl
  rw [State.moved_of_change change_, remeasure_stilled (f := (s.fan i).retrying n) (managed_of_state fault nofun) rfl moved rfl rfl rfl]
  rfl

theorem retryFan_spends (left : (s.fan i).retriesLeft = n + 1) : s.begin.retryFan i =
    (s.begin.moveFan i ((s.fan i).retrying n)).testExercise i := by
  have some_ : (s.fan i).retriesLeft ≠ 0 := by omega
  have less : (s.fan i).retriesLeft - 1 = n := by omega
  rw [← less]
  exact if_neg some_

theorem retryFan_none (none_ : (s.fan i).retriesLeft = 0) : s.begin.retryFan i = s.begin.moveFan i ((s.fan i).locked s.clock .retries) :=
  if_pos none_

end

/-- Settles O41: each expiry is one change of the fan's state, and from IDLE the zones that miss the fan claim it. -/
theorem fanFaultsAndRetries : Obligations.FanFaultsAndRetries := by
  intro i t s due_ noting clearing
  refine ⟨fun c detail event => ?_, fun fault running => ⟨fun n left => ?_, fun none_ => ?_⟩⟩
  · rcases event with ⟨rfl, state, running, rfl⟩ | ⟨rfl, state, running, rfl⟩
    · refine ⟨_, provingExpiry_runs state running due_, ?_⟩
      have settles := moved_settles s i ((s.fan i).faulted s.clock .noProof)
      rw [moved_faulted (.inl state)] at settles
      exact settles
    · refine ⟨_, flowLossExpiry_runs state running due_, ?_⟩
      have settles := moved_settles s i ((s.fan i).faulted s.clock .flowLost)
      rw [moved_faulted (.inr state)] at settles
      exact settles
  · intro idle
    have runs := retryExpiry_runs fault running due_
    have ends : ((s.begin.retryFan i).settle settleLimit).out = [] := (posts_retryFan _ i).done rfl (by decide)
    have moved : s.moved i ((s.fan i).retrying n) = idle := moved_retrying fault n
    rw [retryFan_spends left] at runs ends
    rw [← moved]
    have comes : (s.fan i).Comes ((s.fan i).retrying n) :=
      ⟨by unfold Fan.takesClaims; rw [fault], by rw [fault]; exact nofun, rfl, rfl, rfl⟩
    exact ⟨_, runs, moved_tested s i _, fun fans derived claims => freed comes fans derived claims ends⟩
  · have runs := retryExpiry_runs fault running due_
    rw [retryFan_none none_] at runs
    have settles := moved_settles s i ((s.fan i).locked s.clock .retries)
    rw [moved_locked fault] at settles
    exact ⟨_, runs, settles⟩

end Sys2Proof.Machine
end

section
/-! The statement about FAN LOCK and FAN RELEASE. -/

namespace Sys2Proof.Machine

section
variable {s t : State} {i : Fin 8} {tag : Byte} {cause : LockCause} {off : Nat}

/-! ## FAN LOCK (R88) -/

theorem lockedOut_iff (x : FanState) : x.lockedOut = true ↔ ∃ c, x = .lockout c := by
  cases x <;> simp [FanState.lockedOut]

theorem fanLock_absent (service : s.link.service.debounced = true) (absent : (s.fan i).cfg.present = false) :
    answerFanLock (indexByte i) s = refuse s .notPresent := by
  unfold answerFanLock State.serviceActive
  rw [service, readIndex_indexByte (by decide)]
  dsimp only
  rw [absent]
  rfl

theorem fanLock_unmanaged (service : s.link.service.debounced = true) (present : (s.fan i).cfg.present = true)
    (unmanaged : (s.fan i).state = .unmanaged) : answerFanLock (indexByte i) s = refuse s .wrongState := by
  unfold answerFanLock State.serviceActive Fan.managed
  rw [service, readIndex_indexByte (by decide)]
  dsimp only
  rw [present, unmanaged]
  rfl

theorem fanLock_locked (service : s.link.service.debounced = true) (present : (s.fan i).cfg.present = true)
    (locked : (s.fan i).state = .lockout cause) : answerFanLock (indexByte i) s = accept s := by
  unfold answerFanLock State.serviceActive Fan.managed
  rw [service, readIndex_indexByte (by decide)]
  dsimp only
  rw [present, locked]
  rfl

theorem fanLock_locks (service : s.link.service.debounced = true) (present : (s.fan i).cfg.present = true)
    (managed : (s.fan i).state ≠ .unmanaged) (unlocked : ∀ cause, (s.fan i).state ≠ .lockout cause) :
    answerFanLock (indexByte i) s = accept (s.begin.lockFan i).finish := by
  have free : (s.fan i).state.lockedOut = false := Bool.eq_false_iff.2 fun e => by
    obtain ⟨c, e⟩ := (lockedOut_iff _).1 e
    exact unlocked c e
  unfold answerFanLock State.serviceActive Fan.managed
  rw [service, readIndex_indexByte (by decide)]
  dsimp only
  rw [present, decide_eq_true managed, free]
  rfl

/-- The state that FAN LOCK has brought the fan to. -/
def State.lockedAt (s : State) (i : Fin 8) : State :=
  ((s.setFan i { s.fan i with
    state := .lockout .manual, output := false, claims := .empty, manualDuration := none, stopPending := false
    offTime := if (s.fan i).output then some s.time.clock else (s.fan i).offTime
    manualTimer := none, provingTimer := none, minRunTimer := none, coastTimer := none, retryTimer := none
    flowLossTimer := none, exerciseTimer := none
    noteTimer := if (s.fan i).flow.debounced then some (s.time.clock + 10000) else none
    clearTimer := if (s.fan i).flowNote && !(s.fan i).flow.debounced then some (s.time.clock + 10000)
      else none }).notice (.fanChange i (.lockout .manual) none)).leaveWaiting i

/-- FAN LOCK restarts FLOW NOTE's measurements, whether or not the fan measured before (log entry 18). -/
theorem remeasure_byHand {g : Fan} (managed : g.managed = true) (clock : Nat) : (g.lockedByHand clock).remeasure g clock = { g with
    state := .lockout .manual, output := false, claims := .empty, manualDuration := none, stopPending := false
    offTime := if g.output then some clock else g.offTime
    manualTimer := none, provingTimer := none, minRunTimer := none, coastTimer := none, retryTimer := none
    flowLossTimer := none, exerciseTimer := none
    noteTimer := if g.flow.debounced then some (clock + 10000) else none
    clearTimer := if g.flowNote && !g.flow.debounced then some (clock + 10000) else none } := by
  have still : (g.lockedByHand clock).still = true := rfl
  have now : (g.lockedByHand clock).managed = true := rfl
  rw [remeasure_eq, managed, still, now]
  unfold Fan.lockedByHand Fan.locked Fan.stopTimers Fan.turnOff
  cases g.still <;> cases g.flowNote <;> cases g.flow.debounced <;> rfl

theorem moved_byHand (managed : (s.fan i).state ≠ .unmanaged) (unlocked : ∀ cause, (s.fan i).state ≠ .lockout cause) :
    (s.moved i ((s.fan i).lockedByHand s.clock)).leaveWaiting i = s.lockedAt i := by
  have change_ : ((s.fan i).lockedByHand s.clock).state ≠ (s.fan i).state := fun e => unlocked .manual e.symm
  rw [State.moved_of_change change_, remeasure_byHand (managed_of_state rfl managed)]
  rfl

theorem leaveWaiting_settles {u v : State} (h : Settles u v) (choices : ∃ n, v = { u with choices := n }) :
    Settles (u.leaveWaiting i) (v.leaveWaiting i) := by
  obtain ⟨n, rfl⟩ := choices
  exact settles_choices (u.leaveWaiting i) n

/-- FAN LOCK's work, and what its hand-overs lead to. -/
theorem lockFan_settles (managed : (s.fan i).state ≠ .unmanaged) (unlocked : ∀ cause, (s.fan i).state ≠ .lockout cause) :
    Settles (s.lockedAt i) (s.begin.lockFan i).finish := by
  rw [← moved_byHand managed unlocked]
  have moved := moveFan_settles s.begin i ((s.fan i).lockedByHand s.clock)
  refine (leaveWaiting_settles moved (moveFan_moved s.begin i _)).trans (settle_settles_quiet (w := s.begin.lockFan i) settleLimit fun h mem => ?_)
  exact quiet_of_frees (moveFan_frees s i _ h mem)

/-- A locked fan rests: it stays so through the cascade. -/
theorem lockedAt_rests (settles : Settles (s.lockedAt i) t) : (t.fan i).state = .lockout .manual ∧ (t.fan i).output = false ∧
    (t.fan i).claims = .empty ∧ t.requestTime i = none := by
  have fan : (s.lockedAt i).fan i = _ := State.setFan_fan_same ..
  have unasked : (s.lockedAt i).requestTime i = none := vget_vset_same ..
  obtain ⟨request, same, empty⟩ := settles.rests i unasked (by rw [fan]; rfl)
  have claims := empty (by rw [fan]; rfl) (by rw [fan])
  rw [same]
  exact ⟨by rw [fan], by rw [fan], claims, request⟩

/-! ## FAN RELEASE (R89) -/

theorem fanRelease_absent (service : s.link.service.debounced = true) (absent : (s.fan i).cfg.present = false) :
    answerFanRelease (indexByte i) s = refuse s .notPresent := by
  unfold answerFanRelease State.serviceActive
  rw [service, readIndex_indexByte (by decide)]
  dsimp only
  rw [absent]
  rfl

theorem fanRelease_unlocked (service : s.link.service.debounced = true) (present : (s.fan i).cfg.present = true)
    (unlocked : ∀ cause, (s.fan i).state ≠ .lockout cause) : answerFanRelease (indexByte i) s = refuse s .wrongState := by
  have free : (s.fan i).state.lockedOut = false := Bool.eq_false_iff.2 fun e => by
    obtain ⟨c, e⟩ := (lockedOut_iff _).1 e
    exact unlocked c e
  unfold answerFanRelease State.serviceActive
  rw [service, readIndex_indexByte (by decide)]
  dsimp only
  rw [present, free]
  rfl

theorem fanRelease_releases (service : s.link.service.debounced = true) (present : (s.fan i).cfg.present = true)
    (locked : (s.fan i).state = .lockout cause) (left : (s.begin.releaseFan i).finish = t) : answerFanRelease (indexByte i) s =
    accept t ((t.fan i).state.code :: timerLeft t.time.clock (t.fan i).coastTimer) := by
  subst left
  unfold answerFanRelease State.serviceActive
  rw [service, readIndex_indexByte (by decide)]
  dsimp only
  rw [present, locked]
  rfl

/-- The record of a fan that is released, in another state and with another coast timer (R89). -/
def Fan.releasedTo (f : Fan) (x : FanState) (timer : Option Nat) : Fan := { f with state := x, retriesLeft := f.cfg.retries, coastTimer := timer }

theorem releaseFan_coasts (off_ : (s.fan i).offTime = some off) (early : s.time.clock < off + 1000 * (s.fan i).cfg.coast) :
    s.begin.releaseFan i = s.begin.moveFan i ((s.fan i).releasedTo .coasting (some (off + 1000 * (s.fan i).cfg.coast))) := by
  have rest : ({ s.fan i with retriesLeft := (s.fan i).cfg.retries } : Fan).restAfter = some (off + 1000 * (s.fan i).cfg.coast) := by
    unfold Fan.restAfter
    dsimp only
    rw [off_, seconds_eq]
    rfl
  have late : ¬off + 1000 * (s.fan i).cfg.coast ≤ s.begin.st.clock := Nat.not_le.2 early
  unfold Work.releaseFan
  dsimp only
  rw [show s.begin.st.fan i = s.fan i from rfl, rest]
  exact if_neg late

theorem releaseFan_idles (rested : ∀ off, (s.fan i).offTime = some off → off + 1000 * (s.fan i).cfg.coast ≤ s.time.clock) :
    s.begin.releaseFan i = (s.begin.moveFan i ((s.fan i).releasedTo .idle (s.fan i).coastTimer)).testExercise i := by
  have rest : ({ s.fan i with retriesLeft := (s.fan i).cfg.retries } : Fan).restAfter =
      (s.fan i).offTime.map fun t => t + 1000 * (s.fan i).cfg.coast := by
    unfold Fan.restAfter
    dsimp only
    rw [seconds_eq]
  have passed : ∀ t, (s.fan i).offTime.map (fun t => t + 1000 * (s.fan i).cfg.coast) = some t → t ≤ s.begin.st.clock := by
    intro t e
    obtain ⟨off, off_, rfl⟩ := Option.map_eq_some_iff.1 e
    exact rested off off_
  unfold Work.releaseFan
  dsimp only
  rw [show s.begin.st.fan i = s.fan i from rfl, rest]
  revert passed
  cases (s.fan i).offTime.map fun t => t + 1000 * (s.fan i).cfg.coast with
  | none => exact fun _ => rfl
  | some t => exact fun passed => if_pos (passed t rfl)

theorem moved_released (locked : (s.fan i).state = .lockout cause) :
    s.moved i ((s.fan i).releasedTo .idle (s.fan i).coastTimer) = (s.setFan i { s.fan i with
      state := .idle, retriesLeft := (s.fan i).cfg.retries
      noteTimer := if (s.fan i).flow.debounced then (s.fan i).noteTimer else none
      clearTimer := if (s.fan i).flowNote && !(s.fan i).flow.debounced then (s.fan i).clearTimer else none }).notice
      (.fanChange i .idle none) := by
  have change_ : ((s.fan i).releasedTo .idle (s.fan i).coastTimer).state ≠ (s.fan i).state := by rw [locked]; exact nofun
  have stood : (s.fan i).still = true := by unfold Fan.still; rw [locked]
  rw [State.moved_of_change change_, remeasure_still (f := (s.fan i).releasedTo .idle (s.fan i).coastTimer) (managed_of_state locked nofun) rfl stood
    rfl rfl rfl]
  rfl

theorem moved_recoasting (locked : (s.fan i).state = .lockout cause) (t : Nat) :
    s.moved i ((s.fan i).releasedTo .coasting (some t)) = (s.setFan i { s.fan i with
      state := .coasting, retriesLeft := (s.fan i).cfg.retries, coastTimer := some t, noteTimer := none
      clearTimer := if (s.fan i).flowNote && !(s.fan i).flow.debounced then (s.fan i).clearTimer else none }).notice
      (.fanChange i .coasting none) := by
  have change_ : ((s.fan i).releasedTo .coasting (some t)).state ≠ (s.fan i).state := by rw [locked]; exact nofun
  rw [State.moved_of_change change_, remeasure_moving (f := (s.fan i).releasedTo .coasting (some t)) (managed_of_state locked nofun) rfl rfl rfl rfl]
  rfl

end

/-- Settles O17: FAN LOCK and FAN RELEASE are each one change of the fan's state, and from IDLE the zones that miss the fan claim it. -/
theorem fanLockAndReleaseMoveTheFan : Obligations.FanLockAndReleaseMoveTheFan := by
  intro tag i s free service
  refine ⟨fun absent => ⟨?_, ?_⟩, fun present unmanaged => ?_, fun present unlocked => ?_, fun cause present locked => ?_,
    fun present managed unlocked => ?_, fun cause present locked => ?_⟩
  · exact declined_request (status := .notPresent) rfl free rfl (fanLock_absent service absent)
  · exact declined_request (status := .notPresent) rfl free rfl (fanRelease_absent service absent)
  · exact declined_request (status := .wrongState) rfl free rfl (fanLock_unmanaged service present unmanaged)
  · exact declined_request (status := .wrongState) rfl free rfl (fanRelease_unlocked service present unlocked)
  · exact accepted_request rfl free rfl (fanLock_locked service present locked)
  · have settles := lockFan_settles managed unlocked
    exact ⟨_, accepted_request rfl free rfl (fanLock_locks service present managed unlocked), settles, lockedAt_rests settles⟩
  · refine ⟨_, accepted_request rfl free rfl (fanRelease_releases service present locked rfl), fun off off_ early => ?_, fun rested => ?_⟩
    · have settles := moved_settles s i ((s.fan i).releasedTo .coasting (some (off + 1000 * (s.fan i).cfg.coast)))
      rw [moved_recoasting locked, ← releaseFan_coasts off_ early] at settles
      exact settles
    · intro idle
      have moved : s.moved i ((s.fan i).releasedTo .idle (s.fan i).coastTimer) = idle := moved_released locked
      have ends : ((s.begin.releaseFan i).settle settleLimit).out = [] := (posts_releaseFan _ i).done rfl (by decide)
      rw [releaseFan_idles rested] at ends ⊢
      rw [← moved]
      have comes : (s.fan i).Comes ((s.fan i).releasedTo .idle (s.fan i).coastTimer) :=
        ⟨by unfold Fan.takesClaims; rw [locked], by rw [locked]; exact nofun, rfl, rfl, rfl⟩
      exact ⟨moved_tested s i _, fun fans derived claims => freed comes fans derived claims ends⟩

end Sys2Proof.Machine
end

section
/-! The refutation of the statement about ARM. Its clauses about the fans whose output was on rest on the fans' law alone, so they speak
also of an UNARMED state in which a zone is active, which the claims' law rules out. Such a zone allocates at each change of a fan's
availability, and can claim, release and claim again a fan that the ARM has placed in PROVING; with a min-run of 0 the release sends
the fan into COASTING, and the second claim leaves it there (R73, R77). -/

namespace Sys2Proof.Machine

/-- An active zone of an UNARMED part, with no member. Its order names fan 2 twice and then fan 1, and its claim list holds fan 2. For the
demand it shows it needs two fans, for that which a NORMAL regime gives it three. -/
def staleZone : Zone :=
  { Zone.inactive { ZoneCfg.reset with order := [2, 2, 1], needBase := 2, needIdle := 3, baseFloor := .idle } with
    active := true, demand := some .base, claims := [2] }

/-- A present fan of an UNARMED part, with no min-run. -/
def strapFan (output : Bool) : Fan :=
  { Fan.reset with cfg := { FanCfg.reset with present := true, rating := .sparkSafe, minRun := 0 }, output := output }

/-- An UNARMED state with the stale zone: fan 1 runs by its strap, fan 2 does not run, and the regime stands at CRITICAL, which no image
supports. -/
def staleState : State :=
  let lawful := (((State.reset.setFan 1 (strapFan true)).setFan 2 (strapFan false)).setSetup { Setup.reset with
    straps := vset (.replicate 8 false) 1 true, failsafeMade := vset (.replicate 8 false) 1 true }).setLink
      { Link.reset with service := ⟨true, true, none⟩ }
  (lawful.setZone 0 staleZone).setAlarm { Alarm.reset with regime := .critical }

/-- No channel is enabled, so no zone is in use, and no probe is present: nothing can fail an item of R183. -/
theorem staleState_valid (item index : Nat) : ¬FailsItem staleState item index := by
  have disabled : ∀ i, (staleState.chan i).cfg.enabled = false := by decide +kernel
  have noProbe : ∀ p, (staleState.probe p).cfg.present = false := by decide +kernel
  have unused : ∀ z, ¬InUse staleState z := fun z ⟨i, enabled, _⟩ => by simp [disabled i] at enabled
  rintro (⟨_, i, _, enabled, _⟩ | ⟨_, z, _, used, _⟩ | ⟨_, z, _, used, _⟩ | ⟨_, z, _, used, _⟩ | ⟨_, p, _, present, _⟩ |
    ⟨_, z, _, used, _⟩)
  · simp [disabled i] at enabled
  · exact unused z used
  · exact unused z used
  · exact unused z used
  · simp [noProbe p] at present
  · exact unused z used

theorem staleState_fanLaw : FanLaw staleState where
  output := by decide +kernel
  waiting := by decide +kernel
  unarmed := by decide +kernel
  absent := by decide +kernel
  managed := by decide +kernel
  failsafe := by decide +kernel

/-- ARM leaves fan 1 COASTING with the stale zone's claim. -/
theorem staleState_arm : ((staleState.does Work.arm).fan 1).state = .coasting ∧
    ((staleState.does Work.arm).fan 1).claims.none_ = false := by decide +kernel

/-- A valid ARM that is answered leaves the state of its own work, but for the link. -/
theorem arm_fan {s t : State} {tag marks : Byte} {body : List Byte} (free : s.link.outstanding = none)
    (service : s.link.service.debounced = true) (unarmed : s.setup.armed = false) (valid : s.invalid = none)
    (took : Accepted (.arm tag) s t 0xDE tag marks body) (i : Fin 8) : t.fan i = (s.does Work.arm).fan i := by
  have answer : answerOf (.arm tag) s = accept (s.does Work.arm) (bytesBE 1 s.enabledChannels.length ++
      bytesBE 1 s.usedZones.length ++ bytesBE 1 s.presentFans.length ++ bytesBE 1 s.presentProbes.length) := by
    show answerArm s = _
    unfold answerArm State.serviceActive
    rw [service, unarmed, valid]
    rfl
  have same := Host.Outcome.next.inj (took.symm.trans (accepted_request rfl free rfl answer))
  have fans : ∀ (u : State) (r : Reply), (u.sendReply r).fan i = u.fan i := fun _ _ => rfl
  rw [← fans, same, fans]

/-- Refutes O27: in the stale state, which has the fans' law, ARM leaves fan 1, whose output was on and whose min-run is 0, COASTING
with a claim, where the statement has it PROVING or RUNNING. -/
theorem not_armPlacesEveryBlock : ¬Obligations.ArmPlacesEveryBlock := by
  intro holds
  obtain ⟨_, _, _, placed⟩ := holds 0 staleState rfl rfl
  obtain ⟨t, took, _, _, _, _, _, _, _, _, fans, _⟩ := placed rfl staleState_valid
  obtain ⟨_, _, _, started⟩ := fans staleState_fanLaw 1
  obtain ⟨_, _, _, noMinRun⟩ := started rfl rfl
  obtain ⟨_, claimed, _⟩ := noMinRun rfl
  have valid : staleState.invalid = none := by decide +kernel
  have fan := arm_fan rfl rfl rfl valid took 1
  obtain ⟨coasts, carries⟩ := staleState_arm
  obtain ⟨proves, _⟩ := claimed (by rw [fan, carries])
  rw [fan, coasts] at proves
  split at proves <;> cases proves

end Sys2Proof.Machine
end
